-- ==== Sys2Proof/Word.lean ====
section
/-! DEFINITION. The word types of the Juter 9 (R6: little-endian; a word is 32 bits) and their plainest arithmetic. -/
namespace Sys2Proof

/-- One byte (R6). -/
abbrev Byte := BitVec 8
/-- One 32-bit word: a register lane, an instruction word, a uniform register (R6, R59). -/
abbrev Word := BitVec 32
/-- A 64-bit value: a global address, a register pair, domain time (R14, R32). -/
abbrev DWord := BitVec 64
/-- A 7-bit operand field of an instruction word (R10, R61). -/
abbrev R7 := BitVec 7

/-- Bits `hi` down to `lo` of a number (the notation x[h:l] of R36). -/
def bits (n hi lo : Nat) : Nat := (n >>> lo) % 2 ^ (hi + 1 - lo)

/-- Bit `i` of a number, as a Bool. -/
def bitAt (n i : Nat) : Bool := (n >>> i) % 2 == 1

/-- 0 or 1. -/
def b2n (b : Bool) : Nat := if b then 1 else 0

/-- The value of the low `w` bits of `n` read as two's complement (R42). -/
def toSigned (w n : Nat) : Int :=
  let m := n % 2 ^ w
  if 2 * m < 2 ^ w then (m : Int) else (m : Int) - (2 ^ w : Nat)

/-- An integer reduced modulo `2 ^ w` (R50). -/
def ofInt (w : Nat) (e : Int) : Nat := (e % ((2 ^ w : Nat) : Int)).toNat

/-- `x` rounded up to a multiple of `a`. -/
def roundUp (x a : Nat) : Nat := (x + a - 1) / a * a

/-- Division rounding up. -/
def ceilDiv (x a : Nat) : Nat := (x + a - 1) / a

/-- Replace position `i` of a list. -/
def setAt {α : Type} : List α → Nat → α → List α
  | [], _, _ => []
  | _ :: t, 0, y => y :: t
  | h :: t, i + 1, y => h :: setAt t i y

/-- Change position `i` of a list. -/
def modAt {α : Type} : List α → Nat → (α → α) → List α
  | [], _, _ => []
  | h :: t, 0, f => f h :: t
  | h :: t, i + 1, f => h :: modAt t i f

/-- The numbers 0 to 31: the lanes of a wave (R4). -/
def lanes : List Nat :=
  [0, 1, 2, 3, 4, 5, 6, 7, 8, 9, 10, 11, 12, 13, 14, 15,
   16, 17, 18, 19, 20, 21, 22, 23, 24, 25, 26, 27, 28, 29, 30, 31]

/-- A set of lanes: bit `l` for lane `l`. -/
abbrev Mask := BitVec 32

/-- The mask whose bit `l` is `f l`, over the 32 lanes. -/
def maskOf (f : Nat → Bool) : Mask :=
  BitVec.ofNat 32 (lanes.foldr (fun l m => 2 * m + (if f l then 1 else 0)) 0)

/-- The lanes of a mask, ascending. -/
def maskLanes (m : Mask) : List Nat := lanes.filter (fun l => m.getLsbD l)

/-- The number of one bits among the low `w` bits. -/
def popcount (w n : Nat) : Nat := (List.range w).foldl (fun c i => c + b2n (bitAt n i)) 0

/-- The `n` bytes of a number, little-endian (R6). -/
def toBytes : Nat → Nat → List Byte
  | 0, _ => []
  | n + 1, v => BitVec.ofNat 8 v :: toBytes n (v / 256)

/-- The number whose little-endian bytes are given (R6). -/
def ofBytes : List Byte → Nat
  | [] => 0
  | b :: t => b.toNat + 256 * ofBytes t

end Sys2Proof
end

