-- ==== Sys2Proof/Syntax.lean ====
section
/-! DEFINITION. The instruction set: one constructor of `Instr` for each row of spec/opcode_table.json (instruction
words and the events that are steps of the part), and the enumerations their fields hold. -/
namespace Sys2Proof

/-- Integer types of an fn field (R66, codes 0 to 7). -/
inductive IntTy | s32 | n32 | s64 | n64 | s16 | n16 | s8 | n8
  deriving DecidableEq, Repr

/-- Rounding modes (R48). -/
inductive Rm | rn | rz | rd | ru
  deriving DecidableEq, Repr

/-- Conditions of ICMP (R128). -/
inductive ICond | eq | ne | lt | le | gt | ge
  deriving DecidableEq, Repr

/-- Conditions of FCMP (R129). -/
inductive FCond | eq | ne | lt | le | gt | ge | num | nan
  deriving DecidableEq, Repr

/-- Operations of PSET (R130). -/
inductive POp | and | or | xor | andn | not
  deriving DecidableEq, Repr

/-- An extension prefix (R79 to R81): pred4's negate bit and predicate, and ext21. -/
structure Ex where
  neg : Bool
  p : BitVec 3
  ext : BitVec 21
  deriving DecidableEq, Repr

/-- A team: its launch's number and its flattened block number (R12). -/
structure TeamRef where
  launch : Nat
  tm : Nat
  deriving DecidableEq, Repr

/-- A wave: its team and its number in the team. -/
structure WaveRef where
  team : TeamRef
  num : Nat
  deriving DecidableEq, Repr

/-- The queues of R217. -/
inductive Queue | copy | attn | matrix | axis | disp
  deriving DecidableEq, Repr

/-- A stream (R219): a team's stream in a core queue, or a context's axis edit stream on a node. -/
inductive StreamRef
  | team (t : TeamRef) (q : Queue)
  | ctx (node ccn : Nat)
  deriving DecidableEq, Repr

/-- Traffic classes of the fabric (R357). -/
inductive FabClass | request | response | dispatch | management
  deriving DecidableEq, Repr

/-- A fabric stream: one class from one source die to one destination node (R357). -/
structure FabStream where
  cls : FabClass
  node : Nat
  die : Nat
  dst : Nat
  deriving DecidableEq, Repr

/-- The head of a management request (R363): the node it reaches, the adapter it comes from, TAG and RCB. -/
structure Mgmt where
  node : Nat
  adapter : Nat
  tag : Nat
  rcb : Nat
  deriving DecidableEq, Repr

/-- What a host adapter asks of a node by an ordinary remote access (R361, R363): a load, a store (of poisoned bytes or not, R340),
an atomic of R175 by its EX, or a ring instruction of R181 by its number. -/
inductive HostOp
  | load (n : Nat)
  | store (data : List Byte) (poisoned : Bool)
  | atomic (exw : BitVec 32) (y c : BitVec 64)
  | ring (op : Nat) (s : BitVec 32)
  deriving DecidableEq, Repr

/-- A request that a host adapter injects under a CCN that the host gives it (R361). -/
structure HostReq where
  adapter : Nat
  node : Nat
  tag : Nat
  ccn : Nat
  addr : BitVec 64
  op : HostOp
  deriving DecidableEq, Repr

/-- What REMOTE_ACCESS performs (R361): the next request of a stream by its packet's number, or it enters a host adapter's request
into its stream. -/
inductive RemoteReq
  | packet (n : Nat)
  | host (q : HostReq)
  deriving DecidableEq, Repr

/-- The argument of ROUTE_SET (R365): a directory entry, or an entry of a host-held table. -/
inductive RouteArg
  | dir (table addr count : Nat)
  | entry (table expert : Nat) (w : BitVec 64)
  deriving DecidableEq, Repr

/-- What a debugger reads or writes of a stopped wave (R354). -/
inductive DebugItem
  | vreg (r : WaveRef) (n lane : Nat)
  | kreg (r : WaveRef) (n : Nat)
  | xreg (r : WaveRef) (n lane : Nat)
  | preds (r : WaveRef) (lane : Nat)
  | csr (r : WaveRef) (n lane : Nat)
  | replay (r : WaveRef) (entry lane word : Nat)
  | scratch (t : TeamRef) (off : Nat)
  | acm (t : TeamRef) (word : Nat)
  deriving DecidableEq, Repr

/-- What the host gives the loader (R99 to R108): the object, the context, the die, and for each section the
segment and offset it is to lie at. -/
structure LoadReq where
  node : Nat
  die : Nat
  ccn : Nat
  file : List Byte
  places : List (Option Nat)
  deriving DecidableEq, Repr

/-- The instructions and events of the Juter 9, one constructor per row of spec/opcode_table.json. -/
inductive Instr
  /-- IADD (R115): Integer add of a and b, wrapping or saturating by type. -/
  | iadd (x : Option Ex) (s : Bool) (t : IntTy) (d : R7) (a : R7) (b : R7)
  /-- ISUB (R115): Integer subtract of b from a. -/
  | isub (x : Option Ex) (s : Bool) (t : IntTy) (d : R7) (a : R7) (b : R7)
  /-- IMUL (R115): Integer multiply, low result. -/
  | imul (x : Option Ex) (s : Bool) (t : IntTy) (d : R7) (a : R7) (b : R7)
  /-- IMULH (R115): Integer multiply, high half of the product. -/
  | imulh (x : Option Ex) (s : Bool) (t : IntTy) (d : R7) (a : R7) (b : R7)
  /-- IMAD (R115): Integer multiply-add with d as addend. -/
  | imad (x : Option Ex) (s : Bool) (t : IntTy) (d : R7) (a : R7) (b : R7)
  /-- IADDC (R116): Add with carry in and out through p7. -/
  | iaddc (x : Option Ex) (s : Bool) (t : IntTy) (d : R7) (a : R7) (b : R7)
  /-- ISUBB (R116): Subtract with borrow in and out through p7. -/
  | isubb (x : Option Ex) (s : Bool) (t : IntTy) (d : R7) (a : R7) (b : R7)
  /-- IMIN (R115): Integer minimum. -/
  | imin (x : Option Ex) (s : Bool) (t : IntTy) (d : R7) (a : R7) (b : R7)
  /-- IMAX (R115): Integer maximum. -/
  | imax (x : Option Ex) (s : Bool) (t : IntTy) (d : R7) (a : R7) (b : R7)
  /-- IABS (R115): Integer absolute value. -/
  | iabs (x : Option Ex) (s : Bool) (t : IntTy) (d : R7) (a : R7)
  /-- INEG (R115): Integer negation. -/
  | ineg (x : Option Ex) (s : Bool) (t : IntTy) (d : R7) (a : R7)
  /-- AND (R117): Bitwise and. -/
  | and (x : Option Ex) (s : Bool) (t : IntTy) (d : R7) (a : R7) (b : R7)
  /-- OR (R117): Bitwise or. -/
  | or (x : Option Ex) (s : Bool) (t : IntTy) (d : R7) (a : R7) (b : R7)
  /-- XOR (R117): Bitwise exclusive or. -/
  | xor (x : Option Ex) (s : Bool) (t : IntTy) (d : R7) (a : R7) (b : R7)
  /-- ANDN (R117): a and not b. -/
  | andn (x : Option Ex) (s : Bool) (t : IntTy) (d : R7) (a : R7) (b : R7)
  /-- SHL (R117): Shift left. -/
  | shl (x : Option Ex) (s : Bool) (t : IntTy) (d : R7) (a : R7) (b : R7)
  /-- SHR (R117): Logical shift right. -/
  | shr (x : Option Ex) (s : Bool) (t : IntTy) (d : R7) (a : R7) (b : R7)
  /-- SAR (R117): Arithmetic shift right. -/
  | sar (x : Option Ex) (s : Bool) (t : IntTy) (d : R7) (a : R7) (b : R7)
  /-- ROL (R117): Rotate left. -/
  | rol (x : Option Ex) (s : Bool) (t : IntTy) (d : R7) (a : R7) (b : R7)
  /-- POPC (R117): Population count. -/
  | popc (x : Option Ex) (s : Bool) (t : IntTy) (d : R7) (a : R7)
  /-- CLZ (R117): Count leading zeros. -/
  | clz (x : Option Ex) (s : Bool) (t : IntTy) (d : R7) (a : R7)
  /-- BREV (R117): Bit reverse. -/
  | brev (x : Option Ex) (s : Bool) (t : IntTy) (d : R7) (a : R7)
  /-- BFX (R118): Bit-field extract. -/
  | bfx (x : Option Ex) (s : Bool) (t : IntTy) (d : R7) (a : R7) (b : R7)
  /-- BFI (R118): Bit-field insert into d. -/
  | bfi (x : Option Ex) (s : Bool) (t : IntTy) (d : R7) (a : R7) (b : R7)
  /-- LEA (R119): 64-bit address sum a + ext(b). -/
  | lea (x : Option Ex) (s : Bool) (t : IntTy) (d : R7) (a : R7) (b : R7)
  /-- BPICK (R120): Byte pick under a selector. -/
  | bpick (x : Option Ex) (s : Bool) (t : IntTy) (d : R7) (a : R7) (b : R7)
  /-- FADD (R121): FP32 add, rounded once. -/
  | fadd (x : Option Ex) (s : Bool) (r : Rm) (d : R7) (a : R7) (b : R7)
  /-- FSUB (R121): FP32 subtract. -/
  | fsub (x : Option Ex) (s : Bool) (r : Rm) (d : R7) (a : R7) (b : R7)
  /-- FMUL (R121): FP32 multiply. -/
  | fmul (x : Option Ex) (s : Bool) (r : Rm) (d : R7) (a : R7) (b : R7)
  /-- FFMA (R121): FP32 fused multiply-add with d as addend. -/
  | ffma (x : Option Ex) (s : Bool) (r : Rm) (d : R7) (a : R7) (b : R7)
  /-- FMIN (R122): FP32 minimum. -/
  | fmin (x : Option Ex) (d : R7) (a : R7) (b : R7)
  /-- FMAX (R122): FP32 maximum. -/
  | fmax (x : Option Ex) (d : R7) (a : R7) (b : R7)
  /-- FRCP (R123): Reciprocal on the special-function unit. -/
  | frcp (x : Option Ex) (l : BitVec 4) (d : R7) (a : R7)
  /-- FRSQ (R123): Reciprocal square root. -/
  | frsq (x : Option Ex) (l : BitVec 4) (d : R7) (a : R7)
  /-- FSQRT (R123): Square root. -/
  | fsqrt (x : Option Ex) (l : BitVec 4) (d : R7) (a : R7)
  /-- FEXP2 (R123): Base-2 exponential. -/
  | fexp2 (x : Option Ex) (l : BitVec 4) (d : R7) (a : R7)
  /-- FLOG2 (R123): Base-2 logarithm. -/
  | flog2 (x : Option Ex) (l : BitVec 4) (d : R7) (a : R7)
  /-- FSIN (R123): Sine. -/
  | fsin (x : Option Ex) (l : BitVec 4) (d : R7) (a : R7)
  /-- FCOS (R123): Cosine. -/
  | fcos (x : Option Ex) (l : BitVec 4) (d : R7) (a : R7)
  /-- FTANH (R123): Hyperbolic tangent. -/
  | ftanh (x : Option Ex) (l : BitVec 4) (d : R7) (a : R7)
  /-- FCLASS (R122): Classify an FP32 value into a one-hot mask. -/
  | fclass (x : Option Ex) (d : R7) (a : R7)
  /-- FCPYS (R122): Copy sign of b onto magnitude of a. -/
  | fcpys (x : Option Ex) (d : R7) (a : R7) (b : R7)
  /-- HADD2 (R124): Packed half-precision add. -/
  | hadd2 (x : Option Ex) (m : Bool) (s : Bool) (r : Rm) (d : R7) (a : R7) (b : R7)
  /-- HMUL2 (R124): Packed half-precision multiply. -/
  | hmul2 (x : Option Ex) (m : Bool) (s : Bool) (r : Rm) (d : R7) (a : R7) (b : R7)
  /-- HFMA2 (R124): Packed half-precision fused multiply-add. -/
  | hfma2 (x : Option Ex) (m : Bool) (s : Bool) (r : Rm) (d : R7) (a : R7) (b : R7)
  /-- HMAX2 (R124): Packed half-precision maximum. -/
  | hmax2 (x : Option Ex) (m : Bool) (d : R7) (a : R7) (b : R7)
  /-- CVT (R125): Convert between types. -/
  | cvt (x : Option Ex) (s : Bool) (r : Rm) (d : R7) (a : R7) (dt : BitVec 4) (st : BitVec 3)
  /-- CVTQ (R126): Quantise 16-lane groups into XB4 or XB8 blocks. -/
  | cvtq (x : Option Ex) (e : Bool) (s : Bool) (r : Rm) (d : R7) (a : R7) (t : R7)
  /-- FRND (R127): Round to an integral FP32 value. -/
  | frnd (x : Option Ex) (r : Rm) (d : R7) (a : R7)
  /-- ICMP (R128): Integer compare into a predicate. -/
  | icmp (x : Option Ex) (q : ICond) (d : R7) (a : R7) (b : R7)
  /-- FCMP (R129): Floating-point compare into a predicate. -/
  | fcmp (x : Option Ex) (q : FCond) (d : R7) (a : R7) (b : R7)
  /-- PSET (R130): Combine predicates. -/
  | pset (x : Option Ex) (q : POp) (d : R7) (a : R7) (b : R7)
  /-- PMOV_GET (R131): Move predicates into a vector register. -/
  | pmovGet (x : Option Ex) (d : R7)
  /-- PMOV_SET (R131): Set predicates from a register. -/
  | pmovSet (x : Option Ex) (a : R7)
  /-- SEL (R132): Select a or b by a predicate. -/
  | sel (x : Option Ex) (n : Bool) (p : BitVec 3) (d : R7) (a : R7) (b : R7)
  /-- MOV (R133): Copy a register with its form. -/
  | mov (x : Option Ex) (d : R7) (a : R7)
  /-- MOVK (R134): Broadcast one lane of a as a uniform value. -/
  | movk (x : Option Ex) (d : R7) (a : R7) (i : R7)
  /-- LDI (R135): Load a sign-extended immediate. -/
  | ldi (x : Option Ex) (d : R7) (i : R7)
  /-- LDI_HI (R135): Set the high bits of d from an immediate. -/
  | ldiHi (x : Option Ex) (d : R7) (i : R7)
  /-- SHFL (R137): Move a register between lanes of a wave. -/
  | shfl (x : Option Ex) (l : BitVec 4) (d : R7) (a : R7) (b : R7)
  /-- SHFLX (R138): Gather among four waves of the team. -/
  | shflx (x : Option Ex) (l : BitVec 4) (d : R7) (a : R7) (b : R7)
  /-- VOTE (R139): Wave vote any, all, ballot or eq. -/
  | vote (x : Option Ex) (l : BitVec 4) (d : R7) (a : R7)
  /-- REDUX (R140): Wave or team reduction. -/
  | redux (x : Option Ex) (l : BitVec 4) (d : R7) (a : R7) (b : R7)
  /-- SCAN (R142): Prefix combination over active lanes. -/
  | scan (x : Option Ex) (l : BitVec 4) (d : R7) (a : R7)
  /-- RBAL (R143): Assign lanes to row and offset pairs. -/
  | rbal (x : Option Ex) (l : BitVec 4) (d : R7) (a : R7) (b : R7)
  /-- BIN (R144): Rank keys in bins and add per-bin counts. -/
  | bin (x : Option Ex) (l : BitVec 4) (d : R7) (a : R7) (b : R7)
  /-- MRG (R145): Merge two sorted key streams. -/
  | mrg (x : Option Ex) (l : BitVec 4) (d : R7) (a : R7) (b : R7)
  /-- SORTK (R146): Sort key-index pairs of active lanes. -/
  | sortk (x : Option Ex) (l : BitVec 4) (d : R7) (a : R7)
  /-- BRA (R147): Conditional branch. -/
  | bra (c : BitVec 4) (o : BitVec 21)
  /-- CALL (R147): Conditional call writing the return address to x3. -/
  | call (c : BitVec 4) (o : BitVec 21)
  /-- BRX (R148): Indirect branch per item. -/
  | brx (x : Option Ex) (a : R7)
  /-- RET (R148): Return through a register, a drain point. -/
  | ret (x : Option Ex) (a : R7)
  /-- NOP (R149): No operation. -/
  | nop (x : Option Ex)
  /-- JOIN (R149): Reconvergence point and drain point. -/
  | join (x : Option Ex)
  /-- EXIT (R151): End the active items. -/
  | exit (x : Option Ex)
  /-- YIELD (R152): Let other ready waves of the partition issue. -/
  | yield (x : Option Ex)
  /-- TRAP (R153): Raise the program trap with a code. -/
  | trap (x : Option Ex) (i : R7)
  /-- FORM (R154): Read the form tag of a register. -/
  | form (x : Option Ex) (d : R7) (a : R7)
  /-- MATL (R154): Materialise a register. -/
  | matl (x : Option Ex) (a : R7)
  /-- UNIF (R154): Copy a uniform value, trapping otherwise. -/
  | unif (x : Option Ex) (d : R7) (a : R7)
  /-- WBASE (R155): Set the register window base. -/
  | wbase (x : Option Ex) (i : R7)
  /-- WQUOTA (R157): Give register quota to another wave of the team. -/
  | wquota (x : Option Ex) (a : R7) (b : R7)
  /-- WORK (R158): Compute a persistent team's share of iterations. -/
  | work (x : Option Ex) (l : BitVec 4) (d : R7) (a : R7) (b : R7)
  /-- IDX (R159): Coordinate of a flattened index along an axis. -/
  | idx (x : Option Ex) (d : R7) (a : R7) (i : R7)
  /-- LDG (R166): Global load. -/
  | ldg (x : Option Ex) (l : BitVec 4) (d : R7) (a : R7) (b : R7)
  /-- STG (R166): Global store. -/
  | stg (x : Option Ex) (l : BitVec 4) (d : R7) (a : R7) (b : R7)
  /-- LDS (R166): Scratchpad load. -/
  | lds (x : Option Ex) (l : BitVec 4) (d : R7) (a : R7) (b : R7)
  /-- STS (R166): Scratchpad store. -/
  | sts (x : Option Ex) (l : BitVec 4) (d : R7) (a : R7) (b : R7)
  /-- LDC (R166): Cluster scratchpad load. -/
  | ldc (x : Option Ex) (l : BitVec 4) (d : R7) (a : R7) (b : R7)
  /-- STC (R166): Cluster scratchpad store. -/
  | stc (x : Option Ex) (l : BitVec 4) (d : R7) (a : R7) (b : R7)
  /-- LDT (R167): Load one tensor element through its tensor object. -/
  | ldt (x : Option Ex) (l : BitVec 4) (d : R7) (a : R7) (b : R7)
  /-- STT (R167): Store one tensor element through its tensor object. -/
  | stt (x : Option Ex) (l : BitVec 4) (d : R7) (a : R7) (b : R7)
  /-- LDU (R168): Uniform global load, once per wave. -/
  | ldu (x : Option Ex) (l : BitVec 4) (d : R7) (a : R7) (b : R7)
  /-- LDA (R169): Accumulator memory load. -/
  | lda (x : Option Ex) (l : BitVec 4) (d : R7) (a : R7) (b : R7)
  /-- STA (R169): Accumulator memory store. -/
  | sta (x : Option Ex) (l : BitVec 4) (d : R7) (a : R7) (b : R7)
  /-- STW (R171): Declare a stash window slot. -/
  | stw (x : Option Ex) (l : BitVec 4) (d : R7) (a : R7) (b : R7)
  /-- STWB (R173): Write back and release a stash window. -/
  | stwb (x : Option Ex) (l : BitVec 4) (d : R7)
  /-- PREF (R170): Prefetch a line into L2 and L1. -/
  | pref (x : Option Ex) (l : BitVec 4) (a : R7) (b : R7)
  /-- ATOMG (R176): Global atomic at the home L2 slice. -/
  | atomg (x : Option Ex) (l : BitVec 4) (d : R7) (a : R7) (b : R7)
  /-- ATOMS (R176): Scratchpad atomic at the bank. -/
  | atoms (x : Option Ex) (l : BitVec 4) (d : R7) (a : R7) (b : R7)
  /-- ATOMC (R176): Cluster neighbour scratchpad atomic. -/
  | atomc (x : Option Ex) (l : BitVec 4) (d : R7) (a : R7) (b : R7)
  /-- REDG (R175): Global atomic without a return value. -/
  | redg (x : Option Ex) (l : BitVec 4) (a : R7) (b : R7)
  /-- RGRSV (R181): Reserve a ring slot. -/
  | rgrsv (x : Option Ex) (l : BitVec 4) (d : R7) (a : R7)
  /-- RGPUB (R181): Publish a ring slot and advance PUB. -/
  | rgpub (x : Option Ex) (l : BitVec 4) (d : R7) (a : R7) (b : R7)
  /-- RGTAKE (R181): Take the next published ring slot. -/
  | rgtake (x : Option Ex) (l : BitVec 4) (d : R7) (a : R7)
  /-- RGFREE (R181): Free a taken ring slot and advance RELD. -/
  | rgfree (x : Option Ex) (l : BitVec 4) (d : R7) (a : R7) (b : R7)
  /-- TXBEGIN (R183): Open or nest a transaction. -/
  | txbegin (o : BitVec 21)
  /-- ORELSE (R191): Record a pending alternative. -/
  | orelse (o : BitVec 21)
  /-- TXEND (R190): Commit or unnest a transaction. -/
  | txend (x : Option Ex)
  /-- RETRY (R192): Roll back to an alternative, or abort and sleep on the read set. -/
  | retry (x : Option Ex)
  /-- OREND (R191): Drop the most recent pending alternative. -/
  | orend (x : Option Ex)
  /-- TXABORT (R194): Abort the transaction explicitly. -/
  | txabort (x : Option Ex)
  /-- TXSTAT (R194): Read the TXSTAT CSR into d. -/
  | txstat (x : Option Ex) (d : R7)
  /-- ACQ (R199): Acquire a sync object by reading SEQ. -/
  | acq (x : Option Ex) (d : R7) (a : R7)
  /-- REL (R199): Release a sync object by incrementing SEQ. -/
  | rel (x : Option Ex) (d : R7) (a : R7)
  /-- FENCE (R200): Order the wave's accesses at a scope. -/
  | fence (x : Option Ex)
  /-- ARRIVE (R203): Arrive at a barrier object. -/
  | arrive (x : Option Ex) (d : R7) (a : R7)
  /-- BIND (R198): Bind a region to a sync object. -/
  | bind (x : Option Ex) (a : R7) (b : R7)
  /-- BARINIT (R202): Initialise a barrier object. -/
  | barinit (x : Option Ex) (a : R7) (b : R7)
  /-- RGDEF (R180): Define a ring. -/
  | rgdef (x : Option Ex) (a : R7) (b : R7)
  /-- RKINIT (R211): Initialise a ranked list. -/
  | rkinit (x : Option Ex) (a : R7) (b : R7)
  /-- RKTHR (R212): Bind or unbind a list to a threshold slot. -/
  | rkthr (x : Option Ex) (a : R7) (s : R7)
  /-- PTHR (R213): Predicate keys against a threshold slot. -/
  | pthr (x : Option Ex) (d : R7) (a : R7) (s : R7)
  /-- RKPUSH (R214): Push key-index pairs into a ranked list. -/
  | rkpush (x : Option Ex) (l : BitVec 4) (d : R7) (a : R7) (b : R7)
  /-- RKMERGE (R215): Merge a source list into a list. -/
  | rkmerge (x : Option Ex) (a : R7) (b : R7)
  /-- RKREAD (R216): Read a rank of a list. -/
  | rkread (x : Option Ex) (d : R7) (a : R7) (b : R7)
  /-- COPY (R233): Queue a slab copy between tensor and scratchpad. -/
  | copy (x : Option Ex) (f : BitVec 4) (d : R7) (a : R7) (b : R7)
  /-- COPYX (R234): Queue an indexed row copy. -/
  | copyx (x : Ex) (f : BitVec 4) (d : R7) (a : R7) (b : R7)
  /-- GATH (R235): Queue a gather of rows from global memory. -/
  | gath (x : Ex) (f : BitVec 4) (d : R7) (a : R7) (b : R7)
  /-- SCATX (R235): Queue a scatter of rows to global memory. -/
  | scatx (x : Ex) (f : BitVec 4) (d : R7) (a : R7) (b : R7)
  /-- MMA (R237): Queue a matrix multiply-accumulate. -/
  | mma (x : Option Ex) (f : BitVec 4) (d : R7) (a : R7)
  /-- MMAB (R241): Queue up to sixteen block products. -/
  | mmab (x : Ex) (f : BitVec 4) (d : R7) (a : R7)
  /-- MMAS (R242): Queue a sparse matrix product with bitmaps. -/
  | mmas (x : Ex) (f : BitVec 4) (d : R7) (a : R7)
  /-- ATTN (R243): Queue an attention pass over token blocks. -/
  | attn (x : Option Ex) (f : BitVec 4) (d : R7) (a : R7) (b : R7)
  /-- ATTNFIN (R251): Queue the final division of attention outputs. -/
  | attnfin (x : Ex) (f : BitVec 4) (d : R7) (a : R7)
  /-- FOLD (R253): Queue folding of evicted rows into a Sinter state. -/
  | fold (x : Ex) (f : BitVec 4) (d : R7) (a : R7)
  /-- DISP (R254): Hand tokens to Geyser. -/
  | disp (x : Option Ex) (f : BitVec 4) (d : R7) (a : R7) (b : R7)
  /-- AXEDIT (R255): Queue an axis table edit. -/
  | axedit (x : Ex) (f : BitVec 4) (d : R7) (a : R7)
  /-- AXSYNC (R256): Queue a join on earlier axis edits. -/
  | axsync (x : Ex) (f : BitVec 4) (d : R7) (a : R7)
  /-- LAUNCH (R257): Append a launch record to a launch queue. -/
  | launch (x : Ex) (f : BitVec 4) (d : R7) (a : R7)
  /-- WAITF (R206): Hold the wave until named flags fall to N or less. -/
  | waitf (x : Option Ex) (n : R7) (i : R7)
  /-- QFENCE (R207): Place a join in the named queues. -/
  | qfence (x : Option Ex) (d : R7) (i : R7)
  /-- CSRR (R260): Read a CSR. -/
  | csrr (x : Option Ex) (d : R7) (i : R7)
  /-- CSRW (R261): Write a CSR without behaviour of its own, trapping for read-only or reserved numbers. -/
  | csrw (x : Option Ex) (a : R7) (i : R7)
  /-- CSRW_SSTAT (R28): Write SSTAT, clearing the sticky ORD bit. -/
  | csrwSstat (x : Option Ex) (a : R7)
  /-- CSRW_BND (R29): Write BND with bound checks. -/
  | csrwBnd (x : Option Ex) (a : R7)
  /-- TRET (R262): End the handler for an item; the last one restores and re-injects. -/
  | tret (x : Option Ex)
  /-- REPLAY (R337): Re-issue a replay-queue entry. -/
  | replay (x : Option Ex) (e : R7)
  /-- RQDROP (R262): Drop a replay-queue entry or all entries. -/
  | rqdrop (x : Option Ex) (e : R7)
  /-- HALT (R263): Stop every wave of the context and notify the host. -/
  | halt (x : Option Ex) (i : R7)
  /-- BKPT (R263): Raise the breakpoint trap. -/
  | bkpt (x : Option Ex) (i : R7)
  /-- VERSION (R376): Secure service returning firmware security version. -/
  | version (x : Option Ex) (a : R7)
  /-- REGION_SET (R377): Secure service changing a memory region's world. -/
  | regionSet (x : Option Ex) (a : R7)
  /-- REGION_GET (R376): Secure service reading a region's world. -/
  | regionGet (x : Option Ex) (a : R7)
  /-- SFDOM_SET (R374): Secure service setting the world-violation fault domain. -/
  | sfdomSet (x : Option Ex) (a : R7)
  /-- MEASURE (R376): Secure service reading 12 bytes of a measurement slot. -/
  | measure (x : Option Ex) (a : R7)
  /-- EXTEND (R380): Secure service extending a measurement slot. -/
  | extend (x : Option Ex) (a : R7)
  /-- RANDOM (R376): Secure service returning random words. -/
  | random (x : Option Ex) (a : R7)
  /-- POWER_READ (R383): Secure service reading a block's power counters. -/
  | powerRead (x : Option Ex) (a : R7)
  /-- TIME (R265): Read the 64-bit domain time. -/
  | time (x : Option Ex) (d : R7)
  /-- UNASSIGNED_MAJOR (R86): A word of an unassigned or always-illegal major raises the illegal-instruction trap. -/
  | unassignedMajor (w : Word)
  /-- LX_COMPLETE (R69): An issued LX instruction completes and writes its results. -/
  | lxComplete (r : WaveRef) (e : Nat)
  /-- LAUNCH_TAKE (R270): The sequencer takes and checks a launch record from the queue. -/
  | launchTake (node ccn : Nat)
  /-- TEAM_PLACEMENT (R277): The distributor places a waiting team on a core. -/
  | teamPlacement (t : TeamRef)
  /-- DEFICIT_PREEMPT (R291): A context whose deficit is exhausted is pre-empted for a waiting context. -/
  | deficitPreempt (node die ccn : Nat)
  /-- FORCEPRE_PREEMPT (R279): After a full slice of waiting, a FORCEPRE region clears a core. -/
  | forceprePreempt (t : TeamRef)
  /-- WAVE_BOOST (R289): A wave ready for 256 cycles becomes boosted. -/
  | waveBoost (r : WaveRef)
  /-- YIELD_EXPIRY (R152): The 64-cycle pass-over after YIELD ends. -/
  | yieldExpiry (r : WaveRef)
  /-- FALLBACK_ROTATION (R150): The issuing group rotates after 1,024 issue cycles. -/
  | fallbackRotation (r : WaveRef)
  /-- WAITING_BUDGET_EXPIRY (R352): A region's wait counter exceeds WAITB; snapshot or record. -/
  | waitingBudgetExpiry (node rcb : Nat)
  /-- ENGINE_COMMAND_START (R223): An engine starts the next command of a stream once its predecessors allow. -/
  | engineCommandStart (q : StreamRef)
  /-- ENGINE_COMMAND_COMPLETE (R75): A command completes, decrementing its flag or writing its completion word. -/
  | engineCommandComplete (q : StreamRef)
  /-- SHOOT_DOWN (R306): A shoot-down arrives at a core and empties cached translations. -/
  | shootDown (i : Nat)
  /-- SHOOT_DOWN_ACKNOWLEDGE (R306): A core acknowledges once earlier translations have performed. -/
  | shootDownAcknowledge (i : Nat)
  /-- FAULT_RECORD (R339): A fault record is placed in its domain's ring when room allows. -/
  | faultRecord (node fdom : Nat)
  /-- REMOTE_ACCESS (R361): A request packet is checked and performed at the target node. -/
  | remoteAccess (r : RemoteReq)
  /-- FABRIC_STREAM_FAIL (R342): Exhausted retries fail a fabric stream. -/
  | fabricStreamFail (st : FabStream)
  /-- PACKET_LIFETIME_EXPIRY (R358): A packet older than LT is discarded and its stream failed. -/
  | packetLifetimeExpiry (pkt : Nat)
  /-- HW_BARRIER_ARRIVAL (R204): An arrival reaches a hardware barrier. -/
  | hwBarrierArrival (i : Nat)
  /-- HW_BARRIER_RELEASE (R204): A hardware barrier release increments PHASE in a team's object. -/
  | hwBarrierRelease (i : Nat)
  /-- SEND_QUEUE_TIMEOUT (R367): A Geyser send queue sends after 128 idle cycles. -/
  | sendQueueTimeout (node die dst : Nat)
  /-- DISPATCH_PACKET_RECEIVE (R368): The receiving Geyser checks the generation and delivers tokens into a ring. -/
  | dispatchPacketReceive (pkt : Nat)
  /-- DELIVERY_RETRY (R368): A delivery waiting on a full ring retries when line 0 is written. -/
  | deliveryRetry (i : Nat)
  /-- GENERATION_RETIRE_WAIT (R369): A DISP waiting for LT after a generation's retirement proceeds. -/
  | generationRetireWait (q : StreamRef)
  /-- GANG_SLICE_BOUNDARY (R350): At a slice boundary each node prepares the incoming gang and arrives. -/
  | gangSliceBoundary (node : Nat)
  /-- GANG_BARRIER_ARRIVAL (R350): A gang barrier arrival reaches the root, which commits when all arrive. -/
  | gangBarrierArrival (node gen : Nat)
  /-- GANG_ABORT (R350): At T + G without all arrivals the root releases with abort. -/
  | gangAbort
  /-- GANG_DECISION (R350): A node receives the commit or abort decision. -/
  | gangDecision (node : Nat)
  /-- PEER_SET (R360): Write a peer table entry. -/
  | peerSet (h : Mgmt) (ccn lo hi : Nat)
  /-- FDOM_SET (R339): Write a fault domain table entry. -/
  | fdomSet (h : Mgmt) (n ring : Nat)
  /-- ROUTE_SET (R365): Write a routing directory entry or host-held routing table. -/
  | routeSet (h : Mgmt) (die ccn : Nat) (r : RouteArg)
  /-- GANG_SCHED (R351): Install a gang schedule record. -/
  | gangSched (h : Mgmt) (rec : List Byte)
  /-- QUEUE_RESET (R341): Reset a halted stream. -/
  | queueReset (h : Mgmt) (q : StreamRef)
  /-- WAVE_RESUME (R338): Resume a wave descheduled for replay. -/
  | waveResume (h : Mgmt) (r : WaveRef)
  /-- WAVE_END (R338): End a wave descheduled for replay. -/
  | waveEnd (h : Mgmt) (r : WaveRef)
  /-- CTX_RESUME (R349): Resume a saved context. -/
  | ctxResume (h : Mgmt) (ccn : Nat)
  /-- CTX_DESTROY (R363): End a context and discard its images and grants. -/
  | ctxDestroy (h : Mgmt) (ccn : Nat)
  /-- DEBUG_STOP (R354): Debugger stops chosen waves. -/
  | debugStop (h : Mgmt) (rs : List WaveRef)
  /-- DEBUG_READ (R354): Debugger reads state of stopped waves. -/
  | debugRead (h : Mgmt) (i : DebugItem)
  /-- DEBUG_WRITE (R355): Debugger writes state of stopped waves. -/
  | debugWrite (h : Mgmt) (i : DebugItem) (v : Nat)
  /-- DEBUG_RESUME (R354): Debugger resumes stopped waves. -/
  | debugResume (h : Mgmt) (rs : List WaveRef)
  /-- COUNTERS (R370): Read the node's fabric and dispatch counters. -/
  | counters (h : Mgmt)
  /-- ENABLE (R363): Read each die's core enable record. -/
  | enable (h : Mgmt)
  /-- MEM (R363): Read or write node physical memory outside the save pool. -/
  | mem (h : Mgmt) (addr : Nat) (len : Nat) (data : Option (List Byte))
  /-- GET_VERSION (R382): SPDM request starting a new connection. -/
  | getVersion (h : Mgmt) (msg : List Byte)
  /-- GET_CAPABILITIES (R382): SPDM capabilities request. -/
  | getCapabilities (h : Mgmt) (msg : List Byte)
  /-- NEGOTIATE_ALGORITHMS (R382): SPDM algorithm negotiation. -/
  | negotiateAlgorithms (h : Mgmt) (msg : List Byte)
  /-- GET_DIGESTS (R382): SPDM certificate digests request. -/
  | getDigests (h : Mgmt) (msg : List Byte)
  /-- GET_CERTIFICATE (R382): SPDM certificate request. -/
  | getCertificate (h : Mgmt) (msg : List Byte)
  /-- CHALLENGE (R382): SPDM challenge signing the transcript. -/
  | challenge (h : Mgmt) (msg : List Byte)
  /-- GET_MEASUREMENTS (R382): SPDM measurements request. -/
  | getMeasurements (h : Mgmt) (msg : List Byte)
  /-- DEVICE_RESET (R356): End every context and clear queues, then boot. -/
  | deviceReset (node : Nat)
  /-- LOADER_PLACE (R106): The loader relocates and places an EZO object, reporting a status. -/
  | loaderPlace (q : LoadReq)
  /-- WAKE_WITHOUT_CAUSE (R195): A sleeping wave is woken without any write to its watched lines, for example by the per-die wake filter. -/
  | wakeWithoutCause (r : WaveRef)
  /-- RESERVED_FN_VALUE (R67): A word of an assigned major with a reserved fn value raises the illegal-instruction trap with DETAIL 0x02. -/
  | reservedFnValue (x : Option Ex) (w : Word)
  /-- RESERVED_OPERAND_VALUE (R63): A word whose register or code field holds a reserved value (e.g. 124 to 127, or a non-z unused field) raises the illegal-operand trap. -/
  | reservedOperandValue (x : Option Ex) (w : Word)
  /-- EX_MISUSE (R83): An EX followed by another EX, a BX word, major 0x7E or an unassigned major raises the illegal-instruction trap at the EX with DETAIL 0x03. -/
  | exMisuse (w n : Word)
  /-- SWC_UNKNOWN_SERVICE (R264): SWC with a service number from 8 to 127 writes 0xFFFFFFFF to k(a). -/
  | swcUnknownService (x : Option Ex) (a n : R7)
  /-- UNKNOWN_MANAGEMENT_CODE (R363): A management request with an unlisted CODE returns STATUS 2. -/
  | unknownManagementCode (h : Mgmt) (code : Nat)
  /-- UNSUPPORTED_REQUEST (R382): An SPDM message with an unknown request code gets ERROR UnsupportedRequest. -/
  | unsupportedRequest (h : Mgmt) (msg : List Byte)
  deriving DecidableEq, Repr

/-- The type code of an integer type (R66). -/
def IntTy.code : IntTy → Nat
  | .s32 => 0 | .n32 => 1 | .s64 => 2 | .n64 => 3 | .s16 => 4 | .n16 => 5 | .s8 => 6 | .n8 => 7

/-- The integer type of a type code from 0 to 7 (R66). -/
def IntTy.ofCode : Nat → IntTy
  | 0 => .s32 | 1 => .n32 | 2 => .s64 | 3 => .n64 | 4 => .s16 | 5 => .n16 | 6 => .s8 | _ => .n8

/-- The width in bits of an integer type (R42). -/
def IntTy.width : IntTy → Nat
  | .s32 => 32 | .n32 => 32 | .s64 => 64 | .n64 => 64 | .s16 => 16 | .n16 => 16 | .s8 => 8 | .n8 => 8

/-- Whether an integer type is signed (R42). -/
def IntTy.signed : IntTy → Bool
  | .s32 => true | .s64 => true | .s16 => true | .s8 => true | _ => false

/-- The code of a rounding mode (R48). -/
def Rm.code : Rm → Nat
  | .rn => 0 | .rz => 1 | .rd => 2 | .ru => 3

/-- The rounding mode of a 2-bit code (R48). -/
def Rm.ofCode : Nat → Rm
  | 0 => .rn | 1 => .rz | 2 => .rd | _ => .ru

/-- The fn code of an ICMP condition (R128). -/
def ICond.code : ICond → Nat
  | .eq => 0 | .ne => 1 | .lt => 2 | .le => 3 | .gt => 4 | .ge => 5

/-- The ICMP condition of an fn code from 0 to 5 (R128). -/
def ICond.ofCode : Nat → ICond
  | 0 => .eq | 1 => .ne | 2 => .lt | 3 => .le | 4 => .gt | _ => .ge

/-- The fn code of an FCMP condition (R129). -/
def FCond.code : FCond → Nat
  | .eq => 0 | .ne => 1 | .lt => 2 | .le => 3 | .gt => 4 | .ge => 5 | .num => 6 | .nan => 7

/-- The FCMP condition of an fn code from 0 to 7 (R129). -/
def FCond.ofCode : Nat → FCond
  | 0 => .eq | 1 => .ne | 2 => .lt | 3 => .le | 4 => .gt | 5 => .ge | 6 => .num | _ => .nan

/-- The fn code of a PSET operation (R130). -/
def POp.code : POp → Nat
  | .and => 0 | .or => 1 | .xor => 2 | .andn => 3 | .not => 4

/-- The PSET operation of an fn code from 0 to 4 (R130). -/
def POp.ofCode : Nat → POp
  | 0 => .and | 1 => .or | 2 => .xor | 3 => .andn | _ => .not

end Sys2Proof
end

