-- ==== Sys2Proof/Machine/Num.lean ====
section
/-! DEFINITION. Number formats (R38 to R50, R53, R54): exact values, one rounding, overflow and saturation, the special
functions of R123, and the block formats (R41 to R44, R51, R52). -/
namespace Sys2Proof.Machine
open Sys2Proof

/-- A floating-point format (R38): exponent bits, fraction bits, bias, and whether it has an infinity. -/
structure Fmt where
  e : Nat
  m : Nat
  bias : Nat
  inf : Bool
  deriving DecidableEq, Repr

/-- FP32 (R38). -/
def fp32 : Fmt := ⟨8, 23, 127, true⟩
/-- FP16 (R38). -/
def fp16 : Fmt := ⟨5, 10, 15, true⟩
/-- BF16 (R38). -/
def bf16 : Fmt := ⟨8, 7, 127, true⟩
/-- FP8 E4M3 (R38). -/
def e4m3 : Fmt := ⟨4, 3, 7, false⟩
/-- FP8 E5M2 (R38). -/
def e5m2 : Fmt := ⟨5, 2, 15, true⟩

/-- The value of a code: NaN, an infinity, or (−1)^neg × mant × 2^exp (R38). -/
inductive FVal
  | nan
  | inf (neg : Bool)
  | fin (neg : Bool) (mant : Nat) (exp : Int)
  deriving DecidableEq, Repr

/-- The code of the greatest finite magnitude (R38). -/
def Fmt.maxCode (f : Fmt) : Nat := if f.inf then (2 ^ f.e - 1) * 2 ^ f.m - 1 else 2 ^ (f.e + f.m) - 2
/-- The code of +∞, or of NaN in a format without infinities (R38, R49). -/
def Fmt.infCode (f : Fmt) : Nat := if f.inf then (2 ^ f.e - 1) * 2 ^ f.m else 2 ^ (f.e + f.m) - 1
/-- The canonical NaN (R38, R39). -/
def Fmt.nanCode (f : Fmt) : Nat :=
  if f.inf then (2 ^ f.e - 1) * 2 ^ f.m + 2 ^ (f.m - 1) else 2 ^ (f.e + f.m) - 1
/-- The sign bit of a code. -/
def Fmt.signBit (f : Fmt) (neg : Bool) : Nat := if neg then 2 ^ (f.e + f.m) else 0

/-- The value a code stands for (R38). -/
def Fmt.decode (f : Fmt) (n : Nat) : FVal :=
  let neg := bitAt n (f.e + f.m)
  let c := n % 2 ^ (f.e + f.m)
  let ex := c / 2 ^ f.m
  let fr := c % 2 ^ f.m
  if f.inf && ex == 2 ^ f.e - 1 then (if fr == 0 then .inf neg else .nan)
  else if !f.inf && c == 2 ^ (f.e + f.m) - 1 then .nan
  else if ex == 0 then .fin neg fr (1 - (f.bias : Int) - f.m)
  else .fin neg (2 ^ f.m + fr) ((ex : Int) - f.bias - f.m)

/-- The code of an infinite result (R49). -/
def Fmt.infResult (f : Fmt) (sat neg : Bool) : Nat :=
  if sat then f.maxCode + f.signBit neg
  else if f.inf then f.infCode + f.signBit neg else f.nanCode

/-- Whether a mode rounds an inexact magnitude up, from the remainder's comparison with one half (R48). -/
def roundUpMag (rm : Rm) (neg odd : Bool) (half : Ordering) (inexact : Bool) : Bool :=
  match rm with
  | .rn => half == .gt || (half == .eq && odd)
  | .rz => false
  | .rd => neg && inexact
  | .ru => !neg && inexact

/-- The exact value ±(mant + δ) × 2^exp, 0 < δ < 1 when `sticky`, rounded once to the format (R48, R49, R40). A caller
that sets `sticky` gives a mantissa of more bits than the format holds. -/
def Fmt.round (f : Fmt) (rm : Rm) (sat neg : Bool) (mant : Nat) (exp : Int) (sticky : Bool) : Nat :=
  if mant == 0 && !sticky then f.signBit neg
  else
    let top : Int := exp + (Nat.log2 mant : Int)
    let q : Int := max top (1 - (f.bias : Int)) - f.m
    let sh : Int := q - exp
    let r : Nat :=
      if sh ≤ 0 then mant * 2 ^ (-sh).toNat
      else
        let k := sh.toNat
        let quo := mant / 2 ^ k
        let rem := mant % 2 ^ k
        let half := if 2 * rem == 2 ^ k then (if sticky then .gt else .eq) else compare (2 * rem) (2 ^ k)
        if roundUpMag rm neg (quo % 2 == 1) half (rem != 0 || sticky) then quo + 1 else quo
    let r2 := if r == 2 ^ (f.m + 1) then 2 ^ f.m else r
    let q2 : Int := if r == 2 ^ (f.m + 1) then q + 1 else q
    let code : Int := if r2 < 2 ^ f.m then (r2 : Int) else (q2 + f.m + f.bias) * (2 ^ f.m : Nat) + ((r2 : Int) - (2 ^ f.m : Nat))
    if code ≤ f.maxCode then code.toNat + f.signBit neg
    else
      let away := match rm with
        | .rn => true
        | .rz => false
        | .rd => neg
        | .ru => !neg
      if sat || !away then f.maxCode + f.signBit neg else f.infResult false neg

/-- A value written to a format (R49). -/
def Fmt.ofVal (f : Fmt) (rm : Rm) (sat : Bool) : FVal → Nat
  | .nan => f.nanCode
  | .inf neg => f.infResult sat neg
  | .fin neg m e => f.round rm sat neg m e false

/-- A signed mantissa. -/
def sgn (neg : Bool) (m : Nat) : Int := if neg then -(m : Int) else m

/-- The exact sum of two values; an exact zero of opposite signs is −0 only in rd (R40). -/
def FVal.add (rm : Rm) : FVal → FVal → FVal
  | .nan, _ => .nan
  | _, .nan => .nan
  | .inf s, .inf t => if s == t then .inf s else .nan
  | .inf s, _ => .inf s
  | _, .inf t => .inf t
  | .fin s m e, .fin t n g =>
    let q := min e g
    let r := sgn s (m * 2 ^ (e - q).toNat) + sgn t (n * 2 ^ (g - q).toNat)
    if r == 0 then .fin (if s == t then s else rm == .rd) 0 q else .fin (r < 0) r.natAbs q

/-- The exact product (R54). -/
def FVal.mul : FVal → FVal → FVal
  | .nan, _ => .nan
  | _, .nan => .nan
  | .inf s, .inf t => .inf (s != t)
  | .inf s, .fin t m _ => if m == 0 then .nan else .inf (s != t)
  | .fin s m _, .inf t => if m == 0 then .nan else .inf (s != t)
  | .fin s m e, .fin t n g => .fin (s != t) (m * n) (e + g)

/-- The negated value. -/
def FVal.neg : FVal → FVal
  | .nan => .nan
  | .inf s => .inf (!s)
  | .fin s m e => .fin (!s) m e

/-- Whether a value is NaN. -/
def FVal.isNan : FVal → Bool
  | .nan => true
  | _ => false

/-- The order of two values that are not NaN, −0 equal to +0. -/
def FVal.cmp : FVal → FVal → Ordering
  | .inf s, .inf t => if s == t then .eq else if s then .lt else .gt
  | .inf s, _ => if s then .lt else .gt
  | _, .inf t => if t then .gt else .lt
  | .fin s m e, .fin t n g =>
    let q := min e g
    compare (sgn s (m * 2 ^ (e - q).toNat)) (sgn t (n * 2 ^ (g - q).toNat))
  | _, _ => .eq

/-- An operation on FP32 codes. -/
def fadd (f : Fmt) (rm : Rm) (sat : Bool) (a b : Nat) : Nat := f.ofVal rm sat ((f.decode a).add rm (f.decode b))
/-- Difference (R121). -/
def fsub (f : Fmt) (rm : Rm) (sat : Bool) (a b : Nat) : Nat := f.ofVal rm sat ((f.decode a).add rm (f.decode b).neg)
/-- Product (R121). -/
def fmul (f : Fmt) (rm : Rm) (sat : Bool) (a b : Nat) : Nat := f.ofVal rm sat ((f.decode a).mul (f.decode b))
/-- a × b + c, rounded once (R121, R124). -/
def ffma (f : Fmt) (rm : Rm) (sat : Bool) (a b c : Nat) : Nat :=
  f.ofVal rm sat (((f.decode a).mul (f.decode b)).add rm (f.decode c))

/-- Monotone order of codes with −0 below +0 (R122, R177): the code's rank among all codes. -/
def fkey (f : Fmt) (n : Nat) : Int :=
  let c := n % 2 ^ (f.e + f.m)
  if bitAt n (f.e + f.m) then -(c : Int) - 1 else c

/-- FMIN and FMAX (R122). -/
def fminmax (f : Fmt) (isMax : Bool) (a b : Nat) : Nat :=
  match (f.decode a).isNan, (f.decode b).isNan with
  | true, true => f.nanCode
  | true, false => b
  | false, true => a
  | false, false => if (decide (fkey f a < fkey f b)) == isMax then b else a

/-- FCLASS of an FP32 code (R122). -/
def fclass (a : Nat) : Nat :=
  match fp32.decode a with
  | .nan => 256
  | .inf s => if s then 1 else 128
  | .fin s m _ =>
    if m == 0 then (if s then 8 else 16)
    else if m < 2 ^ 23 then (if s then 4 else 32) else (if s then 2 else 64)

/-- FCPYS (R122). -/
def fcpys (a b : Nat) : Nat :=
  if (fp32.decode a).isNan then fp32.nanCode else a % 2 ^ 31 + (if bitAt b 31 then 2 ^ 31 else 0)

/-- An exact value rounded to an integer (R50, R127). -/
def roundInt (rm : Rm) (neg : Bool) (m : Nat) (e : Int) : Int :=
  if 0 ≤ e then sgn neg (m * 2 ^ e.toNat)
  else
    let k := (-e).toNat
    let quo := m / 2 ^ k
    let rem := m % 2 ^ k
    sgn neg (if roundUpMag rm neg (quo % 2 == 1) (compare (2 * rem) (2 ^ k)) (rem != 0) then quo + 1 else quo)

/-- FRND (R127). -/
def frnd (rm : Rm) (a : Nat) : Nat :=
  match fp32.decode a with
  | .nan => fp32.nanCode
  | .inf s => fp32.infResult false s
  | .fin s m e => fp32.round .rn false s (roundInt rm s m e).natAbs 0 false

/-- An integer clamped to a type's range (R42, R50). -/
def clampInt (w : Nat) (signed : Bool) (e : Int) : Int :=
  let lo : Int := if signed then -((2 ^ (w - 1) : Nat) : Int) else 0
  let hi : Int := if signed then ((2 ^ (w - 1) : Nat) : Int) - 1 else ((2 ^ w : Nat) : Int) - 1
  if e < lo then lo else if hi < e then hi else e

/-- A quotient of positive numbers as mantissa, exponent and stickiness, with 80 bits. -/
def divVal (m : Nat) (e : Int) (n : Nat) (g : Int) : Nat × Int × Bool :=
  let k := 80 + Nat.log2 n + 1
  (m * 2 ^ k / n, e - g - k, m * 2 ^ k % n != 0)

/-- The quotient of two values rounded once to a format (R123, R251). -/
def fdivTo (src dst : Fmt) (rm : Rm) (sat : Bool) (a b : Nat) : Nat :=
  match src.decode a, src.decode b with
  | .nan, _ => dst.nanCode
  | _, .nan => dst.nanCode
  | .inf _, .inf _ => dst.nanCode
  | .inf s, .fin t _ _ => dst.infResult sat (s != t)
  | .fin s _ _, .inf t => dst.signBit (s != t)
  | .fin s m e, .fin t n g =>
    if n == 0 then (if m == 0 then dst.nanCode else dst.infResult sat (s != t))
    else if m == 0 then dst.signBit (s != t)
    else
      let r := divVal m e n g
      dst.round rm sat (s != t) r.1 r.2.1 r.2.2

/-- The integer square root, bit by bit. -/
def isqrt (n : Nat) : Nat :=
  (List.range (Nat.log2 n / 2 + 1)).foldr (fun i r => if (r + 2 ^ i) * (r + 2 ^ i) ≤ n then r + 2 ^ i else r) 0

/-- The square root of m × 2^e as mantissa, exponent and stickiness. -/
def sqrtVal (m : Nat) (e : Int) : Nat × Int × Bool :=
  let k : Nat := 160 + (if (e - 160) % 2 == 0 then 0 else 1)
  let n := m * 2 ^ k
  let r := isqrt n
  (r, (e - k) / 2, r * r != n)

/-- Fraction bits of the fixed-point series. -/
def fixP : Nat := 400

/-- atanh(n/d) and atan(n/d) as `p` fraction bits: x ± x³/3 + …; `alt` alternates the signs. -/
def atSeries (p : Nat) (alt : Bool) (n d : Nat) : Nat :=
  let x := n * 2 ^ p / d
  let go := (List.range (p / 2 + 1)).foldl
    (fun (acc : Int × Nat) k =>
      (if alt && k % 2 == 1 then acc.1 - (acc.2 / (2 * k + 1) : Nat) else acc.1 + (acc.2 / (2 * k + 1) : Nat),
        acc.2 * n * n / (d * d))) (0, x)
  go.1.toNat

/-- ln 2 in `p` fraction bits. -/
def ln2Fix (p : Nat) : Nat := 2 * atSeries p false 1 3
/-- π in `p` fraction bits (Machin). -/
def piFix (p : Nat) : Nat := 16 * atSeries p true 1 5 - 4 * atSeries p true 1 239

/-- exp(r) in `fixP` fraction bits, 0 ≤ r < 1. -/
def expFix (r : Nat) : Nat :=
  ((List.range 130).foldl (fun (acc : Nat × Nat) k => (acc.1 + acc.2, acc.2 * r / 2 ^ fixP / (k + 1))) (0, 2 ^ fixP)).1

/-- 2^(±m × 2^e) as mantissa, exponent and stickiness (R57, R123). -/
def exp2Val (neg : Bool) (m : Nat) (e : Int) : Nat × Int × Bool :=
  if m == 0 then (1, 0, false)
  else if 12 < e + (Nat.log2 m : Int) then (if neg then (2 ^ 80, -20000, true) else (2 ^ 80, 20000, true))
  else if 0 ≤ e then (1, sgn neg (m * 2 ^ e.toNat), false)
  else if e + (Nat.log2 m : Int) < -60 then (if neg then (2 ^ 100 - 1, -100, true) else (2 ^ 100, -100, true))
  else
    let k := (-e).toNat
    let full := sgn neg m
    let i := full / ((2 ^ k : Nat) : Int)
    let fr := (full % ((2 ^ k : Nat) : Int)).toNat
    if fr == 0 then (1, i, false)
    else
      let r := fr * ln2Fix fixP / 2 ^ k
      (expFix r, i - fixP, true)

/-- log2 of a positive m × 2^e that is not a power of two, as sign, mantissa, exponent (R123). -/
def log2Val (m : Nat) (e : Int) : Bool × Nat × Int :=
  let t : Nat := Nat.log2 m
  let num := m - 2 ^ t
  let den := m + 2 ^ t
  let l := 2 * atSeries fixP false num den * 2 ^ fixP / ln2Fix fixP
  let v : Int := (e + Int.ofNat t) * Int.ofNat (2 ^ fixP) + Int.ofNat l
  (decide (v < 0), v.natAbs, -(fixP : Int))

/-- sin or cos series of 0 ≤ r < 2 in `fixP` fraction bits. -/
def trigFix (isCos : Bool) (r : Nat) : Int :=
  let r2 := r * r / 2 ^ fixP
  let o := if isCos then 0 else 1
  ((List.range 70).foldl (fun (acc : Int × Nat) k =>
    (if k % 2 == 1 then acc.1 - acc.2 else acc.1 + acc.2, acc.2 * r2 / 2 ^ fixP / ((2 * k + 1 + o) * (2 * k + 2 + o))))
    (0, if isCos then 2 ^ fixP else r)).1

/-- sin or cos of a finite non-zero argument, as sign, mantissa, exponent (R123). -/
def trigVal (isCos neg : Bool) (m : Nat) (e : Int) : Bool × Nat × Int :=
  if e + (Nat.log2 m : Int) < -30 then
    if isCos then (false, 2 ^ 100 - 1, -100) else (neg, m * 2 ^ 100 - 1, e - 100)
  else
    let big := fixP + 200
    let x := if 0 ≤ e then m * 2 ^ (e.toNat + big) else m * 2 ^ big / 2 ^ (-e).toNat
    let hp := piFix big / 2
    let q := x / hp
    let r := (x % hp) / 2 ^ (big - fixP)
    let quad := (if isCos then q + 1 else q) % 4
    let useCos := quad % 2 == 1
    let v := trigFix useCos r
    let s := decide (2 ≤ quad) != (decide (v < 0))
    (if isCos then s else s != neg, v.natAbs, -(fixP : Int))

/-- tanh of a positive argument, as mantissa, exponent (R123). -/
def tanhVal (m : Nat) (e : Int) : Nat × Int :=
  let top := e + (Nat.log2 m : Int)
  if top < -30 then (m * 2 ^ 100 - 1, e - 100)
  else if 6 < top then (2 ^ 100 - 1, -100)
  else
    -- exp(-2x) = 2^(-2x / ln 2)
    let y := m * 2 ^ (fixP + 1) * 2 ^ fixP / ln2Fix fixP
    let t := exp2Val true y (e - fixP)
    let sh : Int := t.2.1 + fixP
    let ex := if 0 ≤ sh then t.1 * 2 ^ sh.toNat else t.1 / 2 ^ (-sh).toNat
    ((2 ^ fixP - ex) * 2 ^ fixP / (2 ^ fixP + ex), -(fixP : Int))

/-- 2^x of an FP32 code, correctly rounded to a format (R57, R123). -/
def exp2To (dst : Fmt) (rm : Rm) (sat : Bool) (a : Nat) : Nat :=
  match fp32.decode a with
  | .nan => dst.nanCode
  | .inf s => if s then 0 else dst.infResult sat false
  | .fin s m e =>
    let r := exp2Val s m e
    dst.round rm sat false r.1 r.2.1 r.2.2

/-- FRCP (R123). -/
def frcp (rm : Rm) (sat : Bool) (a : Nat) : Nat := fdivTo fp32 fp32 rm sat 0x3F800000 a

/-- FSQRT (R123). -/
def fsqrt (rm : Rm) (sat : Bool) (a : Nat) : Nat :=
  match fp32.decode a with
  | .nan => fp32.nanCode
  | .inf s => if s then fp32.nanCode else fp32.infResult sat false
  | .fin s m e =>
    if m == 0 then fp32.signBit s else if s then fp32.nanCode
    else
      let r := sqrtVal m e
      fp32.round rm sat false r.1 r.2.1 r.2.2

/-- FRSQ (R123): the reciprocal of the square root is the square root of the reciprocal. -/
def frsq (rm : Rm) (sat : Bool) (a : Nat) : Nat :=
  match fp32.decode a with
  | .nan => fp32.nanCode
  | .inf s => if s then fp32.nanCode else 0
  | .fin s m e =>
    if m == 0 then fp32.infResult sat s else if s then fp32.nanCode
    else
      let d := divVal 1 0 m e
      let r := sqrtVal (d.1 * 2 ^ 100) (d.2.1 - 100)
      fp32.round rm sat false r.1 r.2.1 (r.2.2 || d.2.2)

/-- FLOG2 (R123). -/
def flog2 (rm : Rm) (sat : Bool) (a : Nat) : Nat :=
  match fp32.decode a with
  | .nan => fp32.nanCode
  | .inf s => if s then fp32.nanCode else fp32.infResult sat false
  | .fin s m e =>
    if m == 0 then fp32.infResult sat true else if s then fp32.nanCode
    else if m == 2 ^ Nat.log2 m then
      let v : Int := e + Nat.log2 m
      fp32.round rm sat (decide (v < 0)) v.natAbs 0 false
    else
      let r := log2Val m e
      fp32.round rm sat r.1 r.2.1 r.2.2 true

/-- FSIN and FCOS (R123). -/
def ftrig (isCos : Bool) (rm : Rm) (sat : Bool) (a : Nat) : Nat :=
  match fp32.decode a with
  | .nan => fp32.nanCode
  | .inf _ => fp32.nanCode
  | .fin s m e =>
    if m == 0 then (if isCos then 0x3F800000 else fp32.signBit s)
    else
      let r := trigVal isCos s m e
      fp32.round rm sat r.1 r.2.1 r.2.2 true

/-- FTANH (R123). -/
def ftanh (rm : Rm) (sat : Bool) (a : Nat) : Nat :=
  match fp32.decode a with
  | .nan => fp32.nanCode
  | .inf s => 0x3F800000 + fp32.signBit s
  | .fin s m e =>
    if m == 0 then fp32.signBit s
    else
      let r := tanhVal m e
      fp32.round rm sat s r.1 r.2 true

/-- The floating-point format of a type code (R66). -/
def fmtOfTy : Nat → Option Fmt
  | 8 => some fp32
  | 9 => some fp16
  | 10 => some bf16
  | 11 => some e4m3
  | 12 => some e5m2
  | _ => none

/-- The width in bits of a type code (R66). -/
def tyWidth : Nat → Nat
  | 0 => 32 | 1 => 32 | 2 => 64 | 3 => 64 | 4 => 16 | 5 => 16 | 6 => 8 | 7 => 8 | 8 => 32 | 9 => 16 | 10 => 16 | _ => 8

/-- Whether an integer type code is signed (R66). -/
def tySigned (t : Nat) : Bool := t < 8 && t % 2 == 0

/-- The integer a register value stands for under an integer type (R109). -/
def intVal (ty n : Nat) : Int := if tySigned ty then toSigned (tyWidth ty) n else ((n % 2 ^ tyWidth ty : Nat) : Int)

/-- An integer result as a register value: reduced to the type's width, then extended to 32 bits (R109). -/
def regOfInt (ty : Nat) (e : Int) : Nat :=
  let w := tyWidth ty
  let r := ofInt w e
  if w < 32 && tySigned ty then ofInt 32 (toSigned w r) else r

/-- CVT's source type code (R125). -/
def cvtSrcTy : Nat → Nat
  | 4 => 8 | 5 => 9 | 6 => 10 | 7 => 11 | n => n

/-- CVT of one value (R50, R125); between two equal types the value is copied, an infinity too. -/
def cvtVal (dst src : Nat) (rm : Rm) (sat : Bool) (a : Nat) : Nat :=
  match fmtOfTy src, fmtOfTy dst with
  | none, none =>
    let e := intVal src a
    regOfInt dst (if sat then clampInt (tyWidth dst) (tySigned dst) e else e)
  | none, some g =>
    let e := intVal src a
    g.round rm sat (decide (e < 0)) e.natAbs 0 false
  | some f, none =>
    match f.decode a with
    | .nan => 0
    | .inf s => regOfInt dst (clampInt (tyWidth dst) (tySigned dst) (if s then -(2 ^ 70 : Int) else 2 ^ 70))
    | .fin s m e =>
      -- far out of range: clamp without forming the integer
      if 70 < e then (if m == 0 then 0 else regOfInt dst (clampInt (tyWidth dst) (tySigned dst) (sgn s (2 ^ 70))))
      else regOfInt dst (clampInt (tyWidth dst) (tySigned dst) (roundInt rm s m e))
  | some f, some g => g.ofVal rm (sat && src != dst) (f.decode a)

/-- The exact value of an E8M0 scale, `none` for NaN (R41): the exponent. -/
def scaleExp (c : Nat) : Option Int := if c % 256 == 255 then none else some ((c % 256 : Nat) - 127)

/-- A value times 2^k. -/
def FVal.scale (k : Int) : FVal → FVal
  | .fin s m e => .fin s m (e + k)
  | v => v

/-- The magnitude of an E2M1 code, doubled (R43). -/
def e2m1Mag2 : Nat → Nat
  | 0 => 0 | 1 => 1 | 2 => 2 | 3 => 3 | 4 => 4 | 5 => 6 | 6 => 8 | _ => 12

/-- The value of an XB4 element code under its block's scale and escape bytes (R43). -/
def xb4Val (code scale esc : Nat) : FVal :=
  match scaleExp scale with
  | none => .nan
  | some k =>
    if code % 16 == 8 then (e4m3.decode esc).scale k
    else .fin (bitAt code 3) (e2m1Mag2 (code % 8)) (k - 1)

/-- The value of an XB8 element under its scale (R44). -/
def xb8Val (f : Fmt) (code scale : Nat) : FVal :=
  match scaleExp scale with
  | none => .nan
  | some k => (f.decode code).scale k

/-- Least e from -127 to 127 that a test accepts, 127 if none (R51). -/
def leastExp (ok : Int → Bool) : Int :=
  match (List.range 255).find? (fun (i : Nat) => ok (Int.ofNat i - 127)) with
  | some i => Int.ofNat i - 127
  | none => 127

/-- The magnitude of a value as a comparison m × 2^e ≤ lim × 2^k. -/
def magLe (m : Nat) (e : Int) (lim : Nat) (k : Int) : Bool :=
  let q := min e k
  m * 2 ^ (e - q).toNat ≤ lim * 2 ^ (k - q).toNat

/-- An E2M1 code of a magnitude and a mode: the nearest of 0, ½, 1, 1½, 2, 3, 4, 6, saturated (R51). -/
def e2m1Round (rm : Rm) (neg : Bool) (m : Nat) (e : Int) : Nat :=
  -- the same encoding with one exponent bit more, saturated at code 7
  min ((⟨3, 1, 1, false⟩ : Fmt).round rm true neg m e false % 16) 7

/-- CVTQ of one 16-lane group (R51, R52): scale, escape and the 16 element codes. `t`: 0 XB4, 1 and 2 XB8. -/
def cvtqGroup (t : Nat) (esc : Bool) (rm : Rm) (xs : List Nat) : Nat × Nat × List Nat :=
  let vs := xs.map fp32.decode
  let bad := vs.any (fun v => match v with
    | .fin _ _ _ => false
    | _ => true)
  if bad then (0xFF, 0x80, xs.map (fun _ => 0))
  else
    let mg : Nat → Nat := fun x => x % 2 ^ 31
    let o := (List.range xs.length).foldl (fun best j => if mg (xs.getD best 0) < mg (xs.getD j 0) then j else best) 0
    let others := if esc then (List.range xs.length).filter (fun j => j != o) else List.range xs.length
    let a := others.foldl (fun best j => max best (mg (xs.getD j 0))) 0
    let lim := if t == 0 then 6 else if t == 1 then 448 else 57344
    let le (code lim : Nat) (k : Int) : Bool := match fp32.decode code with
      | .fin _ m e => magLe m e lim k
      | _ => false
    let e : Int := if a == 0 && !esc then -127
      else leastExp (fun k => le a lim k && (!esc || le (mg (xs.getD o 0)) 448 k))
    let code (j : Nat) : Nat :=
      match fp32.decode (xs.getD j 0) with
      | .fin s m g =>
        if t == 0 then
          if esc && j == o then 8
          else
            let c := e2m1Round rm s m (g - e)
            if c % 8 == 0 then (if s && !esc then 8 else 0) else c % 8 + (if s then 8 else 0)
        else (if t == 1 then e4m3 else e5m2).round rm true s m (g - e) false
      | _ => 0
    let escByte := if esc then
        match fp32.decode (xs.getD o 0) with
        | .fin s m g => e4m3.round rm true s m (g - e) false
        | _ => 0
      else 0x80
    ((e + 127).toNat, escByte, (List.range xs.length).map code)

end Sys2Proof.Machine
end

