-- ==== Sys2Proof/Config.lean ====
section
/-! DEFINITION. What an implementation fixes and the spec leaves open: every constant here is opaque, so nothing
can be proved of its value. Each is named in notes/assumptions. -/
namespace Sys2Proof.Config
open Sys2Proof

/-- The algorithms of the SPDM responder (R382). -/
inductive SpdmAlgo | ed25519 | sha512
  deriving DecidableEq, Repr

/-- What a response of the SPDM responder says (R382): its versions, its capabilities with its DataTransferSize, the algorithms
BaseAsymAlgo, BaseHashAlgo and MeasurementHashAlgo, or bytes (a digest, a certificate chain, a signature, measurements). -/
inductive SpdmContent
  | none
  | versions (l : List (Nat × Nat))
  | capabilities (cert chal meas signed : Bool) (size : Nat)
  | algorithms (asym hash meas : SpdmAlgo)
  | bytes (bs : List (BitVec 8))
  deriving DecidableEq, Repr

/-- The index `sel` that a lane without an item reads through an affine form (R21; log 8). -/
opaque noItemIndex : Nat → Nat → BitVec 64
/-- What a lane without a live item holds in a materialised register after a write under a full mask, by the time of
the write and the lane (R21; log 9). -/
opaque deadLane : Nat → Nat → BitVec 32
/-- The `n`-th random word of the security controller's generator (R376), `State.freeCtr` being the counter (log 3). -/
opaque randomWord : Nat → BitVec 32
/-- The counters of one power block at one reading: energy, clock and voltage, temperature (R383). -/
opaque powerReading : Nat → Nat → BitVec 96
/-- The key hash in fuses (R379). -/
opaque fuseKeyHash : Nat
/-- The fused minimum security version (R379). -/
opaque fuseMinSvn : Nat
/-- SHA-512 of the firmware's configuration, extended into ms3 (R380). -/
opaque fwConfigDigest : Nat → Nat
/-- Whether the firmware image (by its digest) names an adapter management-enabled (R363). -/
opaque mgmtEnabled : Nat → Nat → Bool
/-- Whether the firmware image names a host adapter secure (R371). -/
opaque adapterSecure : Nat → Nat → Bool
/-- The die the node chooses for a launch with DIE 0xF, by the launch's number (R271). -/
opaque dieChoice : Nat → Nat
/-- A die's enable record (R104), by the physical positions that are disabled; the spec gives no layout. -/
opaque enableRecord : List Nat → List (BitVec 8)
/-- Whether bytes of a node's physical memory lie in the save pool that the firmware reserves (R338, R363), by the firmware image. -/
opaque inSavePool : Nat → Nat → Nat → Bool
/-- The logical base that the loader chooses for the `n`-th load, among those that fit (R105). -/
opaque loaderBase : Nat → Nat
/-- The certificate chain of slot 0 (R382), by ms0. -/
opaque certificate : Nat → List (BitVec 8)
/-- The SPDM 1.2 message of a response kind, for a request, with the content that the spec gives it (R382); no message is longer than
240 bytes, so the responder sends at most that many of them. -/
opaque spdmEncode : Nat → List (BitVec 8) → SpdmContent → List (BitVec 8)
/-- The slot number of a GET_CERTIFICATE, CHALLENGE or signed GET_MEASUREMENTS message (R382). -/
opaque spdmSlot : List (BitVec 8) → Nat
/-- Whether a NEGOTIATE_ALGORITHMS message offers all three algorithms (R382). -/
opaque spdmOffers : List (BitVec 8) → Bool
/-- Whether a GET_MEASUREMENTS message asks for a signature (R382). -/
opaque spdmSigned : List (BitVec 8) → Bool
/-- The measurement index of a GET_MEASUREMENTS message (R382). -/
opaque spdmIndex : List (BitVec 8) → Nat
/-- The signature of a transcript hash under the leaf key of the fused secret and ms0 (R382). -/
opaque spdmSign : Nat → List (BitVec 8) → List (BitVec 8)

end Sys2Proof.Config
end

