-- ==== Sys2Proof/WellFormed.lean ====
section
/-! DEFINITION. The parts of an instruction word (R61), which fn values and fixed fields an encoding has (R63, R66,
R67, R85), and when an instruction is well formed: exactly when some words of the spec's encoding hold it. -/
namespace Sys2Proof

/-- The major opcode, bits 31:25 (R59). -/
def Word.maj (w : Word) : Nat := w.toNat / 2 ^ 25
/-- Bits 24:21: fn4, la4, fl4, cond4 or pred4 (R61). -/
def Word.fn (w : Word) : Nat := w.toNat / 2 ^ 21 % 16
/-- The d7 field (R61). -/
def Word.d7 (w : Word) : Nat := w.toNat / 2 ^ 14 % 128
/-- The a7 field (R61). -/
def Word.a7 (w : Word) : Nat := w.toNat / 2 ^ 7 % 128
/-- The b7 or imm7 field (R61). -/
def Word.b7 (w : Word) : Nat := w.toNat % 128
/-- The off21 or ext21 field (R61). -/
def Word.low21 (w : Word) : Nat := w.toNat % 2 ^ 21

/-- A word from its five fields (R61). -/
def mkWord (maj fn d a b : Nat) : Word := BitVec.ofNat 32 (maj * 2 ^ 25 + fn * 2 ^ 21 + d * 2 ^ 14 + a * 2 ^ 7 + b)
/-- A word of a format with a 21-bit field (R61). -/
def mkWord21 (maj fn off : Nat) : Word := BitVec.ofNat 32 (maj * 2 ^ 25 + fn * 2 ^ 21 + off)

/-- MODE of an EX (R80, R81). -/
def Ex.mode1 (x : Ex) : Bool := x.ext.toNat / 2 ^ 20 == 1
/-- TY of an EX, whichever MODE (R80, R81). -/
def Ex.ty (x : Ex) : Nat := if x.mode1 then x.ext.toNat / 2 ^ 16 % 16 else x.ext.toNat / 2 ^ 13 % 16
/-- The EX of an EX word (R61, R79). -/
def Ex.ofWord (w : Word) : Ex := ⟨w.fn / 8 == 1, BitVec.ofNat 3 w.fn, BitVec.ofNat 21 w.low21⟩
/-- The word of an EX (R61, R79). -/
def Ex.word (x : Ex) : Word := mkWord21 0x7F (b2n x.neg * 8 + x.p.toNat) x.ext.toNat

/-- TY of an optional EX, 0 without one (R79). -/
def exTy : Option Ex → Nat
  | none => 0
  | some x => x.ty
/-- MODE 1 of an optional EX (R79). -/
def exMode1 : Option Ex → Bool
  | none => false
  | some x => x.mode1

/-- The majors that hold instructions, EX apart (R84). -/
def majorAssigned (m : Nat) : Bool :=
  decide (m < 0x1A) || (decide (0x20 ≤ m) && decide (m < 0x37)) || (decide (0x38 ≤ m) && decide (m < 0x49)) ||
  (decide (0x4C ≤ m) && decide (m < 0x55)) || (decide (0x58 ≤ m) && decide (m < 0x66)) ||
  (decide (0x68 ≤ m) && decide (m < 0x7E))
/-- The majors of format BX (R85). -/
def isBx (m : Nat) : Bool := m == 0x4C || m == 0x4D || m == 0x70 || m == 0x71

/-- The fn values that an assigned major lists (R67, R85 and the instructions' entries). -/
def fnOk (maj fn : Nat) : Bool :=
  match maj with
  | 0x00 => true
  | 0x01 => true
  | 0x02 => true
  | 0x03 => fn == 0 || fn == 1 || fn == 2 || fn == 3 || fn == 8 || fn == 9 || fn == 10 || fn == 11
  | 0x04 => true
  | 0x05 => fn == 0 || fn == 1 || fn == 2 || fn == 3 || fn == 8 || fn == 9 || fn == 10 || fn == 11
  | 0x06 => fn == 0 || fn == 1 || fn == 2 || fn == 3 || fn == 8 || fn == 9 || fn == 10 || fn == 11
  | 0x07 => true
  | 0x08 => true
  | 0x09 => true
  | 0x0A => true
  | 0x0B => decide (fn < 4)
  | 0x0C => decide (fn < 4)
  | 0x0D => decide (fn < 4)
  | 0x0E => decide (fn < 4)
  | 0x0F => decide (fn < 4)
  | 0x10 => decide (fn < 4)
  | 0x11 => decide (fn < 4)
  | 0x12 => decide (fn < 4)
  | 0x13 => decide (fn < 4)
  | 0x14 => decide (fn < 4)
  | 0x15 => decide (fn < 4)
  | 0x16 => decide (fn < 4)
  | 0x17 => decide (fn < 4)
  | 0x18 => decide (fn < 2)
  | 0x19 => decide (fn < 1)
  | 0x20 => decide (fn < 8)
  | 0x21 => decide (fn < 8)
  | 0x22 => decide (fn < 8)
  | 0x23 => decide (fn < 8)
  | 0x24 => decide (fn < 1)
  | 0x25 => decide (fn < 1)
  | 0x26 => true
  | 0x27 => true
  | 0x28 => true
  | 0x29 => true
  | 0x2A => true
  | 0x2B => true
  | 0x2C => true
  | 0x2D => true
  | 0x2E => decide (fn < 1)
  | 0x2F => decide (fn < 1)
  | 0x30 => true
  | 0x31 => true
  | 0x32 => true
  | 0x33 => fn == 0 || fn == 8
  | 0x34 => decide (fn < 8)
  | 0x35 => true
  | 0x36 => decide (fn < 4)
  | 0x38 => decide (fn < 6)
  | 0x39 => decide (fn < 8)
  | 0x3A => decide (fn < 5)
  | 0x3B => decide (fn < 2)
  | 0x3C => true
  | 0x3D => decide (fn < 1)
  | 0x3E => decide (fn < 1)
  | 0x3F => decide (fn < 2)
  | 0x40 => true
  | 0x41 => true
  | 0x42 => true
  | 0x43 => true
  | 0x44 => true
  | 0x45 => true
  | 0x46 => true
  | 0x47 => true
  | 0x48 => true
  | 0x4C => true
  | 0x4D => true
  | 0x4E => decide (fn < 2)
  | 0x4F => decide (fn < 5)
  | 0x50 => decide (fn < 3)
  | 0x51 => decide (fn < 1)
  | 0x52 => decide (fn < 1)
  | 0x53 => true
  | 0x54 => decide (fn < 1)
  | 0x58 => true
  | 0x59 => true
  | 0x5A => true
  | 0x5B => true
  | 0x5C => true
  | 0x5D => true
  | 0x5E => true
  | 0x5F => true
  | 0x60 => true
  | 0x61 => true
  | 0x62 => true
  | 0x63 => true
  | 0x64 => true
  | 0x65 => true
  | 0x68 => true
  | 0x69 => true
  | 0x6A => true
  | 0x6B => true
  | 0x6C => true
  | 0x6D => true
  | 0x6E => true
  | 0x6F => true
  | 0x70 => true
  | 0x71 => true
  | 0x72 => decide (fn < 5)
  | 0x73 => decide (fn < 4)
  | 0x74 => decide (fn < 3)
  | 0x75 => decide (fn < 3)
  | 0x76 => true
  | 0x77 => decide (fn < 2)
  | 0x78 => true
  | 0x79 => true
  | 0x7A => true
  | 0x7B => true
  | 0x7C => decide (fn < 2)
  | 0x7D => decide (fn < 9)
  | _ => false

/-- The fixed contents of the fields d7, a7 and b7 or imm7 of the row that a major, an fn value and an EX member
select (R63); `none`: the field is not fixed. Under MODE 1 a b7 that holds immediate bits is still a field. -/
def fixedFields (maj fn mem : Nat) : Option Nat × Option Nat × Option Nat :=
  match maj with
  | 0x00 => (none, none, none)
  | 0x01 => (none, none, none)
  | 0x02 => (none, none, none)
  | 0x03 => (none, none, none)
  | 0x04 => (none, none, none)
  | 0x05 => (none, none, none)
  | 0x06 => (none, none, none)
  | 0x07 => (none, none, none)
  | 0x08 => (none, none, none)
  | 0x09 => (none, none, some 116)
  | 0x0A => (none, none, some 116)
  | 0x0B => (none, none, none)
  | 0x0C => (none, none, none)
  | 0x0D => (none, none, none)
  | 0x0E => (none, none, none)
  | 0x0F => (none, none, none)
  | 0x10 => (none, none, none)
  | 0x11 => (none, none, none)
  | 0x12 => (none, none, none)
  | 0x13 => (none, none, some 116)
  | 0x14 => (none, none, some 116)
  | 0x15 => (none, none, some 116)
  | 0x16 => (none, none, none)
  | 0x17 => (none, none, none)
  | 0x18 => (none, none, none)
  | 0x19 => (none, none, none)
  | 0x20 => (none, none, none)
  | 0x21 => (none, none, none)
  | 0x22 => (none, none, none)
  | 0x23 => (none, none, none)
  | 0x24 => (none, none, none)
  | 0x25 => (none, none, none)
  | 0x26 => (none, none, some 116)
  | 0x27 => (none, none, some 116)
  | 0x28 => (none, none, some 116)
  | 0x29 => (none, none, some 116)
  | 0x2A => (none, none, some 116)
  | 0x2B => (none, none, some 116)
  | 0x2C => (none, none, some 116)
  | 0x2D => (none, none, some 116)
  | 0x2E => (none, none, some 116)
  | 0x2F => (none, none, none)
  | 0x30 => (none, none, none)
  | 0x31 => (none, none, none)
  | 0x32 => (none, none, none)
  | 0x33 => (none, none, none)
  | 0x34 => (none, none, none)
  | 0x35 => (none, none, none)
  | 0x36 => (none, none, some 116)
  | 0x38 => (none, none, none)
  | 0x39 => (none, none, none)
  | 0x3A => (none, none, none)
  | 0x3B => if fn == 0 then (none, some 116, some 116) else (some 116, none, some 116)
  | 0x3C => (none, none, none)
  | 0x3D => (none, none, some 116)
  | 0x3E => (none, none, none)
  | 0x3F => if fn == 0 then (none, some 116, none) else (none, some 116, none)
  | 0x40 => (none, none, none)
  | 0x41 => (none, none, none)
  | 0x42 => (none, none, some 116)
  | 0x43 => (none, none, none)
  | 0x44 => (none, none, some 116)
  | 0x45 => (none, none, none)
  | 0x46 => (none, none, none)
  | 0x47 => (none, none, none)
  | 0x48 => (none, none, some 116)
  | 0x4C => (none, none, none)
  | 0x4D => (none, none, none)
  | 0x4E => if fn == 0 then (some 116, none, some 116) else (some 116, none, some 116)
  | 0x4F => if fn == 0 then (some 116, some 116, some 116) else if fn == 1 then (some 116, some 116, some 116) else if fn == 2 then (some 116, some 116, some 116) else if fn == 3 then (some 116, some 116, some 116) else (some 116, some 116, none)
  | 0x50 => if fn == 0 then (none, none, some 116) else if fn == 1 then (some 116, none, some 116) else (none, none, some 116)
  | 0x51 => (some 116, some 116, none)
  | 0x52 => (some 116, none, none)
  | 0x53 => (none, none, none)
  | 0x54 => (none, none, none)
  | 0x58 => (none, none, none)
  | 0x59 => (none, none, none)
  | 0x5A => (none, none, none)
  | 0x5B => (none, none, none)
  | 0x5C => (none, none, none)
  | 0x5D => (none, none, none)
  | 0x5E => (none, none, none)
  | 0x5F => (none, none, none)
  | 0x60 => (none, none, none)
  | 0x61 => (none, none, none)
  | 0x62 => (none, none, none)
  | 0x63 => (none, none, none)
  | 0x64 => (none, some 116, some 116)
  | 0x65 => (some 116, none, none)
  | 0x68 => (none, none, none)
  | 0x69 => (none, none, none)
  | 0x6A => (none, none, none)
  | 0x6B => (some 116, none, none)
  | 0x6C => (none, none, some 116)
  | 0x6D => (none, none, none)
  | 0x6E => (none, none, some 116)
  | 0x6F => (none, none, none)
  | 0x70 => (none, none, none)
  | 0x71 => (none, none, none)
  | 0x72 => if fn == 0 then (some 116, some 116, some 116) else if fn == 1 then (some 116, some 116, some 116) else if fn == 2 then (some 116, some 116, some 116) else if fn == 3 then (some 116, some 116, some 116) else (none, some 116, some 116)
  | 0x73 => if fn == 0 then (none, none, some 116) else if fn == 1 then (none, none, some 116) else if fn == 2 then (some 116, some 116, some 116) else (none, none, some 116)
  | 0x74 => if fn == 0 then (some 116, none, none) else if fn == 1 then (some 116, none, none) else (some 116, none, none)
  | 0x75 => if fn == 0 then (some 116, none, none) else if fn == 1 then (some 116, none, none) else (none, none, none)
  | 0x76 => (none, none, none)
  | 0x77 => if fn == 0 then (some 116, none, none) else (none, none, none)
  | 0x78 => if mem == 0 then (none, none, none) else if mem == 1 then (none, none, none) else if mem == 2 then (none, none, none) else (none, none, none)
  | 0x79 => if mem == 0 then (none, none, some 116) else if mem == 1 then (none, none, some 116) else (none, none, some 116)
  | 0x7A => if mem == 0 then (none, none, none) else if mem == 1 then (none, none, some 116) else (none, none, some 116)
  | 0x7B => if mem == 0 then (none, none, none) else if mem == 1 then (none, none, some 116) else if mem == 2 then (none, none, some 116) else (none, none, some 116)
  | 0x7C => if fn == 0 then (none, some 116, none) else (none, some 116, none)
  | 0x7D => if fn == 0 then (none, some 116, none) else if fn == 1 then (some 116, none, none) else if fn == 2 then (some 116, some 116, some 0) else if fn == 3 then (some 116, some 116, none) else if fn == 4 then (some 116, some 116, none) else if fn == 5 then (some 116, some 116, none) else if fn == 6 then (some 116, some 116, none) else if fn == 7 then (some 116, none, none) else if fn == 8 then (none, some 116, some 0) else (none, none, none)
  | _ => (none, none, none)

/-- A field agrees with its fixed contents, if it has any. -/
def fieldOk (r : Option Nat) (v : Nat) : Bool :=
  match r with
  | none => true
  | some k => k == v

/-- The members that a command family defines (R78, R85). -/
def memberOk (maj mem : Nat) : Bool :=
  match maj with
  | 0x78 => decide (mem < 4)
  | 0x79 => decide (mem < 3)
  | 0x7A => decide (mem < 3)
  | 0x7B => decide (mem < 4)
  | _ => true

/-- Whether a major is an engine command family, format CX (R85). -/
def isCx (m : Nat) : Bool := decide (0x78 ≤ m) && decide (m < 0x7C)

/-- The fixed fields of a word with its EX hold what the encoding says (R63, R65, R78, R83). -/
def fixedOk (x : Option Ex) (w : Word) : Bool :=
  if isBx w.maj then w.maj == 0x4C || w.maj == 0x4D || w.fn == 0
  else
    let r := fixedFields w.maj w.fn (exTy x)
    (!isCx w.maj || (memberOk w.maj (exTy x) && !exMode1 x)) &&
      fieldOk r.1 w.d7 && fieldOk r.2.1 w.a7 && fieldOk r.2.2 w.b7

/-- Well-formedness: the fields hold values of the constructor's own row, so that the encoder writes words which the
decoder reads back as this instruction. Events are always well formed: they have no words. -/
def Instr.wf : Instr → Bool
  | .iadd _ _ _ _ _ _ => true
  | .isub _ _ _ _ _ _ => true
  | .imul _ _ _ _ _ _ => true
  | .imulh _ _ t _ _ _ => decide (t.code < 4)
  | .imad _ _ _ _ _ _ => true
  | .iaddc _ _ t _ _ _ => decide (t.code < 4)
  | .isubb _ _ t _ _ _ => decide (t.code < 4)
  | .imin _ _ _ _ _ _ => true
  | .imax _ _ _ _ _ _ => true
  | .iabs _ _ _ _ _ => true
  | .ineg _ _ _ _ _ => true
  | .and _ s t _ _ _ => decide (t.code < 4) && !s
  | .or _ s t _ _ _ => decide (t.code < 4) && !s
  | .xor _ s t _ _ _ => decide (t.code < 4) && !s
  | .andn _ s t _ _ _ => decide (t.code < 4) && !s
  | .shl _ s t _ _ _ => decide (t.code < 4) && !s
  | .shr _ s t _ _ _ => decide (t.code < 4) && !s
  | .sar _ s t _ _ _ => decide (t.code < 4) && !s
  | .rol _ s t _ _ _ => decide (t.code < 4) && !s
  | .popc _ s t _ _ => decide (t.code < 4) && !s
  | .clz _ s t _ _ => decide (t.code < 4) && !s
  | .brev _ s t _ _ => decide (t.code < 4) && !s
  | .bfx _ s t _ _ _ => decide (t.code < 4) && !s
  | .bfi _ s t _ _ _ => decide (t.code < 4) && !s
  | .lea _ s t _ _ _ => decide (t.code < 2) && !s
  | .bpick _ s t _ _ _ => decide (t.code < 1) && !s
  | .fadd _ _ _ _ _ _ => true
  | .fsub _ _ _ _ _ _ => true
  | .fmul _ _ _ _ _ _ => true
  | .ffma _ _ _ _ _ _ => true
  | .fmin _ _ _ _ => true
  | .fmax _ _ _ _ => true
  | .frcp _ _ _ _ => true
  | .frsq _ _ _ _ => true
  | .fsqrt _ _ _ _ => true
  | .fexp2 _ _ _ _ => true
  | .flog2 _ _ _ _ => true
  | .fsin _ _ _ _ => true
  | .fcos _ _ _ _ => true
  | .ftanh _ _ _ _ => true
  | .fclass _ _ _ => true
  | .fcpys _ _ _ _ => true
  | .hadd2 _ _ _ _ _ _ _ => true
  | .hmul2 _ _ _ _ _ _ _ => true
  | .hfma2 _ _ _ _ _ _ _ => true
  | .hmax2 _ _ _ _ _ => true
  | .cvt _ _ _ _ _ _ _ => true
  | .cvtq _ _ _ _ _ _ _ => true
  | .frnd _ _ _ _ => true
  | .icmp _ _ _ _ _ => true
  | .fcmp _ _ _ _ _ => true
  | .pset _ _ _ _ _ => true
  | .pmovGet _ _ => true
  | .pmovSet _ _ => true
  | .sel _ _ _ _ _ _ => true
  | .mov _ _ _ => true
  | .movk _ _ _ _ => true
  | .ldi _ _ _ => true
  | .ldiHi _ _ _ => true
  | .shfl _ _ _ _ _ => true
  | .shflx _ _ _ _ _ => true
  | .vote _ _ _ _ => true
  | .redux _ _ _ _ _ => true
  | .scan _ _ _ _ => true
  | .rbal _ _ _ _ _ => true
  | .bin _ _ _ _ _ => true
  | .mrg _ _ _ _ _ => true
  | .sortk _ _ _ _ => true
  | .bra _ _ => true
  | .call _ _ => true
  | .brx _ _ => true
  | .ret _ _ => true
  | .nop _ => true
  | .join _ => true
  | .exit _ => true
  | .yield _ => true
  | .trap _ _ => true
  | .form _ _ _ => true
  | .matl _ _ => true
  | .unif _ _ _ => true
  | .wbase _ _ => true
  | .wquota _ _ _ => true
  | .work _ _ _ _ _ => true
  | .idx _ _ _ _ => true
  | .ldg _ _ _ _ _ => true
  | .stg _ _ _ _ _ => true
  | .lds _ _ _ _ _ => true
  | .sts _ _ _ _ _ => true
  | .ldc _ _ _ _ _ => true
  | .stc _ _ _ _ _ => true
  | .ldt _ _ _ _ _ => true
  | .stt _ _ _ _ _ => true
  | .ldu _ _ _ _ _ => true
  | .lda _ _ _ _ _ => true
  | .sta _ _ _ _ _ => true
  | .stw _ _ _ _ _ => true
  | .stwb _ _ _ => true
  | .pref _ _ _ _ => true
  | .atomg _ _ _ _ _ => true
  | .atoms _ _ _ _ _ => true
  | .atomc _ _ _ _ _ => true
  | .redg _ _ _ _ => true
  | .rgrsv _ _ _ _ => true
  | .rgpub _ _ _ _ _ => true
  | .rgtake _ _ _ _ => true
  | .rgfree _ _ _ _ _ => true
  | .txbegin _ => true
  | .orelse _ => true
  | .txend _ => true
  | .retry _ => true
  | .orend _ => true
  | .txabort _ => true
  | .txstat _ _ => true
  | .acq _ _ _ => true
  | .rel _ _ _ => true
  | .fence _ => true
  | .arrive _ _ _ => true
  | .bind _ _ _ => true
  | .barinit _ _ _ => true
  | .rgdef _ _ _ => true
  | .rkinit _ _ _ => true
  | .rkthr _ _ _ => true
  | .pthr _ _ _ _ => true
  | .rkpush _ _ _ _ _ => true
  | .rkmerge _ _ _ => true
  | .rkread _ _ _ _ => true
  | .copy x _ _ _ _ => exTy x == 0 && !exMode1 x
  | .copyx x _ _ _ _ => x.ty == 1 && !x.mode1
  | .gath x _ _ _ _ => x.ty == 2 && !x.mode1
  | .scatx x _ _ _ _ => x.ty == 3 && !x.mode1
  | .mma x _ _ _ => exTy x == 0 && !exMode1 x
  | .mmab x _ _ _ => x.ty == 1 && !x.mode1
  | .mmas x _ _ _ => x.ty == 2 && !x.mode1
  | .attn x _ _ _ _ => exTy x == 0 && !exMode1 x
  | .attnfin x _ _ _ => x.ty == 1 && !x.mode1
  | .fold x _ _ _ => x.ty == 2 && !x.mode1
  | .disp x _ _ _ _ => exTy x == 0 && !exMode1 x
  | .axedit x _ _ _ => x.ty == 1 && !x.mode1
  | .axsync x _ _ _ => x.ty == 2 && !x.mode1
  | .launch x _ _ _ => x.ty == 3 && !x.mode1
  | .waitf _ _ _ => true
  | .qfence _ _ _ => true
  | .csrr _ _ _ => true
  | .csrw _ _ i => i.toNat != 3 && i.toNat != 4
  | .csrwSstat _ _ => true
  | .csrwBnd _ _ => true
  | .tret _ => true
  | .replay _ _ => true
  | .rqdrop _ _ => true
  | .halt _ _ => true
  | .bkpt _ _ => true
  | .version _ _ => true
  | .regionSet _ _ => true
  | .regionGet _ _ => true
  | .sfdomSet _ _ => true
  | .measure _ _ => true
  | .extend _ _ => true
  | .random _ _ => true
  | .powerRead _ _ => true
  | .time _ _ => true
  | .unassignedMajor w => !majorAssigned w.maj && w.maj != 0x7F
  | .lxComplete _ _ => true
  | .launchTake _ _ => true
  | .teamPlacement _ => true
  | .deficitPreempt _ _ _ => true
  | .forceprePreempt _ => true
  | .waveBoost _ => true
  | .yieldExpiry _ => true
  | .fallbackRotation _ => true
  | .waitingBudgetExpiry _ _ => true
  | .engineCommandStart _ => true
  | .engineCommandComplete _ => true
  | .shootDown _ => true
  | .shootDownAcknowledge _ => true
  | .faultRecord _ _ => true
  | .remoteAccess _ => true
  | .fabricStreamFail _ => true
  | .packetLifetimeExpiry _ => true
  | .hwBarrierArrival _ => true
  | .hwBarrierRelease _ => true
  | .sendQueueTimeout _ _ _ => true
  | .dispatchPacketReceive _ => true
  | .deliveryRetry _ => true
  | .generationRetireWait _ => true
  | .gangSliceBoundary _ => true
  | .gangBarrierArrival _ _ => true
  | .gangAbort => true
  | .gangDecision _ => true
  | .peerSet _ _ _ _ => true
  | .fdomSet _ _ _ => true
  | .routeSet _ _ _ _ => true
  | .gangSched _ _ => true
  | .queueReset _ _ => true
  | .waveResume _ _ => true
  | .waveEnd _ _ => true
  | .ctxResume _ _ => true
  | .ctxDestroy _ _ => true
  | .debugStop _ _ => true
  | .debugRead _ _ => true
  | .debugWrite _ _ _ => true
  | .debugResume _ _ => true
  | .counters _ => true
  | .enable _ => true
  | .mem _ _ _ _ => true
  | .getVersion _ _ => true
  | .getCapabilities _ _ => true
  | .negotiateAlgorithms _ _ => true
  | .getDigests _ _ => true
  | .getCertificate _ _ => true
  | .challenge _ _ => true
  | .getMeasurements _ _ => true
  | .deviceReset _ => true
  | .loaderPlace _ => true
  | .wakeWithoutCause _ => true
  | .reservedFnValue x w => majorAssigned w.maj && !fnOk w.maj w.fn && (x.isNone || !isBx w.maj)
  | .reservedOperandValue x w => majorAssigned w.maj && fnOk w.maj w.fn && !fixedOk x w && (x.isNone || !isBx w.maj)
  | .exMisuse w n => w.maj == 0x7F && (n.maj == 0x7F || isBx n.maj || !majorAssigned n.maj)
  | .swcUnknownService _ _ n => decide (8 ≤ n.toNat)
  | .unknownManagementCode _ _ => true
  | .unsupportedRequest _ _ => true

end Sys2Proof
end

