-- ==== Sys2Proof/Decode.lean ====
section
/-! DEFINITION. The decoder, total on any bytes (R59 to R87): bytes to an instruction or a refusal, and the encoder
written from the same encoding tables. -/
namespace Sys2Proof

/-- The instruction of a word whose major is assigned, whose fn value is listed and whose fixed fields hold. -/
def decodeRow (x : Option Ex) (w : Word) : Instr :=
  let fn := w.fn
  let d : R7 := BitVec.ofNat 7 w.d7
  let a : R7 := BitVec.ofNat 7 w.a7
  let b : R7 := BitVec.ofNat 7 w.b7
  match w.maj with
  | 0x00 => .iadd x (fn / 8 % 2 == 1) (.ofCode (fn % 8)) d a b
  | 0x01 => .isub x (fn / 8 % 2 == 1) (.ofCode (fn % 8)) d a b
  | 0x02 => .imul x (fn / 8 % 2 == 1) (.ofCode (fn % 8)) d a b
  | 0x03 => .imulh x (fn / 8 % 2 == 1) (.ofCode (fn % 8)) d a b
  | 0x04 => .imad x (fn / 8 % 2 == 1) (.ofCode (fn % 8)) d a b
  | 0x05 => .iaddc x (fn / 8 % 2 == 1) (.ofCode (fn % 8)) d a b
  | 0x06 => .isubb x (fn / 8 % 2 == 1) (.ofCode (fn % 8)) d a b
  | 0x07 => .imin x (fn / 8 % 2 == 1) (.ofCode (fn % 8)) d a b
  | 0x08 => .imax x (fn / 8 % 2 == 1) (.ofCode (fn % 8)) d a b
  | 0x09 => .iabs x (fn / 8 % 2 == 1) (.ofCode (fn % 8)) d a
  | 0x0A => .ineg x (fn / 8 % 2 == 1) (.ofCode (fn % 8)) d a
  | 0x0B => .and x (fn / 8 % 2 == 1) (.ofCode (fn % 8)) d a b
  | 0x0C => .or x (fn / 8 % 2 == 1) (.ofCode (fn % 8)) d a b
  | 0x0D => .xor x (fn / 8 % 2 == 1) (.ofCode (fn % 8)) d a b
  | 0x0E => .andn x (fn / 8 % 2 == 1) (.ofCode (fn % 8)) d a b
  | 0x0F => .shl x (fn / 8 % 2 == 1) (.ofCode (fn % 8)) d a b
  | 0x10 => .shr x (fn / 8 % 2 == 1) (.ofCode (fn % 8)) d a b
  | 0x11 => .sar x (fn / 8 % 2 == 1) (.ofCode (fn % 8)) d a b
  | 0x12 => .rol x (fn / 8 % 2 == 1) (.ofCode (fn % 8)) d a b
  | 0x13 => .popc x (fn / 8 % 2 == 1) (.ofCode (fn % 8)) d a
  | 0x14 => .clz x (fn / 8 % 2 == 1) (.ofCode (fn % 8)) d a
  | 0x15 => .brev x (fn / 8 % 2 == 1) (.ofCode (fn % 8)) d a
  | 0x16 => .bfx x (fn / 8 % 2 == 1) (.ofCode (fn % 8)) d a b
  | 0x17 => .bfi x (fn / 8 % 2 == 1) (.ofCode (fn % 8)) d a b
  | 0x18 => .lea x (fn / 8 % 2 == 1) (.ofCode (fn % 8)) d a b
  | 0x19 => .bpick x (fn / 8 % 2 == 1) (.ofCode (fn % 8)) d a b
  | 0x20 => .fadd x (fn / 4 % 2 == 1) (.ofCode (fn % 4)) d a b
  | 0x21 => .fsub x (fn / 4 % 2 == 1) (.ofCode (fn % 4)) d a b
  | 0x22 => .fmul x (fn / 4 % 2 == 1) (.ofCode (fn % 4)) d a b
  | 0x23 => .ffma x (fn / 4 % 2 == 1) (.ofCode (fn % 4)) d a b
  | 0x24 => .fmin x d a b
  | 0x25 => .fmax x d a b
  | 0x26 => .frcp x (BitVec.ofNat 4 (fn)) d a
  | 0x27 => .frsq x (BitVec.ofNat 4 (fn)) d a
  | 0x28 => .fsqrt x (BitVec.ofNat 4 (fn)) d a
  | 0x29 => .fexp2 x (BitVec.ofNat 4 (fn)) d a
  | 0x2A => .flog2 x (BitVec.ofNat 4 (fn)) d a
  | 0x2B => .fsin x (BitVec.ofNat 4 (fn)) d a
  | 0x2C => .fcos x (BitVec.ofNat 4 (fn)) d a
  | 0x2D => .ftanh x (BitVec.ofNat 4 (fn)) d a
  | 0x2E => .fclass x d a
  | 0x2F => .fcpys x d a b
  | 0x30 => .hadd2 x (fn / 8 % 2 == 1) (fn / 4 % 2 == 1) (.ofCode (fn % 4)) d a b
  | 0x31 => .hmul2 x (fn / 8 % 2 == 1) (fn / 4 % 2 == 1) (.ofCode (fn % 4)) d a b
  | 0x32 => .hfma2 x (fn / 8 % 2 == 1) (fn / 4 % 2 == 1) (.ofCode (fn % 4)) d a b
  | 0x33 => .hmax2 x (fn / 8 % 2 == 1) d a b
  | 0x34 => .cvt x (fn / 4 % 2 == 1) (.ofCode (fn % 4)) d a (BitVec.ofNat 4 (w.b7 / 8)) (BitVec.ofNat 3 (w.b7 % 8))
  | 0x35 => .cvtq x (fn / 8 % 2 == 1) (fn / 4 % 2 == 1) (.ofCode (fn % 4)) d a b
  | 0x36 => .frnd x (.ofCode (fn % 4)) d a
  | 0x38 => .icmp x (.ofCode (fn)) d a b
  | 0x39 => .fcmp x (.ofCode (fn)) d a b
  | 0x3A => .pset x (.ofCode (fn)) d a b
  | 0x3B => if fn == 0 then .pmovGet x d else .pmovSet x a
  | 0x3C => .sel x (fn / 8 % 2 == 1) (BitVec.ofNat 3 (fn % 8)) d a b
  | 0x3D => .mov x d a
  | 0x3E => .movk x d a b
  | 0x3F => if fn == 0 then .ldi x d b else .ldiHi x d b
  | 0x40 => .shfl x (BitVec.ofNat 4 (fn)) d a b
  | 0x41 => .shflx x (BitVec.ofNat 4 (fn)) d a b
  | 0x42 => .vote x (BitVec.ofNat 4 (fn)) d a
  | 0x43 => .redux x (BitVec.ofNat 4 (fn)) d a b
  | 0x44 => .scan x (BitVec.ofNat 4 (fn)) d a
  | 0x45 => .rbal x (BitVec.ofNat 4 (fn)) d a b
  | 0x46 => .bin x (BitVec.ofNat 4 (fn)) d a b
  | 0x47 => .mrg x (BitVec.ofNat 4 (fn)) d a b
  | 0x48 => .sortk x (BitVec.ofNat 4 (fn)) d a
  | 0x4C => .bra (BitVec.ofNat 4 (fn)) (BitVec.ofNat 21 w.low21)
  | 0x4D => .call (BitVec.ofNat 4 (fn)) (BitVec.ofNat 21 w.low21)
  | 0x4E => if fn == 0 then .brx x a else .ret x a
  | 0x4F => if fn == 0 then .nop x else if fn == 1 then .join x else if fn == 2 then .exit x else if fn == 3 then .yield x else .trap x b
  | 0x50 => if fn == 0 then .form x d a else if fn == 1 then .matl x a else .unif x d a
  | 0x51 => .wbase x b
  | 0x52 => .wquota x a b
  | 0x53 => .work x (BitVec.ofNat 4 (fn)) d a b
  | 0x54 => .idx x d a b
  | 0x58 => .ldg x (BitVec.ofNat 4 (fn)) d a b
  | 0x59 => .stg x (BitVec.ofNat 4 (fn)) d a b
  | 0x5A => .lds x (BitVec.ofNat 4 (fn)) d a b
  | 0x5B => .sts x (BitVec.ofNat 4 (fn)) d a b
  | 0x5C => .ldc x (BitVec.ofNat 4 (fn)) d a b
  | 0x5D => .stc x (BitVec.ofNat 4 (fn)) d a b
  | 0x5E => .ldt x (BitVec.ofNat 4 (fn)) d a b
  | 0x5F => .stt x (BitVec.ofNat 4 (fn)) d a b
  | 0x60 => .ldu x (BitVec.ofNat 4 (fn)) d a b
  | 0x61 => .lda x (BitVec.ofNat 4 (fn)) d a b
  | 0x62 => .sta x (BitVec.ofNat 4 (fn)) d a b
  | 0x63 => .stw x (BitVec.ofNat 4 (fn)) d a b
  | 0x64 => .stwb x (BitVec.ofNat 4 (fn)) d
  | 0x65 => .pref x (BitVec.ofNat 4 (fn)) a b
  | 0x68 => .atomg x (BitVec.ofNat 4 (fn)) d a b
  | 0x69 => .atoms x (BitVec.ofNat 4 (fn)) d a b
  | 0x6A => .atomc x (BitVec.ofNat 4 (fn)) d a b
  | 0x6B => .redg x (BitVec.ofNat 4 (fn)) a b
  | 0x6C => .rgrsv x (BitVec.ofNat 4 (fn)) d a
  | 0x6D => .rgpub x (BitVec.ofNat 4 (fn)) d a b
  | 0x6E => .rgtake x (BitVec.ofNat 4 (fn)) d a
  | 0x6F => .rgfree x (BitVec.ofNat 4 (fn)) d a b
  | 0x70 => .txbegin (BitVec.ofNat 21 w.low21)
  | 0x71 => .orelse (BitVec.ofNat 21 w.low21)
  | 0x72 => if fn == 0 then .txend x else if fn == 1 then .retry x else if fn == 2 then .orend x else if fn == 3 then .txabort x else .txstat x d
  | 0x73 => if fn == 0 then .acq x d a else if fn == 1 then .rel x d a else if fn == 2 then .fence x else .arrive x d a
  | 0x74 => if fn == 0 then .bind x a b else if fn == 1 then .barinit x a b else .rgdef x a b
  | 0x75 => if fn == 0 then .rkinit x a b else if fn == 1 then .rkthr x a b else .pthr x d a b
  | 0x76 => .rkpush x (BitVec.ofNat 4 (fn)) d a b
  | 0x77 => if fn == 0 then .rkmerge x a b else .rkread x d a b
  | 0x78 =>
    match x with
    | none => .copy x (BitVec.ofNat 4 (fn)) d a b
    | some e =>
      if e.ty == 1 then .copyx e (BitVec.ofNat 4 (fn)) d a b else if e.ty == 2 then .gath e (BitVec.ofNat 4 (fn)) d a b else if e.ty == 3 then .scatx e (BitVec.ofNat 4 (fn)) d a b else .copy x (BitVec.ofNat 4 (fn)) d a b
  | 0x79 =>
    match x with
    | none => .mma x (BitVec.ofNat 4 (fn)) d a
    | some e =>
      if e.ty == 1 then .mmab e (BitVec.ofNat 4 (fn)) d a else if e.ty == 2 then .mmas e (BitVec.ofNat 4 (fn)) d a else .mma x (BitVec.ofNat 4 (fn)) d a
  | 0x7A =>
    match x with
    | none => .attn x (BitVec.ofNat 4 (fn)) d a b
    | some e =>
      if e.ty == 1 then .attnfin e (BitVec.ofNat 4 (fn)) d a else if e.ty == 2 then .fold e (BitVec.ofNat 4 (fn)) d a else .attn x (BitVec.ofNat 4 (fn)) d a b
  | 0x7B =>
    match x with
    | none => .disp x (BitVec.ofNat 4 (fn)) d a b
    | some e =>
      if e.ty == 1 then .axedit e (BitVec.ofNat 4 (fn)) d a else if e.ty == 2 then .axsync e (BitVec.ofNat 4 (fn)) d a else if e.ty == 3 then .launch e (BitVec.ofNat 4 (fn)) d a else .disp x (BitVec.ofNat 4 (fn)) d a b
  | 0x7C => if fn == 0 then .waitf x d b else .qfence x d b
  | 0x7D =>
    if fn == 0 then .csrr x d b else
    if fn == 1 then (if w.b7 == 3 then .csrwSstat x a else if w.b7 == 4 then .csrwBnd x a else .csrw x a b) else
    if fn == 2 then .tret x else
    if fn == 3 then .replay x b else
    if fn == 4 then .rqdrop x b else
    if fn == 5 then .halt x b else
    if fn == 6 then .bkpt x b else
    if fn == 7 then (if w.b7 == 0 then .version x a else if w.b7 == 1 then .regionSet x a else if w.b7 == 2 then .regionGet x a else if w.b7 == 3 then .sfdomSet x a else if w.b7 == 4 then .measure x a else if w.b7 == 5 then .extend x a else if w.b7 == 6 then .random x a else if w.b7 == 7 then .powerRead x a else .swcUnknownService x a b) else .time x d
  | _ => .unassignedMajor w

/-- The instruction of one word with the EX before it, if any (R59 to R63, R84 to R86). A reserved encoding never
falls through to a neighbour: it is an instruction of its own, whose meaning is its trap. -/
def decodeWord (x : Option Ex) (w : Word) : Instr :=
  if !majorAssigned w.maj then .unassignedMajor w
  else if !fnOk w.maj w.fn then .reservedFnValue x w
  else if !fixedOk x w then .reservedOperandValue x w
  else decodeRow x w

/-- EX pairing (R83): the instruction of an EX word and the word after it. -/
def decodePair (w n : Word) : Instr :=
  if n.maj == 0x7F || isBx n.maj || !majorAssigned n.maj then .exMisuse w n
  else decodeWord (some (Ex.ofWord w)) n

/-- A word of four bytes, little-endian (R59). -/
def wordOfBytes (b0 b1 b2 b3 : Byte) : Word :=
  BitVec.ofNat 32 (b0.toNat + 256 * b1.toNat + 65536 * b2.toNat + 16777216 * b3.toNat)

/-- The decoder: the instruction at the head of a list of bytes and the number of its bytes; `none` where fewer bytes
stand there than the instruction has (R59, R60). -/
def decodeBytes : List Byte → Option (Instr × Nat)
  | b0 :: b1 :: b2 :: b3 :: rest =>
    let w := wordOfBytes b0 b1 b2 b3
    if w.maj == 0x7F then
      match rest with
      | c0 :: c1 :: c2 :: c3 :: _ => some (decodePair w (wordOfBytes c0 c1 c2 c3), 8)
      | _ => none
    else some (decodeWord none w, 4)
  | _ => none

/-- The bytes of a word, as memory holds them (R59). -/
def wordBytes (w : Word) : List Byte := toBytes 4 w.toNat

/-- The instruction the decoder reads from the bits `w`, numbered as spec/opcode_table.json numbers them: the first
word is bits 31:0, a second word bits 63:32; bits at or above `nbits` are 0. -/
def decodeTableWord (nbits w : Nat) : Option Instr :=
  (decodeBytes (toBytes 8 (w % 2 ^ nbits))).map Prod.fst

/-- The word of an instruction with its EX word before it, if it has one. -/
def withEx (x : Option Ex) (w : Word) : List Word :=
  match x with
  | none => [w]
  | some e => [e.word, w]

/-- The encoder: the words of a well-formed instruction (R61, R66, R67, R85); an event has none. -/
def encode : Instr → List Word
  | .iadd x s t d a b => withEx x (mkWord 0x00 (b2n s * 8 + t.code) d.toNat a.toNat b.toNat)
  | .isub x s t d a b => withEx x (mkWord 0x01 (b2n s * 8 + t.code) d.toNat a.toNat b.toNat)
  | .imul x s t d a b => withEx x (mkWord 0x02 (b2n s * 8 + t.code) d.toNat a.toNat b.toNat)
  | .imulh x s t d a b => withEx x (mkWord 0x03 (b2n s * 8 + t.code) d.toNat a.toNat b.toNat)
  | .imad x s t d a b => withEx x (mkWord 0x04 (b2n s * 8 + t.code) d.toNat a.toNat b.toNat)
  | .iaddc x s t d a b => withEx x (mkWord 0x05 (b2n s * 8 + t.code) d.toNat a.toNat b.toNat)
  | .isubb x s t d a b => withEx x (mkWord 0x06 (b2n s * 8 + t.code) d.toNat a.toNat b.toNat)
  | .imin x s t d a b => withEx x (mkWord 0x07 (b2n s * 8 + t.code) d.toNat a.toNat b.toNat)
  | .imax x s t d a b => withEx x (mkWord 0x08 (b2n s * 8 + t.code) d.toNat a.toNat b.toNat)
  | .iabs x s t d a => withEx x (mkWord 0x09 (b2n s * 8 + t.code) d.toNat a.toNat 116)
  | .ineg x s t d a => withEx x (mkWord 0x0A (b2n s * 8 + t.code) d.toNat a.toNat 116)
  | .and x s t d a b => withEx x (mkWord 0x0B (b2n s * 8 + t.code) d.toNat a.toNat b.toNat)
  | .or x s t d a b => withEx x (mkWord 0x0C (b2n s * 8 + t.code) d.toNat a.toNat b.toNat)
  | .xor x s t d a b => withEx x (mkWord 0x0D (b2n s * 8 + t.code) d.toNat a.toNat b.toNat)
  | .andn x s t d a b => withEx x (mkWord 0x0E (b2n s * 8 + t.code) d.toNat a.toNat b.toNat)
  | .shl x s t d a b => withEx x (mkWord 0x0F (b2n s * 8 + t.code) d.toNat a.toNat b.toNat)
  | .shr x s t d a b => withEx x (mkWord 0x10 (b2n s * 8 + t.code) d.toNat a.toNat b.toNat)
  | .sar x s t d a b => withEx x (mkWord 0x11 (b2n s * 8 + t.code) d.toNat a.toNat b.toNat)
  | .rol x s t d a b => withEx x (mkWord 0x12 (b2n s * 8 + t.code) d.toNat a.toNat b.toNat)
  | .popc x s t d a => withEx x (mkWord 0x13 (b2n s * 8 + t.code) d.toNat a.toNat 116)
  | .clz x s t d a => withEx x (mkWord 0x14 (b2n s * 8 + t.code) d.toNat a.toNat 116)
  | .brev x s t d a => withEx x (mkWord 0x15 (b2n s * 8 + t.code) d.toNat a.toNat 116)
  | .bfx x s t d a b => withEx x (mkWord 0x16 (b2n s * 8 + t.code) d.toNat a.toNat b.toNat)
  | .bfi x s t d a b => withEx x (mkWord 0x17 (b2n s * 8 + t.code) d.toNat a.toNat b.toNat)
  | .lea x s t d a b => withEx x (mkWord 0x18 (b2n s * 8 + t.code) d.toNat a.toNat b.toNat)
  | .bpick x s t d a b => withEx x (mkWord 0x19 (b2n s * 8 + t.code) d.toNat a.toNat b.toNat)
  | .fadd x s r d a b => withEx x (mkWord 0x20 (b2n s * 4 + r.code) d.toNat a.toNat b.toNat)
  | .fsub x s r d a b => withEx x (mkWord 0x21 (b2n s * 4 + r.code) d.toNat a.toNat b.toNat)
  | .fmul x s r d a b => withEx x (mkWord 0x22 (b2n s * 4 + r.code) d.toNat a.toNat b.toNat)
  | .ffma x s r d a b => withEx x (mkWord 0x23 (b2n s * 4 + r.code) d.toNat a.toNat b.toNat)
  | .fmin x d a b => withEx x (mkWord 0x24 0 d.toNat a.toNat b.toNat)
  | .fmax x d a b => withEx x (mkWord 0x25 0 d.toNat a.toNat b.toNat)
  | .frcp x l d a => withEx x (mkWord 0x26 l.toNat d.toNat a.toNat 116)
  | .frsq x l d a => withEx x (mkWord 0x27 l.toNat d.toNat a.toNat 116)
  | .fsqrt x l d a => withEx x (mkWord 0x28 l.toNat d.toNat a.toNat 116)
  | .fexp2 x l d a => withEx x (mkWord 0x29 l.toNat d.toNat a.toNat 116)
  | .flog2 x l d a => withEx x (mkWord 0x2A l.toNat d.toNat a.toNat 116)
  | .fsin x l d a => withEx x (mkWord 0x2B l.toNat d.toNat a.toNat 116)
  | .fcos x l d a => withEx x (mkWord 0x2C l.toNat d.toNat a.toNat 116)
  | .ftanh x l d a => withEx x (mkWord 0x2D l.toNat d.toNat a.toNat 116)
  | .fclass x d a => withEx x (mkWord 0x2E 0 d.toNat a.toNat 116)
  | .fcpys x d a b => withEx x (mkWord 0x2F 0 d.toNat a.toNat b.toNat)
  | .hadd2 x m s r d a b => withEx x (mkWord 0x30 (b2n m * 8 + b2n s * 4 + r.code) d.toNat a.toNat b.toNat)
  | .hmul2 x m s r d a b => withEx x (mkWord 0x31 (b2n m * 8 + b2n s * 4 + r.code) d.toNat a.toNat b.toNat)
  | .hfma2 x m s r d a b => withEx x (mkWord 0x32 (b2n m * 8 + b2n s * 4 + r.code) d.toNat a.toNat b.toNat)
  | .hmax2 x m d a b => withEx x (mkWord 0x33 (b2n m * 8) d.toNat a.toNat b.toNat)
  | .cvt x s r d a dt st => withEx x (mkWord 0x34 (b2n s * 4 + r.code) d.toNat a.toNat (dt.toNat * 8 + st.toNat))
  | .cvtq x e s r d a t => withEx x (mkWord 0x35 (b2n e * 8 + b2n s * 4 + r.code) d.toNat a.toNat t.toNat)
  | .frnd x r d a => withEx x (mkWord 0x36 (r.code) d.toNat a.toNat 116)
  | .icmp x q d a b => withEx x (mkWord 0x38 (q.code) d.toNat a.toNat b.toNat)
  | .fcmp x q d a b => withEx x (mkWord 0x39 (q.code) d.toNat a.toNat b.toNat)
  | .pset x q d a b => withEx x (mkWord 0x3A (q.code) d.toNat a.toNat b.toNat)
  | .pmovGet x d => withEx x (mkWord 0x3B 0 d.toNat 116 116)
  | .pmovSet x a => withEx x (mkWord 0x3B 1 116 a.toNat 116)
  | .sel x n p d a b => withEx x (mkWord 0x3C (b2n n * 8 + p.toNat) d.toNat a.toNat b.toNat)
  | .mov x d a => withEx x (mkWord 0x3D 0 d.toNat a.toNat 116)
  | .movk x d a i => withEx x (mkWord 0x3E 0 d.toNat a.toNat i.toNat)
  | .ldi x d i => withEx x (mkWord 0x3F 0 d.toNat 116 i.toNat)
  | .ldiHi x d i => withEx x (mkWord 0x3F 1 d.toNat 116 i.toNat)
  | .shfl x l d a b => withEx x (mkWord 0x40 l.toNat d.toNat a.toNat b.toNat)
  | .shflx x l d a b => withEx x (mkWord 0x41 l.toNat d.toNat a.toNat b.toNat)
  | .vote x l d a => withEx x (mkWord 0x42 l.toNat d.toNat a.toNat 116)
  | .redux x l d a b => withEx x (mkWord 0x43 l.toNat d.toNat a.toNat b.toNat)
  | .scan x l d a => withEx x (mkWord 0x44 l.toNat d.toNat a.toNat 116)
  | .rbal x l d a b => withEx x (mkWord 0x45 l.toNat d.toNat a.toNat b.toNat)
  | .bin x l d a b => withEx x (mkWord 0x46 l.toNat d.toNat a.toNat b.toNat)
  | .mrg x l d a b => withEx x (mkWord 0x47 l.toNat d.toNat a.toNat b.toNat)
  | .sortk x l d a => withEx x (mkWord 0x48 l.toNat d.toNat a.toNat 116)
  | .bra c o => [mkWord21 0x4C (c.toNat) o.toNat]
  | .call c o => [mkWord21 0x4D (c.toNat) o.toNat]
  | .brx x a => withEx x (mkWord 0x4E 0 116 a.toNat 116)
  | .ret x a => withEx x (mkWord 0x4E 1 116 a.toNat 116)
  | .nop x => withEx x (mkWord 0x4F 0 116 116 116)
  | .join x => withEx x (mkWord 0x4F 1 116 116 116)
  | .exit x => withEx x (mkWord 0x4F 2 116 116 116)
  | .yield x => withEx x (mkWord 0x4F 3 116 116 116)
  | .trap x i => withEx x (mkWord 0x4F 4 116 116 i.toNat)
  | .form x d a => withEx x (mkWord 0x50 0 d.toNat a.toNat 116)
  | .matl x a => withEx x (mkWord 0x50 1 116 a.toNat 116)
  | .unif x d a => withEx x (mkWord 0x50 2 d.toNat a.toNat 116)
  | .wbase x i => withEx x (mkWord 0x51 0 116 116 i.toNat)
  | .wquota x a b => withEx x (mkWord 0x52 0 116 a.toNat b.toNat)
  | .work x l d a b => withEx x (mkWord 0x53 l.toNat d.toNat a.toNat b.toNat)
  | .idx x d a i => withEx x (mkWord 0x54 0 d.toNat a.toNat i.toNat)
  | .ldg x l d a b => withEx x (mkWord 0x58 l.toNat d.toNat a.toNat b.toNat)
  | .stg x l d a b => withEx x (mkWord 0x59 l.toNat d.toNat a.toNat b.toNat)
  | .lds x l d a b => withEx x (mkWord 0x5A l.toNat d.toNat a.toNat b.toNat)
  | .sts x l d a b => withEx x (mkWord 0x5B l.toNat d.toNat a.toNat b.toNat)
  | .ldc x l d a b => withEx x (mkWord 0x5C l.toNat d.toNat a.toNat b.toNat)
  | .stc x l d a b => withEx x (mkWord 0x5D l.toNat d.toNat a.toNat b.toNat)
  | .ldt x l d a b => withEx x (mkWord 0x5E l.toNat d.toNat a.toNat b.toNat)
  | .stt x l d a b => withEx x (mkWord 0x5F l.toNat d.toNat a.toNat b.toNat)
  | .ldu x l d a b => withEx x (mkWord 0x60 l.toNat d.toNat a.toNat b.toNat)
  | .lda x l d a b => withEx x (mkWord 0x61 l.toNat d.toNat a.toNat b.toNat)
  | .sta x l d a b => withEx x (mkWord 0x62 l.toNat d.toNat a.toNat b.toNat)
  | .stw x l d a b => withEx x (mkWord 0x63 l.toNat d.toNat a.toNat b.toNat)
  | .stwb x l d => withEx x (mkWord 0x64 l.toNat d.toNat 116 116)
  | .pref x l a b => withEx x (mkWord 0x65 l.toNat 116 a.toNat b.toNat)
  | .atomg x l d a b => withEx x (mkWord 0x68 l.toNat d.toNat a.toNat b.toNat)
  | .atoms x l d a b => withEx x (mkWord 0x69 l.toNat d.toNat a.toNat b.toNat)
  | .atomc x l d a b => withEx x (mkWord 0x6A l.toNat d.toNat a.toNat b.toNat)
  | .redg x l a b => withEx x (mkWord 0x6B l.toNat 116 a.toNat b.toNat)
  | .rgrsv x l d a => withEx x (mkWord 0x6C l.toNat d.toNat a.toNat 116)
  | .rgpub x l d a b => withEx x (mkWord 0x6D l.toNat d.toNat a.toNat b.toNat)
  | .rgtake x l d a => withEx x (mkWord 0x6E l.toNat d.toNat a.toNat 116)
  | .rgfree x l d a b => withEx x (mkWord 0x6F l.toNat d.toNat a.toNat b.toNat)
  | .txbegin o => [mkWord21 0x70 (0) o.toNat]
  | .orelse o => [mkWord21 0x71 (0) o.toNat]
  | .txend x => withEx x (mkWord 0x72 0 116 116 116)
  | .retry x => withEx x (mkWord 0x72 1 116 116 116)
  | .orend x => withEx x (mkWord 0x72 2 116 116 116)
  | .txabort x => withEx x (mkWord 0x72 3 116 116 116)
  | .txstat x d => withEx x (mkWord 0x72 4 d.toNat 116 116)
  | .acq x d a => withEx x (mkWord 0x73 0 d.toNat a.toNat 116)
  | .rel x d a => withEx x (mkWord 0x73 1 d.toNat a.toNat 116)
  | .fence x => withEx x (mkWord 0x73 2 116 116 116)
  | .arrive x d a => withEx x (mkWord 0x73 3 d.toNat a.toNat 116)
  | .bind x a b => withEx x (mkWord 0x74 0 116 a.toNat b.toNat)
  | .barinit x a b => withEx x (mkWord 0x74 1 116 a.toNat b.toNat)
  | .rgdef x a b => withEx x (mkWord 0x74 2 116 a.toNat b.toNat)
  | .rkinit x a b => withEx x (mkWord 0x75 0 116 a.toNat b.toNat)
  | .rkthr x a s => withEx x (mkWord 0x75 1 116 a.toNat s.toNat)
  | .pthr x d a s => withEx x (mkWord 0x75 2 d.toNat a.toNat s.toNat)
  | .rkpush x l d a b => withEx x (mkWord 0x76 l.toNat d.toNat a.toNat b.toNat)
  | .rkmerge x a b => withEx x (mkWord 0x77 0 116 a.toNat b.toNat)
  | .rkread x d a b => withEx x (mkWord 0x77 1 d.toNat a.toNat b.toNat)
  | .copy x f d a b => withEx x (mkWord 0x78 f.toNat d.toNat a.toNat b.toNat)
  | .copyx x f d a b => withEx (some x) (mkWord 0x78 f.toNat d.toNat a.toNat b.toNat)
  | .gath x f d a b => withEx (some x) (mkWord 0x78 f.toNat d.toNat a.toNat b.toNat)
  | .scatx x f d a b => withEx (some x) (mkWord 0x78 f.toNat d.toNat a.toNat b.toNat)
  | .mma x f d a => withEx x (mkWord 0x79 f.toNat d.toNat a.toNat 116)
  | .mmab x f d a => withEx (some x) (mkWord 0x79 f.toNat d.toNat a.toNat 116)
  | .mmas x f d a => withEx (some x) (mkWord 0x79 f.toNat d.toNat a.toNat 116)
  | .attn x f d a b => withEx x (mkWord 0x7A f.toNat d.toNat a.toNat b.toNat)
  | .attnfin x f d a => withEx (some x) (mkWord 0x7A f.toNat d.toNat a.toNat 116)
  | .fold x f d a => withEx (some x) (mkWord 0x7A f.toNat d.toNat a.toNat 116)
  | .disp x f d a b => withEx x (mkWord 0x7B f.toNat d.toNat a.toNat b.toNat)
  | .axedit x f d a => withEx (some x) (mkWord 0x7B f.toNat d.toNat a.toNat 116)
  | .axsync x f d a => withEx (some x) (mkWord 0x7B f.toNat d.toNat a.toNat 116)
  | .launch x f d a => withEx (some x) (mkWord 0x7B f.toNat d.toNat a.toNat 116)
  | .waitf x n i => withEx x (mkWord 0x7C 0 n.toNat 116 i.toNat)
  | .qfence x d i => withEx x (mkWord 0x7C 1 d.toNat 116 i.toNat)
  | .csrr x d i => withEx x (mkWord 0x7D 0 d.toNat 116 i.toNat)
  | .csrw x a i => withEx x (mkWord 0x7D 1 116 a.toNat i.toNat)
  | .csrwSstat x a => withEx x (mkWord 0x7D 1 116 a.toNat 3)
  | .csrwBnd x a => withEx x (mkWord 0x7D 1 116 a.toNat 4)
  | .tret x => withEx x (mkWord 0x7D 2 116 116 0)
  | .replay x e => withEx x (mkWord 0x7D 3 116 116 e.toNat)
  | .rqdrop x e => withEx x (mkWord 0x7D 4 116 116 e.toNat)
  | .halt x i => withEx x (mkWord 0x7D 5 116 116 i.toNat)
  | .bkpt x i => withEx x (mkWord 0x7D 6 116 116 i.toNat)
  | .version x a => withEx x (mkWord 0x7D 7 116 a.toNat 0)
  | .regionSet x a => withEx x (mkWord 0x7D 7 116 a.toNat 1)
  | .regionGet x a => withEx x (mkWord 0x7D 7 116 a.toNat 2)
  | .sfdomSet x a => withEx x (mkWord 0x7D 7 116 a.toNat 3)
  | .measure x a => withEx x (mkWord 0x7D 7 116 a.toNat 4)
  | .extend x a => withEx x (mkWord 0x7D 7 116 a.toNat 5)
  | .random x a => withEx x (mkWord 0x7D 7 116 a.toNat 6)
  | .powerRead x a => withEx x (mkWord 0x7D 7 116 a.toNat 7)
  | .time x d => withEx x (mkWord 0x7D 8 d.toNat 116 0)
  | .unassignedMajor w => [w]
  | .lxComplete _ _ => []
  | .launchTake _ _ => []
  | .teamPlacement _ => []
  | .deficitPreempt _ _ _ => []
  | .forceprePreempt _ => []
  | .waveBoost _ => []
  | .yieldExpiry _ => []
  | .fallbackRotation _ => []
  | .waitingBudgetExpiry _ _ => []
  | .engineCommandStart _ => []
  | .engineCommandComplete _ => []
  | .shootDown _ => []
  | .shootDownAcknowledge _ => []
  | .faultRecord _ _ => []
  | .remoteAccess _ => []
  | .fabricStreamFail _ => []
  | .packetLifetimeExpiry _ => []
  | .hwBarrierArrival _ => []
  | .hwBarrierRelease _ => []
  | .sendQueueTimeout _ _ _ => []
  | .dispatchPacketReceive _ => []
  | .deliveryRetry _ => []
  | .generationRetireWait _ => []
  | .gangSliceBoundary _ => []
  | .gangBarrierArrival _ _ => []
  | .gangAbort => []
  | .gangDecision _ => []
  | .peerSet _ _ _ _ => []
  | .fdomSet _ _ _ => []
  | .routeSet _ _ _ _ => []
  | .gangSched _ _ => []
  | .queueReset _ _ => []
  | .waveResume _ _ => []
  | .waveEnd _ _ => []
  | .ctxResume _ _ => []
  | .ctxDestroy _ _ => []
  | .debugStop _ _ => []
  | .debugRead _ _ => []
  | .debugWrite _ _ _ => []
  | .debugResume _ _ => []
  | .counters _ => []
  | .enable _ => []
  | .mem _ _ _ _ => []
  | .getVersion _ _ => []
  | .getCapabilities _ _ => []
  | .negotiateAlgorithms _ _ => []
  | .getDigests _ _ => []
  | .getCertificate _ _ => []
  | .challenge _ _ => []
  | .getMeasurements _ _ => []
  | .deviceReset _ => []
  | .loaderPlace _ => []
  | .wakeWithoutCause _ => []
  | .reservedFnValue x w => withEx x w
  | .reservedOperandValue x w => withEx x w
  | .exMisuse w n => [w, n]
  | .swcUnknownService x a n => withEx x (mkWord 0x7D 7 116 a.toNat n.toNat)
  | .unknownManagementCode _ _ => []
  | .unsupportedRequest _ _ => []

/-- The instruction that the decoder reads from a list of words laid out as memory holds them. -/
def decodeWords (ws : List Word) : Option (Instr × Nat) := decodeBytes (ws.flatMap wordBytes)

end Sys2Proof
end

