-- ==== Sys2Proof/Machine/OpInfo.lean ====
section
/-! DEFINITION. What each instruction requires of its operand fields and of its EX (R62, R63, R80 to R83, R110, R111,
R113, R160, R220 and the instructions' entries), and the checks of the word itself in the order of R385. -/
namespace Sys2Proof.Machine
open Sys2Proof

/-- What an operand field holds (R10, R62, R63). -/
inductive FieldClass
  /-- Not used: holds 116 (R63). -/
  | unused
  /-- A destination of `n` registers; `k`: a k-register is accepted (R11, R113). -/
  | dst (n : Nat) (k : Bool)
  /-- A source of `n` registers. -/
  | src (n : Nat)
  /-- A global address: an even vector or uniform register pair (R161). -/
  | addr
  /-- A flattened index: an even vector or uniform register pair, or id (R159). -/
  | flat
  /-- A vector register, the first of `n`. -/
  | vec (n : Nat)
  /-- A vector register, or z. -/
  | vecz
  /-- A vector or index register. -/
  | vx
  /-- A uniform register, the first of `n`; `even`: a pair. -/
  | kreg (n : Nat) (even : Bool)
  /-- A uniform register or z (R74). -/
  | kz
  /-- A predicate number (R63). -/
  | pred
  /-- A code from 0 to `max`. -/
  | code (max : Nat)
  /-- The first of four registers, a multiple of 4 (R158). -/
  | dst4
  /-- Codes 0 to 11, or 116 (R207). -/
  | flagz
  deriving DecidableEq, Repr

/-- Whether a field value is a vector register (R10). -/
def isV (c : Nat) : Bool := decide (c < 88)
/-- Whether a field value is a uniform register (R10). -/
def isK (c : Nat) : Bool := decide (88 ≤ c) && decide (c < 112)
/-- Whether a field value is an index register (R10). -/
def isX (c : Nat) : Bool := decide (112 ≤ c) && decide (c < 116)

/-- Whether a field value is legal for its class (R10, R11, R14, R63; check 3 of R385). -/
def FieldClass.ok : FieldClass → Nat → Bool
  | .unused, c => c == 116
  | .dst n k, c => decide (c ≤ 116) && (k || !isK c) && (n == 1 || isX c || c == 116 || c % 2 == 0)
  | .src n, c => decide (c < 124) && (n == 1 || decide (112 ≤ c) || c % 2 == 0)
  | .addr, c => (isV c || isK c) && c % 2 == 0
  | .flat, c => c == 117 || ((isV c || isK c) && c % 2 == 0)
  | .vec n, c => isV c && (n == 1 || c % 2 == 0)
  | .vecz, c => isV c || c == 116
  | .vx, c => isV c || isX c
  | .kreg n even, c => isK c && decide (c + n ≤ 112) && (!even || c % 2 == 0)
  | .kz, c => isK c || c == 116
  | .pred, c => decide (c < 8)
  | .code m, c => decide (c ≤ m)
  | .dst4, c => decide (c ≤ 116) && c % 4 == 0
  | .flagz, c => decide (c < 12) || c == 116

/-- Whether a field can be a register-array operand (R82, R111). -/
def FieldClass.arrayable : FieldClass → Bool
  | .dst _ _ => true
  | .src _ => true
  | .vec _ => true
  | .vx => true
  | _ => false

/-- What the last field of a TI word holds (R62): nothing of its own, an unsigned code, or an immediate in a range. -/
inductive ImmClass
  | none
  | codes (ok : List Nat)
  | anyCode
  | range (lo hi : Int)
  deriving DecidableEq, Repr

/-- The requirements of one instruction. -/
structure OpInfo where
  d : FieldClass
  a : FieldClass
  b : FieldClass
  imm : ImmClass := .none
  immB : Bool := false
  rm : Bool := false
  sat : Bool := false
  tys : List Nat := [0]
  fxs : List Nat := [0]
  xo : Bool := false
  extOk : Bool := true
  deriving DecidableEq, Repr

/-- RM of an EX (R80, R81). -/
def exRm : Option Ex → Nat
  | none => 0
  | some x => if x.mode1 then 0 else x.ext.toNat / 2 ^ 18 % 4
/-- SAT of an EX (R80, R81). -/
def exSat : Option Ex → Bool
  | none => false
  | some x => !x.mode1 && x.ext.toNat / 2 ^ 17 % 2 == 1
/-- FX of an EX (R80, R81). -/
def exFx : Option Ex → Nat
  | none => 0
  | some x => if x.mode1 then 0 else x.ext.toNat / 2 ^ 9 % 16
/-- XO of an EX (R80, R82). -/
def exXo : Option Ex → Nat
  | none => 0
  | some x => if x.mode1 then 0 else x.ext.toNat / 2 ^ 7 % 4
/-- XI of an EX (R80, R82). -/
def exXi : Option Ex → Nat
  | none => 0
  | some x => if x.mode1 then 0 else x.ext.toNat / 2 ^ 5 % 4
/-- The reserved bits of an EX (R80). -/
def exRsv : Option Ex → Nat
  | none => 0
  | some x => if x.mode1 then 0 else x.ext.toNat % 32

/-- The immediate of a word (R62, R81): 7 bits, or 23 bits under MODE 1, sign-extended. -/
def immOf (x : Option Ex) (b : Nat) : Int :=
  match x with
  | some e => if e.mode1 then toSigned 23 (e.ext.toNat % 65536 * 128 + b) else toSigned 7 b
  | none => toSigned 7 b

/-- Registers of an operand of an integer type code (R14, R66). -/
def tyRegs (ty : Nat) : Nat := if ty == 2 || ty == 3 then 2 else 1

/-- Registers of an operand of a memory access type (R162). -/
def tys13 : List Nat := [0, 1, 2, 3, 4, 5, 6, 7, 8, 9, 10, 11, 12]

/-- The types an atomic function accepts (R175). -/
def atomTys (fx : Nat) : List Nat :=
  if fx == 1 then [8] else if fx == 9 then [3] else if fx == 7 || fx == 8 || fx == 10 then [0, 1, 2, 3, 8] else [0, 1, 2, 3]

/-- The functions an atomic major accepts (R175). -/
def atomFxs (maj : Nat) : List Nat :=
  if maj == 0x68 then [0, 1, 2, 3, 4, 5, 6, 7, 8, 9]
  else if maj == 0x6B then [0, 1, 2, 3, 4, 5, 6, 9]
  else [0, 1, 2, 3, 4, 5, 6, 7, 8, 9, 10]

/-- The descriptor length n of an engine command (R74 and the commands' entries). -/
def descLen (maj mem : Nat) : Nat :=
  match maj, mem with
  | 0x78, 0 => 3 | 0x78, 1 => 3 | 0x78, _ => 5
  | 0x79, 0 => 6 | 0x79, 1 => 2 | 0x79, _ => 8
  | 0x7A, 0 => 8 | 0x7A, 1 => 3 | 0x7A, _ => 5
  | _, 0 => 3 | _, 1 => 5 | _, 2 => 1 | _, _ => 2

/-- The FX values of an engine command: modifiers in bits 1:0 and AFTER in bits 3:2 (R220). -/
def cmdFxs (maj mem : Nat) : List Nat :=
  match maj, mem with
  | 0x78, 0 => [0, 8, 12] | 0x78, _ => [0, 1, 8, 9, 12, 13]
  | 0x79, 0 => [0, 1, 2, 3, 4, 5, 6, 7, 8, 9, 10, 11] | 0x79, 1 => [0, 4, 8] | 0x79, _ => [0, 1, 4, 5, 8, 9]
  | 0x7A, 0 => [0, 1, 2, 3, 4, 5, 6, 7, 12, 13, 14, 15] | 0x7A, _ => [0, 4, 12]
  | _, _ => [0]

/-- The requirements of the integer, logic and address instructions (R115 to R120). -/
def intInfo (maj fn : Nat) : OpInfo :=
  let n := tyRegs (fn % 8)
  if maj == 0x09 || maj == 0x0A || maj == 0x15 then ⟨.dst n true, .src n, .unused, .none, false, false, false, [0], [0], true, true⟩
  else if maj == 0x13 || maj == 0x14 then ⟨.dst 1 true, .src n, .unused, .none, false, false, false, [0], [0], true, true⟩
  else if maj == 0x18 then ⟨.dst 2 true, .src 2, .src 1, .none, true, false, false, [0], [0], true, true⟩
  else if (decide (0x0F ≤ maj) && decide (maj ≤ 0x12)) || maj == 0x16 || maj == 0x17 then
    ⟨.dst n true, .src n, .src 1, .none, true, false, false, [0], [0], true, true⟩
  else ⟨.dst n true, .src n, .src n, .none, true, false, false, [0], [0], true, true⟩

/-- Whether the EX of a REDUX or SCAN is one that R140 to R142 accept. -/
def reduxExt (team : Bool) (ty fx rm : Nat) (sat : Bool) : Bool :=
  decide (fx % 8 < 6) && !(ty == 8 && decide (3 ≤ fx % 8)) && !(sat && fx % 8 != 0) && !(rm != 0 && ty != 8) &&
    !(team && !(ty == 0 || ty == 1 || ty == 8))

/-- The requirements of the instruction that a major, an fn value and an EX select. -/
def opInfo (maj fn ty fx rm : Nat) (sat : Bool) (b7 : Nat) : OpInfo :=
  let n := tyRegs ty
  let un : OpInfo := { d := .unused, a := .unused, b := .unused }
  match maj with
  | 0x2E => { d := .dst 1 true, a := .src 1, b := .unused, xo := true }
  | 0x36 => { d := .dst 1 true, a := .src 1, b := .unused, xo := true }
  | 0x34 => { d := .dst (tyRegs (b7 / 8)) true, a := .src (tyRegs (b7 % 8)), b := .code 103, xo := true }
  | 0x35 => { d := .dst 1 false, a := .src 1, b := .code (if fn / 8 == 1 then 0 else 2), xo := true }
  | 0x38 => { d := .pred, a := .src n, b := .src n, immB := true, tys := [0, 1, 2, 3, 4, 5, 6, 7], xo := true }
  | 0x39 => { d := .pred, a := .src 1, b := .src 1, tys := [0, 9, 10], xo := true }
  | 0x3A => { d := .pred, a := .pred, b := if fn == 4 then .code 0 else .pred, xo := true }
  | 0x3B => if fn == 0 then { un with d := .vec 1, xo := true } else { un with a := .src 1, xo := true }
  | 0x3C => { d := .dst 1 true, a := .src 1, b := .src 1, immB := true, xo := true }
  | 0x3D => { d := .dst 1 true, a := .src 1, b := .unused, xo := true }
  | 0x3E => { d := .vec 1, a := .vx, b := .code 127, imm := .range 0 31 }
  | 0x3F => { un with d := .dst 1 true, b := .code 127, imm := if fn == 0 then .range (-4194304) 4194303 else .range 0 511 }
  | 0x40 => { d := .dst 1 false, a := .src 1, b := .src 1, immB := true, fxs := [0, 1, 2, 3] }
  | 0x41 => { d := .dst 1 false, a := .vec 1, b := .src 1 }
  | 0x42 => { d := .dst 1 false, a := if fx == 3 then .vec 1 else .pred, b := .unused, fxs := [0, 1, 2, 3] }
  | 0x43 => { d := .dst n false, a := .src n, b := if decide (8 ≤ fx) then .kreg 1 false else .unused, rm := true, sat := true,
              tys := [0, 1, 2, 3, 4, 5, 6, 7, 8], fxs := [0, 1, 2, 3, 4, 5, 8, 9, 10, 11, 12, 13],
              extOk := reduxExt (decide (8 ≤ fx)) ty fx rm sat }
  | 0x44 => { d := .dst n false, a := .src n, b := .unused, rm := true, sat := true,
              tys := [0, 1, 2, 3, 4, 5, 6, 7, 8], fxs := [0, 1, 2, 3, 4, 5, 8, 9, 10, 11, 12, 13],
              extOk := reduxExt false ty fx rm sat }
  | 0x45 => { d := .dst 2 false, a := .src 1, b := .src 1, immB := true }
  | 0x46 => { d := .dst 1 false, a := .src 1, b := .kreg 2 false }
  | 0x47 => { d := .dst 2 false, a := .src 1, b := .src 1, tys := [0, 1], fxs := [0, 1] }
  | 0x48 => { d := .dst 2 false, a := .src 2, b := .unused, tys := [0, 1, 8], fxs := [0, 1] }
  | 0x4E => { un with a := .src 1 }
  | 0x4F => if fn == 4 then { un with b := .code 127 } else un
  | 0x50 => if fn == 1 then { un with a := .vx } else { d := .dst 1 true, a := .src 1, b := .unused }
  | 0x51 => { un with b := .code 127, imm := .range (-4194304) 4194303 }
  | 0x52 => { d := .unused, a := .src 1, b := .src 1, immB := true }
  | 0x53 => { d := .dst4, a := .src 1, b := .src 1, immB := true }
  | 0x54 => { d := .dst 1 false, a := .flat, b := .code 2 }
  | 0x58 => { d := .dst n false, a := .addr, b := .src 1, immB := true, tys := tys13 }
  | 0x59 => { d := .src n, a := .addr, b := .src 1, immB := true, tys := tys13 }
  | 0x5A => { d := .dst n false, a := .src 1, b := .src 1, immB := true, tys := tys13 }
  | 0x5B => { d := .src n, a := .src 1, b := .src 1, immB := true, tys := tys13 }
  | 0x5C => { d := .dst n false, a := .src 1, b := .src 1, immB := true, tys := tys13 }
  | 0x5D => { d := .src n, a := .src 1, b := .src 1, immB := true, tys := tys13 }
  | 0x5E => { d := .dst n false, a := .kreg 1 false, b := .vec 1, tys := tys13 }
  | 0x5F => { d := .src n, a := .kreg 1 false, b := .vec 1, tys := tys13 }
  | 0x60 => { d := .dst n true, a := .addr, b := .src 1, immB := true, tys := [0, 1, 2, 3, 8] }
  | 0x61 => { d := .dst n false, a := .src 1, b := .src 1, immB := true, tys := [0, 1, 2, 3, 8] }
  | 0x62 => { d := .src n, a := .src 1, b := .src 1, immB := true, tys := [0, 1, 2, 3, 8] }
  | 0x63 => { d := .code 7, a := .kreg 2 true, b := .kreg 2 false }
  | 0x64 => { un with d := .code 7 }
  | 0x65 => { d := .unused, a := .addr, b := .src 1, immB := true }
  | 0x68 => { d := .dst n false, a := .addr, b := .src n, rm := fx == 1, sat := fx == 1, tys := atomTys fx, fxs := atomFxs maj }
  | 0x69 => { d := .dst n false, a := .src 1, b := .src n, rm := fx == 1 || (fx == 10 && ty == 8),
              sat := fx == 1 || (fx == 10 && ty == 8), tys := atomTys fx, fxs := atomFxs maj }
  | 0x6A => { d := .dst n false, a := .src 1, b := .src n, rm := fx == 1 || (fx == 10 && ty == 8),
              sat := fx == 1 || (fx == 10 && ty == 8), tys := atomTys fx, fxs := atomFxs maj }
  | 0x6B => { d := .unused, a := .addr, b := .src n, rm := fx == 1, sat := fx == 1, tys := atomTys fx, fxs := atomFxs maj }
  | 0x6C => { d := .dst 1 false, a := .addr, b := .unused }
  | 0x6D => { d := .dst 1 false, a := .addr, b := .src 1 }
  | 0x6E => { d := .dst 1 false, a := .addr, b := .unused }
  | 0x6F => { d := .dst 1 false, a := .addr, b := .src 1 }
  | 0x72 => if fn == 4 then { un with d := .dst 1 true } else un
  | 0x73 => if fn == 2 then { un with tys := [0, 1, 2, 3, 4, 5] }
            else if fn == 3 then { d := .dst 1 true, a := .kreg 1 false, b := .unused }
            else { d := .dst 1 true, a := .kreg 2 true, b := .unused }
  | 0x74 => if fn == 0 then { d := .unused, a := .kreg 2 true, b := .kreg 4 true }
            else if fn == 1 then { d := .unused, a := .kreg 1 false, b := .kreg 1 false }
            else { d := .unused, a := .kreg 2 true, b := .kreg 3 true }
  | 0x75 => if fn == 0 then { d := .unused, a := .kreg 1 false, b := .kreg 1 false }
            else if fn == 1 then { d := .unused, a := .kz, b := .code 3 }
            else { d := .pred, a := .src 1, b := .code 3 }
  | 0x76 => { d := .kreg 1 false, a := .src 1, b := .src 1 }
  | 0x77 => if fn == 0 then { d := .unused, a := .kreg 1 false, b := .kreg 2 false }
            else { d := .dst 2 false, a := .kreg 1 false, b := .src 1, immB := true }
  | 0x78 => { d := .kz, a := .kreg 1 (decide (2 ≤ ty)), b := if ty == 0 then .vecz else if ty == 1 then .vec 2 else .vec 1,
              tys := [0, 1, 2, 3], fxs := cmdFxs maj ty }
  | 0x79 => { d := .kz, a := .kreg 1 false, b := .unused, tys := [0, 1, 2], fxs := cmdFxs maj ty }
  | 0x7A => { d := .kz, a := .kreg 1 false, b := if ty == 0 then .vecz else .unused, tys := [0, 1, 2], fxs := cmdFxs maj ty }
  | 0x7B => { d := .kz, a := .kreg 1 (ty == 3), b := if ty == 0 then .vec 2 else .unused, tys := [0, 1, 2, 3] }
  | 0x7C => if fn == 0 then { un with d := .code 62, b := .code 127, imm := .range 0 4095 }
            else { un with d := .flagz, b := .code 127, imm := .range 0 31 }
  | 0x7D =>
    let csr : ImmClass := .codes ((List.range 0x21).filter (fun c => c != 0x0F))
    match fn with
    | 0 => { un with d := .dst 1 (b7 != 0 && b7 != 1), b := .code 127, imm := csr }
    | 1 => { un with a := .src 1, b := .code 127, imm := .codes [3, 4] }
    | 2 => { un with b := .code 127, imm := .codes [0] }
    | 3 => { un with b := .code 127, imm := .codes (List.range 16) }
    | 4 => { un with b := .code 127, imm := .codes (127 :: List.range 16) }
    | 5 => { un with b := .code 127, imm := .anyCode }
    | 6 => { un with b := .code 127, imm := .anyCode }
    | 7 => { un with a := .kreg 4 false, b := .code 127, imm := .anyCode }
    | _ => { un with d := .dst 2 true, b := .code 127, imm := .codes [0] }
  | _ =>
    if decide (maj < 0x1A) then intInfo maj fn
    else if decide (0x26 ≤ maj) && decide (maj ≤ 0x2D) then
      { d := .dst 1 false, a := .src 1, b := .unused, rm := true, sat := true, xo := true }
    else { d := .dst 1 true, a := .src 1, b := .src 1, xo := true }

/-- The requirements of a word with its EX. -/
def wordInfo (x : Option Ex) (w : Word) : OpInfo := opInfo w.maj w.fn (exTy x) (exFx x) (exRm x) (exSat x) w.b7

/-- Whether an immediate field holds a legal value (check 4 of R385). -/
def ImmClass.ok (x : Option Ex) (b : Nat) : ImmClass → Bool
  | .none => true
  | .codes l => l.contains b
  | .anyCode => true
  | .range lo hi => decide (lo ≤ immOf x b) && decide (immOf x b ≤ hi)

/-- Whether an EX agrees with MODE against the word that follows (R81, R83). -/
def modeOk (i : OpInfo) (x : Option Ex) : Bool :=
  !exMode1 x || i.immB || (match i.imm with | .range _ _ => true | _ => false)

/-- The register-array selection of an EX (R82). -/
def xoOk (i : OpInfo) (x : Option Ex) (w : Word) : Bool :=
  let one (c : FieldClass) (v : Nat) : Bool := i.xo && c.arrayable && isV v
  match exXo x with
  | 0 => true
  | 1 => one i.d w.d7
  | 2 => one i.a w.a7
  | _ => one i.b w.b7

/-- The register that a field must hold (check 3 of R385). In a field that XO selects stands n of `v[xi + n]`, whose computed
index R111 asks to be even, item by item. -/
def fieldOk (x : Option Ex) (code : Nat) (c : FieldClass) (v : Nat) : Bool := exXo x == code || c.ok v

/-- The checks of ext21 (check 2 of R385), in its order: every failure has DETAIL 0x06. R385 names XI among them, and no rule names a
value of XI that fails: with XO 0 any XI is accepted (log 50, DESIGN CHOICE). -/
def extOk (i : OpInfo) (x : Option Ex) (w : Word) : Bool :=
  exRsv x == 0 && modeOk i x && (i.rm || exRm x == 0) && (i.sat || !exSat x) && i.tys.contains (exTy x) &&
    i.fxs.contains (exFx x) && i.extOk && xoOk i x w

/-- The number of registers of an engine command's descriptor and completion operands (R74, R75). -/
def cmdRegs (maj mem fl : Nat) : Nat :=
  descLen maj mem + (if decide (fl < 12) then 0 else if fl == 15 then 3 else 2)

/-- The checks of the word itself, in the order of R87 and R385 1 to 4: cause and DETAIL of the first that fails. -/
def checkWord (x : Option Ex) (w : Word) : Option (Nat × Nat) :=
  let i := wordInfo x w
  if isBx w.maj then
    if (w.maj == 0x4C || w.maj == 0x4D) && w.fn == 8 then some (2, 5)
    else if (w.maj == 0x70 || w.maj == 0x71) && w.fn != 0 then some (2, 5)
    else none
  else if !extOk i x w then some (2, 6)
  else if !fieldOk x 1 i.d w.d7 then some (2, 1)
  else if !fieldOk x 2 i.a w.a7 then some (2, 2)
  else if isCx w.maj && (decide (112 < w.a7 + cmdRegs w.maj (exTy x) w.fn) ||
      (w.fn == 15 && (w.a7 + descLen w.maj (exTy x)) % 2 == 1)) then some (2, 7)
  else if !(exMode1 x && i.immB) && !fieldOk x 3 i.b w.b7 then some (2, 3)
  else if !i.imm.ok x w.b7 then some (2, 4)
  else none

/-- LX instructions (R85). -/
def isLx (maj : Nat) : Bool :=
  (decide (0x26 ≤ maj) && decide (maj ≤ 0x2D)) || (decide (0x40 ≤ maj) && decide (maj ≤ 0x48)) || maj == 0x53 ||
  (decide (0x58 ≤ maj) && decide (maj ≤ 0x65)) || (decide (0x68 ≤ maj) && decide (maj ≤ 0x6F)) || maj == 0x76

/-- Drain points (R71). -/
def isDrain (maj fn : Nat) : Bool :=
  (maj == 0x4E && fn == 1) || (maj == 0x4F && decide (1 ≤ fn)) || maj == 0x70 || maj == 0x71 ||
  (maj == 0x72 && decide (fn < 4)) || maj == 0x51 || maj == 0x52 || (maj == 0x7D && fn != 0 && fn != 8)

/-- Instructions allowed inside a transaction (R186). -/
def txAllowed (maj fn : Nat) : Bool :=
  (decide (maj < 0x50) && !(maj == 0x4F && fn == 2)) || (decide (0x58 ≤ maj) && decide (maj ≤ 0x5D)) || maj == 0x60 ||
  maj == 0x65 || decide (0x70 ≤ maj) && decide (maj ≤ 0x72) || (maj == 0x7D && (fn == 0 || fn == 8))

end Sys2Proof.Machine
end

