-- ==== Sys2Proof/Machine/State.lean ====
section
/-! DEFINITION. The state of a caldera of Juter 9 nodes, as plain data: every piece of state the spec names
(01, 08, 09, 11, 12, 13), the reasons a step can stop, and the state after reset. -/
namespace Sys2Proof.Machine
open Sys2Proof

/-- Memory in one canonical form: addresses strictly rising, no entry equal to what an unlisted address reads as. -/
abbrev Memory := List Host.Cell

/-- The per-item index in which an affine form is affine (R19). -/
inductive Sel | id | ia | ib | ic | lane
  deriving DecidableEq, Repr

/-- The form of a register (R19): U, A (with the two halves of a 64-bit A pair), N and M. -/
inductive Form
  | u (base : Word)
  | a (base stride : Word) (sel : Sel)
  | alo (base stride : DWord) (sel : Sel)
  | ahi (base stride : DWord) (sel : Sel)
  | n (wide : Bool) (base : Word) (delta : List (BitVec 16))
  | m (lane : List Word)
  deriving DecidableEq, Repr

/-- A vector or index register: its form and its poison and world-violation marks (R19, R340, R373). -/
structure Reg where
  form : Form := .u 0
  poison : Mask := 0
  world : Mask := 0
  deriving DecidableEq, Repr

/-- Captured operands of one field of an LX instruction (R69, R336): none, one value of the wave, or words per lane. -/
inductive Cap
  | none
  | uni (ws : List Word)
  | lane (ws : List (List Word))
  deriving DecidableEq, Repr

/-- An issued and unfinished LX instruction (R68 to R73, R336): a replay-queue entry. `writes` are the register
results still to be written; `waits` counts the remote accesses whose answer has not arrived (R359). -/
structure Pend where
  key : Nat
  word : Word
  exw : Word
  mask : Mask
  performed : Bool
  win : List Nat
  cd : Cap
  ca : Cap
  cb : Cap
  writes : List (Nat × Reg)
  waits : Nat
  pc : Nat
  deriving DecidableEq, Repr

/-- A byte other parties can reach: a byte of a node's physical memory, or of a team's scratchpad (R325). -/
inductive Loc
  | glob (a : Nat)
  | scr (t : TeamRef) (o : Nat)
  deriving DecidableEq, Repr

/-- An open team-scope REDUX contribution or round (R141, R346). -/
structure Round where
  off : Nat
  op : Nat
  ty : Nat
  rm : Nat
  sat : Bool
  parts : List (Nat × Word)
  done : List Nat
  deriving DecidableEq, Repr

/-- A pending ORELSE alternative (R191). -/
structure Alt where
  target : Nat
  depth : Nat
  overlay : List (Loc × Byte)
  wlines : List Loc
  redux : List Round
  deriving DecidableEq, Repr

/-- An open transaction (R183 to R193): `overlay` holds its writes, `rlines` and `wlines` its line sets. -/
structure Tx where
  abortPc : Nat
  beginPc : Nat
  begun : Nat
  depth : Nat
  alts : List Alt
  rlines : List Loc
  wlines : List Loc
  overlay : List (Loc × Byte)
  firstPend : Nat
  redux : List Round
  deriving DecidableEq, Repr

/-- A handler in progress (R333, R334): the frame's global address, the group, and those of it still running. -/
structure Handler where
  frame : DWord
  group : Mask
  running : Mask
  fallback : Bool
  deriving DecidableEq, Repr

/-- The wave states of R35: ready, asleep after RETRY, descheduled for replay (with its save-pool slot), and stopped by
the debugger. -/
inductive WaveStatus
  | ready
  | asleep
  | descheduled (save : Nat)
  | stopped
  deriving DecidableEq, Repr

/-- A wave (R4, R13 to R31, R35). `pcs` holds each lane's program counter: outside per-item fallback (R26) those of the
live items are equal. `group` is the group the rotation of R150 has chosen, and `groupIssues` counts what it has issued;
`readyAt` is the time of the last issue (R289), `yieldAt` that of the last YIELD (R152). -/
structure Wave where
  ref : WaveRef
  part : Nat
  slot : Nat
  quota : Nat
  wb : Nat
  rowBudget : Nat
  bndLo : Nat
  bndHi : Nat
  ord : Bool
  v : List Reg
  x : List Reg
  k : List Word
  preds : List Mask
  flags : List Nat
  items : Mask
  live : Mask
  pcs : List Nat
  group : Option Nat
  trapCause : List Word
  trapPc : List Word
  pend : List Pend
  tx : Option Tx
  txCause : Nat
  keptBegin : Option Nat
  status : WaveStatus
  wake : List Loc
  sleepBegin : Nat
  handler : Option Handler
  yielded : Option (List WaveRef)
  yieldAt : Nat
  boosted : Bool
  readyAt : Nat
  groupIssues : Nat
  deriving DecidableEq, Repr

/-- The runs of consecutive id on which a predicate of a span is true (R273). -/
abbrev Runs := List (Nat × Nat)

/-- A sub-span of a launch or team span (R272 to R274): the ids it holds (as runs), its program counter, its
registers in U or A form, and its predicates as runs. -/
structure Sub where
  ids : Runs
  pc : Nat
  v : List Reg
  x : List Reg
  preds : List Runs
  deriving DecidableEq, Repr

/-- A segment entry (R293). -/
structure Seg where
  v : Bool
  x : Bool
  w : Bool
  rd : Bool
  limit : Nat
  base : Nat
  deriving DecidableEq, Repr

/-- A segment table as the core read it (R293). -/
structure SegTable where
  segs : List Seg
  ttbase : Nat
  ttcount : Nat
  deriving DecidableEq, Repr

/-- The inherited values of a region (R266, R267) as the sequencer last read them (R268). -/
structure Region where
  rcb : Nat
  ctxRcb : Nat
  prio : Nat
  world : Bool
  fdom : Nat
  modes : Nat
  forcepre : Bool
  cores : Nat
  memb : Nat
  slice : Nat
  waitb : Nat
  extw : List Nat
  deriving DecidableEq, Repr

/-- The kernel record (R102) and where its image lies: the global address of its text, and its handler kernel. -/
structure Kernel where
  krec : Nat
  text : Nat
  entry : Nat
  quota : Nat
  shape : List Nat
  scr : Nat
  sync : Nat
  acm : Nat
  split : Nat
  stages : List (Nat × Nat)
  base : Nat
  hEntry : Option Nat
  hParam : Nat
  deriving DecidableEq, Repr

/-- A placed image's kernel, as the loader registered it (R102, R107, R333). -/
structure Placed where
  node : Nat
  die : Nat
  ccn : Nat
  kernel : Kernel
  deriving DecidableEq, Repr

/-- A launch (R269 to R272). `subs` is its span while it is in its prelude. -/
structure Launch where
  num : Nat
  node : Nat
  die : Nat
  ccn : Nat
  record : Nat
  region : Region
  kernel : Kernel
  ext : List Nat
  flags : Nat
  gang : Nat
  doneVal : Nat
  doneAddr : Nat
  segs : SegTable
  k : List Word
  subs : List Sub
  dealt : Bool
  running : Bool
  held : Bool
  deriving DecidableEq, Repr

/-- A barrier object's masks (R201). -/
structure Barrier where
  off : Nat
  arrived : Mask
  ended0 : Mask
  deriving DecidableEq, Repr

/-- A stash window (R171). -/
structure Window where
  base : DWord
  off : Nat
  len : Nat
  deriving DecidableEq, Repr

/-- A team (R4, R275 to R287): its span until it is cut, its allocation and the state of R35 of team scope. `slots` gives
each wave's partition slot and row budget, taken at placement (R275, R278); `mt` is what its save image holds of MTDONE, SEQ and
COUNT (R28, R343). -/
structure Team where
  ref : TeamRef
  node : Nat
  die : Nat
  core : Option Nat
  placeTime : Nat
  waitSince : Nat
  world : Bool
  segs : SegTable
  k : List Word
  subs : List Sub
  cut : Bool
  slots : List (Nat × Nat)
  ended : Mask
  scratch : Memory
  acm : Memory
  barriers : List Barrier
  round : Option Round
  windows : List (Option Window)
  thr : List (Option Nat)
  saved : Bool
  mt : Nat × Nat
  deriving DecidableEq, Repr

/-- How a command signals completion (R75). -/
inductive Done
  | flag (n : Nat)
  | ws (off : Nat) (v : Word)
  | wsa (off : Nat) (v : Word)
  | wc (addr : Word) (v : Word)
  | wg (addr : DWord) (v : Word)
  | none
  deriving DecidableEq, Repr

/-- The state of a queued command (R225, R346): `started` holds the status with which its payload has ended (R226). -/
inductive CmdState
  | queued
  | held
  | started (status : Nat)
  deriving DecidableEq, Repr

/-- A pin of an axis entry (R308): handle, axis, generation at the translation, and the entry's words. -/
structure Pin where
  handle : Nat
  axis : Nat
  gen : Nat
  entry : Nat
  deriving DecidableEq, Repr

/-- A queued engine command, or the join of a QFENCE (R207, R217 to R228, R346). -/
structure Cmd where
  seq : Nat
  wave : Option WaveRef
  word : Word
  exw : Word
  ops : List Word
  mask : Mask
  b0 : List Word
  b1 : List Word
  done : Done
  state : CmdState
  pred : Option (Queue × Nat)
  progress : Nat
  pins : List Pin
  join : Option (Nat × List Queue)
  deriving DecidableEq, Repr

/-- A fault record (R339). -/
structure Record where
  kind : Nat
  code : Nat
  rcb : Nat
  save : Nat
  where_ : Nat
  mask : Nat
  seq : Nat
  pc : Nat
  gen : Nat
  time : Nat
  deriving DecidableEq, Repr

/-- A stream of a queue (R219): its counter, its commands, whether it is halted (R226), and the commands that failed or were
discarded (for R225). `resetOn` is the fault record with whose publication the core resets a halted stream, none while it waits for
the host (R341). -/
structure Stream where
  ref : StreamRef
  seq : Nat
  cmds : List Cmd
  halted : Bool
  resetOn : Option Record
  failed : List Nat
  deriving DecidableEq, Repr

/-- A core (R3, R29, R277, R302): split and world while it holds teams, MTDONE, and the translation caches. -/
structure Core where
  node : Nat
  die : Nat
  num : Nat
  split : Nat
  world : Bool
  mtSeq : Nat
  mtCount : Nat
  objs : List (Nat × Nat × List Byte)
  atc : List (Nat × Nat × Nat × Nat × Nat)
  deriving DecidableEq, Repr

/-- A peer table entry (R360). -/
structure Peer where
  ccn : Nat
  rcb : Nat
  v : Bool
  rgrant : BitVec 16
  wgrant : BitVec 16
  deriving DecidableEq, Repr

/-- A routing directory entry of one die and context (R365). -/
structure RouteDir where
  die : Nat
  ccn : Nat
  table : Nat
  addr : Nat
  count : Nat
  deriving DecidableEq, Repr

/-- An entry of a routing table held in the save pool (R365). -/
structure RouteWord where
  die : Nat
  ccn : Nat
  table : Nat
  expert : Nat
  w : DWord
  deriving DecidableEq, Repr

/-- The dispatch generation window of a context on a node (R369). -/
structure Gener where
  ccn : Nat
  cur : Nat
  retired : List (Nat × Nat)
  deriving DecidableEq, Repr

/-- A token in Geyser (R367, R368): the ring, the sender and the payload; in a packet, `more` marks a piece of a token above 256 bytes
behind which other pieces follow. -/
structure Token where
  ring : DWord
  ccn : Nat
  world : Bool
  gen : Nat
  payload : List Byte
  more : Bool
  srcNode : Nat
  srcRcb : Nat
  srcFdom : Nat
  seq : Nat
  wref : Nat
  deriving DecidableEq, Repr

/-- A send queue of a die for one destination node (R367); `blocked` while its delivery waits for a slot (R368), `since` the
time of its last new token. -/
structure SendQ where
  die : Nat
  dst : Nat
  tokens : List Token
  blocked : Bool
  since : Nat
  deriving DecidableEq, Repr

/-- Tokens waiting at the receiving Geyser for a free slot (R368); `line` is the key of line 0 of the first one's ring. -/
structure Delivery where
  node : Nat
  srcNode : Nat
  srcDie : Nat
  tokens : List Token
  line : Nat
  retry : Bool
  deriving DecidableEq, Repr

/-- The pieces of a token above 256 bytes that a node has received from a die, in order (R367). -/
structure Fragment where
  srcNode : Nat
  srcDie : Nat
  bytes : List Byte
  deriving DecidableEq, Repr

/-- The SPDM responder of a node (R382). -/
structure Spdm where
  adapter : Option Nat
  stage : Nat
  transcript : List Byte
  deriving DecidableEq, Repr

/-- A gang schedule record (R351). -/
structure GangSched where
  t0 : Nat
  slice : Nat
  grace : Nat
  gangs : List Nat
  deriving DecidableEq, Repr

/-- The gang state of a node (R350, R351): the schedule and whether the host installed it, the gang that runs, the next slice
boundary, the change in progress (its slice and its gang), and the generation with which the node's arrival has left it. -/
structure GangNode where
  sched : Option GangSched
  hosted : Bool
  cur : Option Nat
  slice : Nat
  prep : Option (Nat × Nat)
  arrivedAt : Option Nat
  deriving DecidableEq, Repr

/-- A node (R1 to R3, R304 to R307, R339, R360 to R372, R379 to R383). `ms` are the measurement slots as 512-bit
numbers of little-endian bytes; `counters` are those of R370 in its order. -/
structure Node where
  num : Nat
  booted : Bool
  svn : Nat
  fwDigest : Nat
  ms : List Nat
  secure : List Nat
  sfdom : Option Nat
  peers : List Peer
  fdoms : List (Nat × Nat)
  records : List (Nat × Record)
  counters : List Nat
  routes : List RouteDir
  hostRoutes : List RouteWord
  geners : List Gener
  sendqs : List SendQ
  frags : List Fragment
  disabled : List (List Nat)
  users : List (Nat × List Nat)
  spdm : Spdm
  gang : GangNode
  deriving DecidableEq, Repr

/-- A trap frame, or an image, in the save pool (R338, R345). -/
structure Frame where
  k22 : Word
  k23 : Word
  cause : Word
  tpc : Nat
  resume : Nat
  tmask : Mask
  exec : Mask
  flags : Nat
  faddr : DWord
  txs : Word
  time : Nat
  ldet : List Word
  entries : List Pend
  deriving DecidableEq, Repr

/-- A save-pool slot: the frame of a descheduled wave, or the image of a pre-empted context (R343 to R349). An image
holds the teams, waves, launches' spans and streams themselves, each marked `saved` in the state; this entry holds the
header of R345. The last three fields are the appendix of a deadlock snapshot (R352): sleeping waves with their lines, barrier
objects with PHASE, ARRIVED and EXPECT, and rings with their counters. -/
structure Save where
  num : Nat
  node : Nat
  frame : Option (WaveRef × Frame)
  image : Option (Nat × Nat × Nat)
  snapshot : List (WaveRef × List Loc)
  barriers : List (TeamRef × List Nat)
  rings : List (Nat × List Nat)
  deriving DecidableEq, Repr

/-- A context's entries in the distributor (R291) and its state (R263, R352): `watch` is the last record taken, whose NEXT
the sequencer watches (R269), `waits` the wait counters of its regions, `reported` the regions whose waiting has been
recorded. -/
structure Ctx where
  node : Nat
  ccn : Nat
  rcb : Nat
  deficit : List Int
  held : Option Nat
  waits : List (Nat × Nat)
  reported : List Nat
  watch : Nat
  deriving DecidableEq, Repr

/-- What a request packet does at its target (R357 to R362); `poison` is a store of poisoned bytes (R340). -/
inductive RemoteOp
  | load (lane : Nat) (reg : Nat) (n : Nat) (ty : Nat)
  | store (data : List Byte) (pc : Nat)
  | poison (data : List Byte)
  | atomic (lane : Nat) (reg : Nat) (word : Word) (exw : Word) (y : DWord) (c : DWord)
  | ring (lane : Nat) (reg : Nat) (op : Nat) (s : Word)
  | word (v : Word) (wh : Nat)
  deriving DecidableEq, Repr

/-- A packet in the fabric (R357, R358). -/
structure Packet where
  num : Nat
  stream : FabStream
  addr : DWord
  ccn : Nat
  world : Bool
  time : Nat
  wave : Option WaveRef
  pend : Nat
  op : Option RemoteOp
  tokens : List Token
  rcb : Nat
  fdom : Nat
  deriving DecidableEq, Repr

/-- A hardware barrier (R204): level, number, the instance (cluster, die, node or gang), the launch, its generation
and the teams that have arrived, with their objects' offsets; while `releasing`, those still to be released. `retired` holds the
generations that have left its window, with the time (R369), and `sent` is the time at which its release was sent (R358). -/
structure HwBarrier where
  level : Nat
  hwid : Nat
  inst : Nat
  launch : Nat
  gen : Nat
  teams : List (TeamRef × Nat)
  releasing : Bool
  retired : List (Nat × Nat)
  sent : Nat
  deriving DecidableEq, Repr

/-- An arrival under way to a hardware barrier (R204): the team and its object's offset, with the generation and the time at which it
was sent (R358). -/
structure HwArrival where
  level : Nat
  hwid : Nat
  inst : Nat
  launch : Nat
  gen : Nat
  team : TeamRef
  off : Nat
  time : Nat
  deriving DecidableEq, Repr

/-- A shoot-down of an edit for one core (R306): whether it has arrived, and the translations it still waits for. -/
structure Shoot where
  node : Nat
  die : Nat
  core : Nat
  edit : StreamRef
  handle : Nat
  axis : Nat
  arrived : Bool
  deriving DecidableEq, Repr

/-- A reply to a management request (R363): CODE, TAG, STATUS and the result bytes. -/
structure Reply where
  adapter : Nat
  node : Nat
  code : Nat
  tag : Nat
  status : Nat
  data : List Byte
  deriving DecidableEq, Repr

/-- The answer to a request of a host adapter (R361, R362): the bytes read or the old value, and the marks of a refusal or of poison. -/
structure HostAnswer where
  adapter : Nat
  node : Nat
  tag : Nat
  data : List Byte
  poison : Bool
  world : Bool
  deriving DecidableEq, Repr

/-- The gang barrier's root (R350): the change in progress with its generation, boundary and grace, the nodes that have
arrived, and the decision once made. -/
structure GangRoot where
  gen : Nat
  boundary : Nat
  grace : Nat
  arrived : List Nat
  decision : Option Bool
  deriving DecidableEq, Repr

/-- The party whose instruction `exec` runs: a wave, or a sub-span of a launch span or of a team span (R272). -/
inductive Party
  | none
  | wave (r : WaveRef)
  | team (t : TeamRef) (i : Nat)
  | launch (l : Nat) (i : Nat)
  deriving DecidableEq, Repr

/-- A place in the rotation of those who act (log 2): the next event of the agenda, a partition of a core, a span, or an event. -/
inductive Turn
  | agenda
  | part (node die core part : Nat)
  | span (p : Party)
  | event (i : Instr)
  deriving DecidableEq, Repr

/-- Why the machine stops. -/
inductive Fault
  /-- Raised by every access of a node's memory (Ops): a physical byte at or above region 393,216 (R372), which the
  spec says no node has. Safe: the machine stops where no hardware behaviour is stated. -/
  | absentPhysical
  deriving DecidableEq, Repr

/-- Why an instruction has no meaning. -/
inductive Refusal
  /-- Raised by an arm of `exec` that has no meaning yet. Safe: nothing can be proved of it. -/
  | notModelled (mnemonic : String)
  deriving DecidableEq, Repr

/-- The machine: a caldera of nodes, the replies and answers to its host, and the model's own bookkeeping (`stuck`, `cur`, `agenda`,
`queue`, `freeCtr`, `nextNum`), which notes/assumptions name. -/
structure State where
  mem : Memory
  poison : List Nat
  nodes : List Node
  ctxs : List Ctx
  placed : List Placed
  launches : List Launch
  teams : List Team
  waves : List Wave
  streams : List Stream
  cores : List Core
  packets : List Packet
  deadStreams : List FabStream
  deliveries : List Delivery
  barriers : List HwBarrier
  arrivals : List HwArrival
  shoots : List Shoot
  saves : List Save
  gangRoot : Option GangRoot
  replies : List Reply
  answers : List HostAnswer
  time : Nat
  freeCtr : Nat
  nextNum : Nat
  cur : Party
  agenda : List Instr
  queue : List Turn
  stuck : Option Fault
  deriving DecidableEq, Repr

/-- A node after device reset, before any firmware image is accepted (R356, R360, R370, R372, R374, R380, R381). -/
def Node.reset (n : Nat) : Node where
  num := n
  booted := false
  svn := 0
  fwDigest := 0
  ms := [0, 0, 0, 0, 0, 0, 0, 0]
  secure := []
  sfdom := none
  peers := []
  fdoms := []
  records := []
  counters := [0, 0, 0, 0, 0, 0]
  routes := []
  hostRoutes := []
  geners := []
  sendqs := []
  frags := []
  disabled := [[], [], [], []]
  users := []
  spdm := ⟨none, 0, []⟩
  gang := ⟨none, false, none, 0, none, none⟩

/-- The machine right after reset: one node, nothing placed, nothing queued, memory with nothing listed. -/
def State.reset : State where
  mem := []
  poison := []
  nodes := [Node.reset 0]
  ctxs := []
  placed := []
  launches := []
  teams := []
  waves := []
  streams := []
  cores := []
  packets := []
  deadStreams := []
  deliveries := []
  barriers := []
  arrivals := []
  shoots := []
  saves := []
  gangRoot := none
  replies := []
  answers := []
  time := 0
  freeCtr := 0
  nextNum := 1
  cur := .none
  agenda := []
  queue := []
  stuck := none

end Sys2Proof.Machine
end

