-- ==== Sys2Proof/Machine/Ops.lean ====
section
/-! DEFINITION. The named operations over memory and state: bytes, segments, worlds, lines watched by transactions and
sleepers, fault records, and taking a trap. -/
namespace Sys2Proof.Machine
open Sys2Proof

/-! ### Memory -/

/-- What an address that memory does not list reads as (log 1). -/
def unlisted : Byte := 0

/-- Read one byte. -/
def Memory.read : Memory → Nat → Byte
  | [], _ => unlisted
  | c :: t, a => if c.1 == a then c.2 else Memory.read t a

/-- Set [a, a + n) to what an unlisted address reads as. -/
def Memory.clear (m : Memory) (a n : Nat) : Memory := m.filter (fun c => !(a ≤ c.1 && c.1 < a + n))

/-- Put a cell before the first of a higher address. -/
def Memory.insert : Memory → Nat → Byte → Memory
  | [], a, b => [(a, b)]
  | c :: t, a, b => if a < c.1 then (a, b) :: c :: t else c :: Memory.insert t a b

/-- Write one byte, keeping the canonical form. -/
def Memory.write (m : Memory) (a : Nat) (b : Byte) : Memory := if b == unlisted then m.clear a 1 else (m.clear a 1).insert a b

/-- Every address of the list is above `lo`. -/
def Memory.above (lo : Nat) : Memory → Bool
  | [] => true
  | c :: _ => decide (lo < c.1)

/-- The canonical form: addresses strictly rising, no entry equal to what an unlisted address reads as. -/
def Memory.wf : Memory → Bool
  | [] => true
  | c :: t => c.2 != unlisted && Memory.above c.1 t && Memory.wf t

/-- Read `n` bytes from `a` upward. -/
def Memory.readN (m : Memory) (a : Nat) : Nat → List Byte
  | 0 => []
  | n + 1 => m.read a :: Memory.readN m (a + 1) n

/-- Write bytes from `a` upward. -/
def Memory.writeN (m : Memory) (a : Nat) : List Byte → Memory
  | [] => m
  | b :: t => Memory.writeN (m.write a b) (a + 1) t

/-- A little-endian word of `n` bytes (R6). -/
def Memory.word (m : Memory) (a n : Nat) : Nat := ofBytes (m.readN a n)

/-! ### Register files -/

/-- Change element `i` of a register file; an element that the list does not hold reads `d`. -/
def updFile {α : Type} (d : α) : List α → Nat → (α → α) → List α
  | [], 0, f => [f d]
  | h :: t, 0, f => f h :: t
  | [], i + 1, f => d :: updFile d [] i f
  | h :: t, i + 1, f => h :: updFile d t i f

/-- Set element `i` of a register file. -/
def setFile {α : Type} (d : α) (l : List α) (i : Nat) (v : α) : List α := updFile d l i (fun _ => v)

/-! ### Looking up and replacing pieces of state -/

/-- The wave of a reference. -/
def State.wave? (s : State) (r : WaveRef) : Option Wave := s.waves.find? (fun w => w.ref == r)
/-- The team of a reference. -/
def State.team? (s : State) (r : TeamRef) : Option Team := s.teams.find? (fun t => t.ref == r)
/-- The launch of a number. -/
def State.launch? (s : State) (n : Nat) : Option Launch := s.launches.find? (fun l => l.num == n)
/-- The node of a number. -/
def State.node? (s : State) (n : Nat) : Option Node := s.nodes.find? (fun d => d.num == n)
/-- The stream of a reference. -/
def State.stream? (s : State) (r : StreamRef) : Option Stream := s.streams.find? (fun q => q.ref == r)
/-- The core of a die. -/
def State.core? (s : State) (node die c : Nat) : Option Core :=
  s.cores.find? (fun k => k.node == node && k.die == die && k.num == c)
/-- Replace a wave by one of the same reference. -/
def State.setWave (s : State) (w : Wave) : State := { s with waves := s.waves.map (fun v => if v.ref == w.ref then w else v) }
/-- Replace a team by one of the same reference. -/
def State.setTeam (s : State) (t : Team) : State := { s with teams := s.teams.map (fun v => if v.ref == t.ref then t else v) }
/-- Change the team of a reference. -/
def State.modTeam (s : State) (t : TeamRef) (f : Team → Team) : State :=
  { s with teams := s.teams.map (fun v => if v.ref == t then f v else v) }
/-- Replace a launch by one of the same number. -/
def State.setLaunch (s : State) (l : Launch) : State :=
  { s with launches := s.launches.map (fun v => if v.num == l.num then l else v) }
/-- Replace a node by one of the same number. -/
def State.setNode (s : State) (d : Node) : State := { s with nodes := s.nodes.map (fun v => if v.num == d.num then d else v) }
/-- Change the node of a number. -/
def State.modNode (s : State) (n : Nat) (f : Node → Node) : State :=
  { s with nodes := s.nodes.map (fun v => if v.num == n then f v else v) }
/-- Replace a stream by one of the same reference. -/
def State.setStream (s : State) (q : Stream) : State :=
  { s with streams := s.streams.map (fun v => if v.ref == q.ref then q else v) }
/-- Change a core of a die. -/
def State.modCore (s : State) (node die c : Nat) (f : Core → Core) : State :=
  { s with cores := s.cores.map (fun k => if k.node == node && k.die == die && k.num == c then f k else k) }

/-! ### Physical memory of the nodes -/

/-- The key of a node's physical byte in `State.mem`. -/
def physKey (node p : Nat) : Nat := node * 2 ^ 52 + p
/-- Physical bytes of a node: 393,216 regions of 2 MB (R372). -/
def physBytes : Nat := 393216 * 2 ^ 21

/-- Stop where a key range leaves the node's physical memory (R372). -/
def State.guardPhys (s : State) (key n : Nat) : State :=
  if key % 2 ^ 52 + n ≤ physBytes then s else { s with stuck := some .absentPhysical }

/-- Store bytes of physical memory from a key: the one place where bytes of a node's memory change, but for `wipe`. -/
def State.store (s : State) (key : Nat) (bs : List Byte) : State :=
  { s.guardPhys key bs.length with mem := s.mem.writeN key bs }

/-- Set `n` bytes of physical memory to what a byte that nothing has written reads as. -/
def State.wipe (s : State) (key n : Nat) : State := { s.guardPhys key n with mem := s.mem.clear key n }

/-- Clear the poison marks of `n` bytes (R340). -/
def State.unpoison (s : State) (key n : Nat) : State :=
  { s with poison := s.poison.filter (fun p => !(decide (key ≤ p) && decide (p < key + n))) }

/-- The outcome of a step whose next state is `s`: the fault it met, if any. -/
def settle (s : State) : Host.Outcome State Fault Refusal :=
  match s.stuck with
  | none => .next s
  | some f => .fault f

/-- Whether some byte of a key range lies in a secure region (R372, R373). -/
def State.secureAt (s : State) (key n : Nat) : Bool :=
  match s.node? (key / 2 ^ 52) with
  | none => false
  | some d => d.secure.any (fun r => decide (r * 2 ^ 21 < key % 2 ^ 52 + n) && decide (key % 2 ^ 52 < (r + 1) * 2 ^ 21))

/-- Whether some byte of a key range is poisoned (R340). -/
def State.poisonAt (s : State) (key n : Nat) : Bool := s.poison.any (fun p => decide (key ≤ p) && decide (p < key + n))

/-! ### Segments (R32, R293, R294) -/

/-- The access classes (R294, R330). -/
inductive Access | read | write | rmw | fetch
  deriving DecidableEq, Repr

/-- The code of an access class in DETAIL bits 3:2 (R330). -/
def Access.code : Access → Nat
  | .read => 0 | .write => 1 | .rmw => 2 | .fetch => 3

/-- The rights an access class needs (R294). -/
def Access.allowed (a : Access) (g : Seg) : Bool :=
  match a with
  | .read => g.rd
  | .write => g.w
  | .rmw => g.rd && g.w
  | .fetch => g.x

/-- A segment table entry that does not exist. -/
def Seg.absent : Seg := ⟨false, false, false, false, 0, 0⟩

/-- The segment check of R32 and R294: the physical byte, or the DETAIL of the first count that fails. -/
def SegTable.check (t : SegTable) (seg off n : Nat) (a : Access) : Except Nat Nat :=
  let g := t.segs.getD seg Seg.absent
  if !g.v then .error (2 + 4 * a.code)
  else if !a.allowed g then .error (1 + 4 * a.code)
  else if g.limit < off + n then .error (4 * a.code)
  else .ok (g.base + off)

/-- NODE of a global address (R32). -/
def gNode (a : Nat) : Nat := a / 2 ^ 56 % 256
/-- SEG of a global address (R32). -/
def gSeg (a : Nat) : Nat := a / 2 ^ 52 % 16
/-- OFFSET of a global address (R32). -/
def gOff (a : Nat) : Nat := a % 2 ^ 52

/-- Whether two global addresses of a node name one byte: NODE 255 is the node itself (R32). -/
def sameAddr (node a b : Nat) : Bool :=
  a % 2 ^ 56 == b % 2 ^ 56 && (gNode a == gNode b || ((gNode a == 255 || gNode a == node) && (gNode b == 255 || gNode b == node)))

/-- The outcome of the checks of a global address at the accessing party: a key, a trap, or another node's. -/
inductive Resolved
  | ok (key : Nat)
  | trap (cause detail : Nat)
  | remote (node : Nat)
  deriving DecidableEq, Repr

/-- The space and world checks of R163 for a global access of a party on `node` (R32, R359, R373). -/
def State.resolve (s : State) (node : Nat) (t : SegTable) (world : Bool) (addr n : Nat) (a : Access) : Resolved :=
  if gNode addr == 255 || gNode addr == node then
    match t.check (gSeg addr) (gOff addr) n a with
    | .error d => .trap 6 d
    | .ok p =>
      if !world && s.secureAt (physKey node p) n then .trap 7 (if a == .fetch then 2 else 0) else .ok (physKey node p)
  else .remote (gNode addr)

/-- A segment entry from its 16 bytes (R293). -/
def segOfNat (n : Nat) : Seg :=
  ⟨bitAt n 123, bitAt n 122, bitAt n 121, bitAt n 120, bits n 115 64, bits n 51 0⟩

/-- The segment table at a physical address of a node (R293; log 12). -/
def State.segTable (s : State) (node segt : Nat) : SegTable :=
  let p := physKey node (segt % 2 ^ 52)
  { segs := (List.range 16).map (fun i => segOfNat (s.mem.word (p + 16 * i) 16)),
    ttbase := s.mem.word (p + 256) 8, ttcount := s.mem.word (p + 264) 4 }

/-! ### Region control blocks (R266 to R268) -/

/-- A word of an RCB on a node (log 12). -/
def State.rcbWord (s : State) (node rcb off n : Nat) : Nat := s.mem.word (physKey node (rcb % 2 ^ 52) + off) n

/-- The chain of RCBs from a region to its root; none where an RCB comes twice. A node has room for `fuel` RCBs. -/
def State.rcbWalk (s : State) (node : Nat) : Nat → List Nat → Nat → Option (List Nat)
  | 0, _, _ => none
  | fuel + 1, seen, rcb =>
    let p := s.rcbWord node rcb 0 8
    if seen.contains (rcb % 2 ^ 52) then none
    else if p == 0 then some [rcb] else (s.rcbWalk node fuel (rcb % 2 ^ 52 :: seen) p).map (fun c => rcb :: c)

/-- The chain of RCBs from a region to its root (R267); empty where PARENT leads back into it. -/
def State.rcbChain (s : State) (node rcb : Nat) : List Nat := (s.rcbWalk node (2 ^ 44) [] rcb).getD []

/-- The nearest RCB of a chain whose OVR has a bit set (R267). -/
def State.rcbOwner (s : State) (node bit : Nat) (chain : List Nat) : Nat :=
  (chain.find? (fun r => bitAt (s.rcbWord node r 8 4) bit)).getD 0

/-- Whether the reserved fields of an RCB are zero and its fields within limits (R266). -/
def State.rcbOk (s : State) (node r : Nat) : Bool :=
  let ctrl := s.rcbWord node r 12 4
  let ovr := s.rcbWord node r 8 4
  r % 256 == 0 && decide (ovr < 512) && bits ctrl 31 24 == 0 && bits ctrl 22 22 == 0 && bits ctrl 7 5 == 0 &&
    s.rcbWord node r 0x14 4 == 0 && s.rcbWord node r 0x44 60 == 0 &&
    (!bitAt ovr 4 || (decide (1 ≤ s.rcbWord node r 0x10 4) && decide (s.rcbWord node r 0x10 4 ≤ 160))) &&
    (!bitAt ovr 6 || decide (1000 ≤ s.rcbWord node r 0x20 8)) && (!bitAt ovr 8 || decide (s.rcbWord node r 0x40 4 ≤ 16))

/-- The values of a region, inherited through its chain (R267); `none` where its launches are rejected with REGION. -/
def State.region? (s : State) (node rcb : Nat) : Option Region :=
  let chain := s.rcbChain node rcb
  let root := chain.getLast?.getD rcb
  let own (b : Nat) := s.rcbOwner node b chain
  let ctrl (b : Nat) := s.rcbWord node (own b) 12 4
  let world := bitAt (ctrl 1) 4
  let secureUnder (l : List Nat) : Bool := bitAt (s.rcbWord node (s.rcbOwner node 1 l) 12 4) 4
  let ctx := (chain.find? (fun r => s.rcbWord node r 0x30 8 != 0)).getD 0
  let mono := (List.range chain.length).all (fun i => !secureUnder (chain.drop i) || decide (chain.length ≤ i + 1) || secureUnder (chain.drop (i + 1)))
  if chain.isEmpty || !chain.all (s.rcbOk node) || s.rcbWord node root 8 4 != 511 || ctx == 0 || !mono ||
      (secureUnder [root] && !s.secureAt (physKey node (root % 2 ^ 52)) 256) then none
  else some {
    rcb := rcb, ctxRcb := ctx, prio := bits (ctrl 0) 3 0, world := world, fdom := bits (ctrl 2) 15 8,
    modes := bits (ctrl 3) 21 16 * 65536, forcepre := bitAt (ctrl 3) 23, cores := s.rcbWord node (own 4) 0x10 4,
    memb := s.rcbWord node (own 5) 0x18 8, slice := s.rcbWord node (own 6) 0x20 8, waitb := s.rcbWord node (own 7) 0x28 8,
    extw := (List.range (min 16 (s.rcbWord node (own 8) 0x40 4))).map (fun i => s.rcbWord node (own 8) (0x80 + 8 * i) 8) }

/-! ### Accesses of another node (R359, R361) -/

/-- The checks of R361 at a target node: the key, or the cause and DETAIL of the refusal (R362). An access of a host adapter's NODE,
192 to 254, meets no node and is refused like one of a NODE that is not attached (log 54, DESIGN CHOICE). -/
def State.remoteKey (s : State) (node ccn : Nat) (world : Bool) (addr n : Nat) (a : Access) : Except (Nat × Nat) Nat :=
  match s.node? node with
  | none => .error (6, 2 + 4 * a.code)
  | some d =>
    match d.peers.find? (fun p => p.ccn == ccn) with
    | none => .error (6, 2 + 4 * a.code)
    | some p =>
      let g := gSeg addr
      if !p.v then .error (6, 2 + 4 * a.code)
      else if (a == .read && !p.rgrant.getLsbD g) || (a == .write && !p.wgrant.getLsbD g) ||
          (a == .rmw && !(p.rgrant.getLsbD g && p.wgrant.getLsbD g)) then .error (6, 1 + 4 * a.code)
      else
        match (s.segTable node (s.rcbWord node p.rcb 0x30 8)).check g (gOff addr) n a with
        | .error e => .error (6, e)
        | .ok o => if !world && s.secureAt (physKey node o) n then .error (7, 0) else .ok (physKey node o)

/-- The checks of an access that a die makes at another node: those of R361, or none where the stream of its requests, or that of
the answers it needs, has failed (R342; log 47): then it comes to nothing, and the cause is 0. -/
def State.reachKey (s : State) (node die ccn : Nat) (world : Bool) (m addr n : Nat) (a : Access) : Except (Nat × Nat) Nat :=
  if s.deadStreams.contains ⟨.request, node, die, m⟩ || (a != .write && s.deadStreams.contains ⟨.response, m, die, node⟩) then .error (0, 0)
  else s.remoteKey m ccn world addr n a

/-- A global access that a die makes at once, local or remote: the key, or the cause and DETAIL of the failed check, with whether
it was made at another node (R32, R342, R359, R361, R373). -/
def State.globalKey (s : State) (node die ccn : Nat) (t : SegTable) (world : Bool) (addr n : Nat) (a : Access) :
    Except (Nat × Nat × Bool) Nat :=
  match s.resolve node t world addr n a with
  | .ok k => .ok k
  | .trap c d => .error (c, d, false)
  | .remote m => match s.reachKey node die ccn world m addr n a with
    | .ok k => .ok k
    | .error (c, d) => .error (c, d, true)

/-! ### Fault records (R339, R374) -/

/-- Queue a fault record of a node for a domain; it is placed by FAULT_RECORD. -/
def State.publish (s : State) (node fdom : Nat) (r : Record) : State :=
  s.modNode node (fun d => { d with records := d.records ++ [(fdom, r)] })

/-- The WHERE word of a record (R339). -/
def whereWord (node die core part slot queue : Nat) : Nat :=
  node + die * 2 ^ 8 + core * 2 ^ 10 + part * 2 ^ 18 + slot * 2 ^ 20 + queue * 2 ^ 24

/-- Add one to a counter of R370. -/
def State.bump (s : State) (node i : Nat) : State := s.modNode node (fun d => { d with counters := modAt d.counters i (· + 1) })

/-- The world violation notice of R374. -/
def State.worldNotice (s : State) (node code rcb wh : Nat) : State :=
  match (s.node? node).bind (·.sfdom) with
  | none => s.bump node 4
  | some f => s.publish node f ⟨8, code, rcb, 0, wh, 0, 0, 0, 0, s.time⟩

/-! ### Waves: groups, transactions, sleep -/

/-- The items that may issue: the handler's running items while a handler runs (R334), else the live items. -/
def Wave.candidates (w : Wave) : Mask :=
  match w.handler with
  | none => w.live
  | some h => h.running &&& w.live

/-- A lane's program counter. -/
def Wave.pcOf (w : Wave) (l : Nat) : Nat := w.pcs.getD l 0

/-- The lowest program counter of some lanes. -/
def Wave.lowPc (w : Wave) (m : Mask) : Nat :=
  (maskLanes m).foldl (fun b l => min b (w.pcOf l)) (2 ^ 32)

/-- The lanes of a mask at a program counter. -/
def Wave.atPc (w : Wave) (m : Mask) (pc : Nat) : Mask := m &&& maskOf (fun l => w.pcOf l == pc)

/-- The program counter of the issuing group (R26, R150). -/
def Wave.groupPc (w : Wave) : Nat :=
  match w.group with
  | some p => if w.atPc w.candidates p == 0 then w.lowPc w.candidates else p
  | none => w.lowPc w.candidates

/-- The current execution mask: the issuing group (R28, R150). -/
def Wave.exec (w : Wave) : Mask := w.atPc w.candidates w.groupPc

/-- Whether the wave is in per-item fallback (R26, R150): its items stand at different program counters. -/
def Wave.fallback (w : Wave) : Bool := w.exec != w.candidates

/-- Set the program counter of some lanes. -/
def Wave.setPc (w : Wave) (m : Mask) (pc : Nat) : Wave :=
  { w with pcs := lanes.map (fun l => if m.getLsbD l then pc else w.pcOf l) }

/-- The lanes that a transaction's abort or RETRY moves: while a handler group runs, the wave's other items stay held where they
are (R334). -/
def Wave.txLanes (w : Wave) : Mask :=
  match w.handler with
  | none => 0xFFFFFFFF
  | some h => h.running

/-- Abort the open transaction (R189, R193): discard writes and the LX entries issued inside it, record the cause,
continue at the abort target. -/
def Wave.abortTx (w : Wave) (cause : Nat) : Wave :=
  match w.tx with
  | none => w
  | some t =>
    { w with tx := none, txCause := cause, keptBegin := if cause == 1 then some t.begun else none,
             pend := w.pend.filter (fun e => decide (e.key < t.firstPend)), pcs := lanes.map (fun l => if w.txLanes.getLsbD l then t.abortPc else w.pcOf l) }

/-- TXSTAT (R28). -/
def Wave.txstat (w : Wave) : Nat :=
  w.txCause * 4096 + (match w.tx with
    | none => 0
    | some t => t.alts.length * 256 + t.depth)

/-- Wake a sleeping wave: it restarts at the outermost TXBEGIN with cause RETRY (R192, R195). -/
def Wave.wakeUp (w : Wave) : Wave :=
  if w.status == .asleep then { w with status := .ready, wake := [], txCause := 4 } else w

/-- The 128-byte line of a byte (R185). -/
def Loc.line : Loc → Loc
  | .glob a => .glob (a / 128 * 128)
  | .scr t o => .scr t (o / 128 * 128)

/-- The lines of `n` bytes from a location. -/
def linesOf (l : Loc) (n : Nat) : List Loc :=
  match l with
  | .glob a => (List.range ((a % 128 + n + 127) / 128)).map (fun i => .glob (a / 128 * 128 + 128 * i))
  | .scr t o => (List.range ((o % 128 + n + 127) / 128)).map (fun i => .scr t (o / 128 * 128 + 128 * i))

/-- A non-transactional write to a line: wake its sleepers, abort the transactions that hold it (R188, R195), and let the deliveries
that wait for it try again (R368). -/
def State.touch (s : State) (line : Loc) (by_ : Option WaveRef) : State :=
  { s with
    waves := s.waves.map (fun w =>
      if w.status == .asleep && w.wake.contains line then w.wakeUp
      else match w.tx with
        | none => w
        | some t => if (t.rlines.contains line || t.wlines.contains line) && by_ != some w.ref then w.abortTx 1 else w)
    deliveries := s.deliveries.map (fun d =>
      if line == .glob d.line then { d with retry := true } else d) }

/-- Touch every line of a list. -/
def State.touchAll (s : State) (ls : List Loc) (by_ : Option WaveRef) : State := ls.foldl (fun s l => s.touch l by_) s

/-- Write bytes of physical memory: no other party's transaction or sleeper misses it, and its poison is cleared. -/
def State.wrPhys (s : State) (key : Nat) (bs : List Byte) (by_ : Option WaveRef) : State :=
  ((s.store key bs).unpoison key bs.length).touchAll (linesOf (.glob key) bs.length) by_

/-- Read bytes of physical memory. -/
def State.rdPhys (s : State) (key n : Nat) : List Byte := s.mem.readN key n

/-- The notice of a failed world check (R374), for an access at its party; a marked lane read as a source (DETAIL 1) is none. -/
def State.worldTrapNotice (s : State) (t : Team) (w : Wave) (l : Launch) (c d : Nat) : State :=
  if c == 7 && d != 1 then s.worldNotice t.node (c + 256 * d) l.region.rcb (whereWord t.node t.die (t.core.getD 0) w.part w.slot 0)
  else s

/-- The notice of a world check that failed at another node (R374): the security controller is that of the node. -/
def State.awayNotice (s : State) (t : Team) (w : Wave) (l : Launch) (node c d : Nat) : State :=
  if c == 7 then s.worldNotice node (c + 256 * d) l.region.rcb (whereWord t.node t.die (t.core.getD 0) w.part w.slot 0) else s

/-! ### The trap frame (R335, R336) -/

/-- The words of a captured operand for one lane. -/
def Cap.laneWords (c : Cap) (l : Nat) : List Word :=
  match c with
  | .lane ws => ws.getD l []
  | _ => []

/-- The k-register words of a captured operand. -/
def Cap.uniWords : Cap → List Word
  | .uni ws => ws
  | _ => []

/-- A list padded with zeros, or cut, to `n` words. -/
def padWords (n : Nat) (l : List Word) : List Word := (List.range n).map (fun i => l.getD i 0)

/-- Whether a captured word's data operand comes last (R336): STT, and the compare value of `.cas`. -/
def capDLast (w : Word) (x : Word) : Bool :=
  w.maj == 0x5F || ((w.maj == 0x68 || w.maj == 0x69 || w.maj == 0x6A) && exFx (some (Ex.ofWord x)) == 8)

/-- The captured return value of a performed entry for a lane, as two words (R336). -/
def Pend.returned (e : Pend) (l : Nat) : List Word :=
  (List.range 2).map (fun i =>
    match (e.writes.getD i (116, {})).2.form with
    | .m ls => ls.getD l 0
    | .u b => b
    | _ => 0)

/-- The 8 operand words of a lane of an entry (R336). -/
def Pend.laneOps (e : Pend) (l : Nat) : List Word :=
  let d := e.cd.laneWords l
  let ab := e.ca.laneWords l ++ e.cb.laneWords l
  let ws := padWords 8 (if capDLast e.word e.exw then ab ++ d else d ++ ab)
  if e.performed then ws.take 6 ++ e.returned l else ws

/-- WIN of an entry over the live items of its wave (R336). -/
def Pend.winOf (e : Pend) (live : Mask) : Nat := (maskLanes live).foldl (fun b l => min b (e.win.getD l 0)) 15

/-- The 32-byte descriptor of an entry (R336). -/
def Pend.descriptor (e : Pend) (live : Mask) : List Byte :=
  toBytes 4 e.word.toNat ++ toBytes 4 e.exw.toNat ++ toBytes 4 e.mask.toNat ++
    toBytes 4 (1 + (if e.performed then 2 else 0) + 256 * e.winOf live) ++
    (padWords 4 (e.cd.uniWords ++ e.ca.uniWords ++ e.cb.uniWords)).flatMap (fun w => toBytes 4 w.toNat)

/-- The 17,408 bytes of a frame (R335). -/
def Frame.bytes (f : Frame) (live : Mask) : List Byte :=
  toBytes 4 f.k22.toNat ++ toBytes 4 f.k23.toNat ++ toBytes 4 f.cause.toNat ++ toBytes 4 f.tpc ++ toBytes 4 f.resume ++
  toBytes 4 f.tmask.toNat ++ toBytes 4 f.exec.toNat ++ toBytes 4 f.flags ++ toBytes 8 f.faddr.toNat ++
  toBytes 4 (2 ^ f.entries.length - 1) ++ toBytes 4 f.txs.toNat ++ toBytes 8 f.time ++ toBytes 8 0 ++
  (padWords 32 f.ldet).flatMap (fun w => toBytes 4 w.toNat) ++ toBytes 320 0 ++
  (List.range 16).flatMap (fun e => match f.entries[e]? with
    | none => toBytes 32 0
    | some p => p.descriptor live) ++
  (List.range 16).flatMap (fun e => match f.entries[e]? with
    | none => toBytes 1024 0
    | some p => lanes.flatMap (fun l => (p.laneOps l).flatMap (fun w => toBytes 4 w.toNat)))

/-! ### Taking a trap (R329 to R334, R338) -/

/-- What a trap needs to know (R331): cause, DETAIL, the handler group, the trapping instruction's address, and the
faulting address or index of each lane (R335), the cause with which it aborts a transaction (R186, R193), and EXEC and
FALLBACK at the trap (R335) where the group's other items have gone on. -/
structure TrapInfo where
  cause : Nat
  detail : Nat
  group : Mask
  pc : Nat
  addrs : List (Nat × Nat) := []
  abort : Nat := 9
  seen : Option (Mask × Bool) := none
  deriving DecidableEq, Repr

/-- Whether a cause is a trap, which resumes after the instruction (R329). -/
def isTrapKind (cause : Nat) : Bool := cause == 0x0E || cause == 0x0F

/-- Whether a group goes to the host (R332). -/
def toHost (modes cause : Nat) (hasHandler : Bool) : Bool :=
  cause == 0x11 || cause == 0x10 || ((cause == 8 || cause == 9) && bitAt modes 16) || (cause == 0x0B && bitAt modes 19) ||
    (cause == 0x0E && bitAt modes 21) || !hasHandler

/-- The address of a wave's frame slot (R333). -/
def frameSlot (f die core part slot : Nat) : Nat := (f + 0x4400 * (10240 * die + 64 * core + 16 * part + slot)) % 2 ^ 64

/-- Leave a wave descheduled for replay: its frame goes to the save pool and a KIND 1 record is published (R338). -/
def State.deschedule (s : State) (w : Wave) (t : Team) (r : Region) (f : Frame) : State :=
  let n := s.nextNum
  let wh := whereWord t.node t.die (t.core.getD 0) w.part w.slot 0
  let s1 : State := { s with nextNum := n + 1, saves := s.saves ++ [⟨n, t.node, some (w.ref, f), none, [], [], []⟩] }
  (s1.setWave { w with status := .descheduled n, pend := [], group := none }).publish t.node r.fdom
    ⟨1, f.cause.toNat, r.rcb, n, wh, f.tmask.toNat, 0, f.tpc, 0, s.time⟩

/-- Whether request packets of a die are under way (R357). -/
def State.dieSends (s : State) (node die : Nat) : Bool :=
  s.packets.any (fun p => p.stream.cls == .request && p.stream.node == node && p.stream.die == die)

/-- Whether requests of a wave to other nodes are still under way. -/
def State.inFlight (s : State) (r : WaveRef) : Bool := s.packets.any (fun p => p.wave == some r && p.stream.cls == .request)

/-- Drop the loads of a wave that are under way to other nodes: a withdrawn load is issued again (R165, R331). -/
def State.dropLoads (s : State) (r : WaveRef) : State :=
  { s with packets := s.packets.filter (fun p => !(p.wave == some r && (match p.op with
    | some (.load _ _ _ _) => true
    | _ => false))) }

/-- Whether an update of a wave at another node, whose value the wave waits for, is under way (R165). -/
def State.updating (s : State) (r : WaveRef) : Bool :=
  s.packets.any (fun p => p.wave == some r && (match p.op with
    | some (.atomic _ _ _ _ _ _) => p.pend != 0
    | some (.ring _ _ _ _) => true
    | _ => false))

/-- The group takes its trap: the shared operation of every exception (R331 to R338). `len` is the length in bytes of
the trapping instruction. -/
def State.takeTrap (s : State) (r : WaveRef) (ti : TrapInfo) (len : Nat) : State :=
  match s.wave? r, s.team? r.team, s.launch? r.team.launch with
  | some w0, some t, some l =>
    let (exec, fb) := ti.seen.getD (w0.exec, w0.fallback)
    let txab := w0.tx.isSome
    let resume := match w0.tx with
      | some x => x.abortPc
      | none => if isTrapKind ti.cause then ti.pc + len else ti.pc
    let w := w0.abortTx ti.abort
    let second := w.handler.isSome
    let cause0 := if second then 0x11 else ti.cause
    let code0 := if second then 0x11 else ti.cause + 256 * ti.detail
    let first := (maskLanes ti.group).headD 0
    let addrOf (i : Nat) : Nat := ((ti.addrs.find? (fun p => p.1 == i)).map Prod.snd).getD 0
    let frame (code : Nat) : Frame :=
      { k22 := w.k.getD 22 0, k23 := w.k.getD 23 0, cause := BitVec.ofNat 32 code, tpc := ti.pc, resume := resume,
        tmask := ti.group, exec := exec, flags := b2n fb + 2 * b2n txab, faddr := BitVec.ofNat 64 (if ti.cause == 8 || ti.cause == 9 then 0 else addrOf first),
        txs := BitVec.ofNat 32 w.txstat, time := s.time,
        ldet := lanes.map (fun i => if ti.group.getLsbD i then BitVec.ofNat 32 (addrOf i) else 0), entries := w.pend }
    let mark (code : Nat) (v : Wave) : Wave :=
      { v with
        trapCause := lanes.map (fun i => if ti.group.getLsbD i then BitVec.ofNat 32 code else v.trapCause.getD i 0)
        trapPc := lanes.map (fun i => if ti.group.getLsbD i then BitVec.ofNat 32 ti.pc else v.trapPc.getD i 0) }
    let s := s.dropLoads r
    if toHost l.region.modes cause0 l.kernel.hEntry.isSome then s.deschedule (mark code0 w) t l.region (frame code0)
    else
      let slot := frameSlot l.kernel.hParam t.die (t.core.getD 0) w.part w.slot
      match s.globalKey t.node t.die l.ccn t.segs t.world slot 0x4400 .write with
      | .ok key =>
        let w1 := (mark code0 w).setPc ti.group (l.kernel.hEntry.getD 0)
        (s.wrPhys key ((frame code0).bytes w.live) none).setWave
          { w1 with pend := [], group := none,
                    k := setFile 0 (setFile 0 w.k 22 (BitVec.ofNat 32 slot)) 23 (BitVec.ofNat 32 (slot / 2 ^ 32)),
                    handler := some ⟨BitVec.ofNat 64 slot, ti.group, ti.group, fb⟩ }
      | _ => s.deschedule (mark 0x11 w) t l.region (frame 0x11)
  | _, _, _ => s

end Sys2Proof.Machine
end

