-- ==== Sys2Proof/Machine/Operands.lean ====
section
/-! DEFINITION. Every operand form: reading registers through their forms (R10 to R19, R109), the form of a result
(R20, R112), writing under full and partial masks (R21), marks (R340, R373), captured operands (R69). -/
namespace Sys2Proof.Machine
open Sys2Proof

/-! ### Items -/

/-- Where a wave's items lie (R12, R275): extents, team shape, team, wave, and the time of the step. -/
structure Geo where
  ext : List Nat
  shape : List Nat
  tm : Nat
  wave : Nat
  salt : Nat
  deriving DecidableEq, Repr

/-- The coordinates of position `pos` of a team (R12, R275); `none` where no item stands there. -/
def itemCoord (ext shape : List Nat) (tm pos : Nat) : Option (Nat × Nat × Nat) :=
  let ea := ext.getD 0 1
  let eb := ext.getD 1 1
  let ec := ext.getD 2 1
  let ta := max 1 (shape.getD 0 1)
  let tb := max 1 (shape.getD 1 1)
  let tc := max 1 (shape.getD 2 1)
  let na := max 1 (ceilDiv ea ta)
  let nb := max 1 (ceilDiv eb tb)
  let a := tm % na * ta + pos % ta
  let b := tm / na % nb * tb + pos / ta % tb
  let c := tm / na / nb * tc + pos / ta / tb
  if pos < ta * tb * tc && a < ea && b < eb && c < ec then some (a, b, c) else none

/-- The flattened index of coordinates (R12). -/
def flatId (ext : List Nat) (p : Nat × Nat × Nat) : Nat := p.1 + ext.getD 0 1 * (p.2.1 + ext.getD 1 1 * p.2.2)

/-- The selector code of an index (R19). -/
def Sel.code : Sel → Nat
  | .id => 0 | .ia => 1 | .ib => 2 | .ic => 3 | .lane => 4

/-- The index x(i) that a selector names, for the item of a lane (R19); opaque where the lane holds no item. -/
def Geo.index (g : Geo) (sel : Sel) (l : Nat) : Nat :=
  match sel with
  | .lane => l
  | _ =>
    match itemCoord g.ext g.shape g.tm (32 * g.wave + l) with
    | none => (Config.noItemIndex sel.code l).toNat
    | some p => match sel with
      | .ia => p.1
      | .ib => p.2.1
      | .ic => p.2.2
      | _ => flatId g.ext p

/-- The index that a selector names, for the item of a flattened index in a span (R19, R159). -/
def idIndex (ext : List Nat) (sel : Sel) (i : Nat) : Nat :=
  match sel with
  | .id => i
  | .ia => i % max 1 (ext.getD 0 1)
  | .ib => i / max 1 (ext.getD 0 1) % max 1 (ext.getD 1 1)
  | .ic => i / max 1 (ext.getD 0 1 * ext.getD 1 1)
  | .lane => 0

/-! ### Forms -/

/-- The 32-bit value of a form for lane `l`, `ix` giving the indices (R19). -/
def Form.at (f : Form) (ix : Sel → Nat → Nat) (l : Nat) : Nat :=
  match f with
  | .u b => b.toNat
  | .a b s sel => (b.toNat + s.toNat * ix sel l) % 2 ^ 32
  | .alo b s sel => (b.toNat + s.toNat * ix sel l) % 2 ^ 32
  | .ahi b s sel => (b.toNat + s.toNat * ix sel l) % 2 ^ 64 / 2 ^ 32
  | .n wide b d => ofInt 32 ((b.toNat : Int) + toSigned (if wide then 16 else 8) (d.getD l 0).toNat)
  | .m ls => (ls.getD l 0).toNat

/-- The tag code of a form (R19). -/
def Form.tag : Form → Nat
  | .u _ => 0 | .a _ _ _ => 1 | .alo _ _ _ => 1 | .ahi _ _ _ => 1 | .n _ _ _ => 2 | .m _ => 3

/-- A source operand: one value, an affine value of width `w`, or a value per lane. -/
inductive Src
  | uni (v : Nat)
  | aff (b s : Nat) (sel : Sel) (w : Nat)
  | per (vs : List Nat)
  deriving DecidableEq, Repr

/-- The value of a source in lane `l`. -/
def Src.at (s : Src) (ix : Sel → Nat → Nat) (l : Nat) : Nat :=
  match s with
  | .uni v => v
  | .aff b st sel w => (b + st * ix sel l) % 2 ^ w
  | .per vs => vs.getD l 0

/-- Whether a source is uniform (R113). -/
def Src.isUni : Src → Bool
  | .uni _ => true
  | _ => false

/-- The registers that an instruction reads and writes through: those of a wave, or of a sub-span (R10). -/
structure View where
  v : List Reg
  x : List Reg
  k : List Word
  wb : Nat
  quota : Nat
  wv : Nat
  tm : Nat
  deriving DecidableEq, Repr

/-- The vector or index register of a field value (R10, R13). -/
def View.reg (w : View) (c : Nat) : Reg :=
  if c < 88 then w.v.getD (w.wb + c) {} else w.x.getD (c - 112) {}

/-- A 32-bit source read through a form. -/
def srcOfForm (f : Form) (ix : Sel → Nat → Nat) : Src :=
  match f with
  | .u b => .uni b.toNat
  | .a b s sel => .aff b.toNat s.toNat sel 32
  | .alo b s sel => .aff (b.toNat % 2 ^ 32) (s.toNat % 2 ^ 32) sel 32
  | f => .per (lanes.map (f.at ix))

/-- A 64-bit source read from a pair of forms (R14, R19). -/
def srcOfPair (lo hi : Form) (ix : Sel → Nat → Nat) : Src :=
  let each : Src := .per (lanes.map (fun l => lo.at ix l + 2 ^ 32 * hi.at ix l))
  match lo, hi with
  | .u a, .u b => .uni (a.toNat + 2 ^ 32 * b.toNat)
  | .alo b s sel, .ahi b' s' sel' => if b == b' && s == s' && sel == sel' then .aff b.toNat s.toNat sel 64 else each
  | _, _ => each

/-- The source of a register field of `n` registers (R10 to R14; log 10 for index register pairs). -/
def View.src (w : View) (ix : Sel → Nat → Nat) (n c : Nat) : Src :=
  let wd := if n == 2 then 64 else 32
  if isV c || isX c then
    let r2 : Reg := if c == 115 then {} else w.reg (c + 1)
    if n == 2 then srcOfPair (w.reg c).form r2.form ix else srcOfForm (w.reg c).form ix
  else if isK c then
    .uni ((w.k.getD (c - 88) 0).toNat + (if n == 2 then 2 ^ 32 * (w.k.getD (c - 87) 0).toNat else 0))
  else match c with
    | 117 => .aff 0 1 .id wd
    | 118 => .aff 0 1 .ia wd
    | 119 => .aff 0 1 .ib wd
    | 120 => .aff 0 1 .ic wd
    | 121 => .aff 0 1 .lane wd
    | 122 => .uni w.wv
    | 123 => .uni w.tm
    | _ => .uni 0

/-- Poison and world-violation marks of the lanes of a register field (R340, R373). -/
def View.marks (w : View) (n c : Nat) : Mask × Mask :=
  if isV c || isX c then
    let r := w.reg c
    let r2 : Reg := if n == 2 && c != 115 then w.reg (c + 1) else {}
    (r.poison ||| r2.poison, r.world ||| r2.world)
  else (0, 0)

/-- Whether a vector field of `n` registers lies inside the quota (R13). -/
def View.inQuota (w : View) (n c : Nat) : Bool := !isV c || decide (w.wb + c + n ≤ w.quota)

/-! ### Results -/

/-- A result: one value, an affine value, a value per lane, a narrow value per lane about a base (R20, R112, R162), or
the form of a register that is copied (R133). -/
inductive Out
  | uni (v : Nat)
  | aff (b s : Nat) (sel : Sel) (w : Nat)
  | per (vs : List Nat)
  | narrow (wide : Bool) (base : Nat) (vs : List Nat)
  | copy (f : Form)
  deriving DecidableEq, Repr

/-- The affine rules of R20. -/
inductive AffRule
  | none
  | add
  | sub
  | mul
  | shl
  | lea (signed : Bool)
  deriving DecidableEq, Repr

/-- The affine result of a rule, if the sources have one (R20). -/
def affine (rule : AffRule) (w : Nat) (srcs : List Src) : Option Out :=
  let md (e : Int) : Nat := ofInt w e
  match rule, srcs with
  | .add, [.aff b s sel _, .uni c] => some (.aff (md (b + c)) s sel w)
  | .add, [.uni c, .aff b s sel _] => some (.aff (md (b + c)) s sel w)
  | .add, [.aff b s sel _, .aff b' s' sel' _] => if sel == sel' then some (.aff (md (b + b')) (md (s + s')) sel w) else none
  | .sub, [.aff b s sel _, .uni c] => some (.aff (md ((b : Int) - c)) s sel w)
  | .sub, [.uni c, .aff b s sel _] => some (.aff (md ((c : Int) - b)) (md (-(s : Int))) sel w)
  | .sub, [.aff b s sel _, .aff b' s' sel' _] =>
    if sel == sel' then some (.aff (md ((b : Int) - b')) (md ((s : Int) - s')) sel w) else none
  | .mul, [.aff b s sel _, .uni c] => some (.aff (md (b * c)) (md (s * c)) sel w)
  | .mul, [.uni c, .aff b s sel _] => some (.aff (md (b * c)) (md (s * c)) sel w)
  | .shl, [.aff b s sel _, .uni c] =>
    let n := c % 256
    if n < w then some (.aff (md (b * 2 ^ n : Nat)) (md (s * 2 ^ n : Nat)) sel w) else some (.aff 0 0 sel w)
  | .lea sg, [.aff b s sel _, .uni c] => some (.aff (md (b + (if sg then toSigned 32 c else (c : Int)))) s sel w)
  | _, _ => none

/-- The result of a function of the sources, in the form R20 gives it. Inactive lanes get 0, which nothing reads. -/
def outOf (rule : AffRule) (w : Nat) (srcs : List Src) (f : List Nat → Nat) (active : Mask) (ix : Sel → Nat → Nat) : Out :=
  if srcs.all Src.isUni then .uni (f (srcs.map (fun s => s.at ix 0)))
  else match affine rule w srcs with
    | some o => o
    | none => .per (lanes.map (fun l => if active.getLsbD l then f (srcs.map (fun s => s.at ix l)) else 0))

/-- The form of register `i` of a result (R14, R19). -/
def Out.form (o : Out) (i : Nat) : Form :=
  match o with
  | .uni v => .u (BitVec.ofNat 32 (v / 2 ^ (32 * i)))
  | .aff b s sel w =>
    if w == 64 then (if i == 0 then .alo (BitVec.ofNat 64 b) (BitVec.ofNat 64 s) sel else .ahi (BitVec.ofNat 64 b) (BitVec.ofNat 64 s) sel)
    else .a (BitVec.ofNat 32 b) (BitVec.ofNat 32 s) sel
  | .per vs => .m (vs.map (fun v => BitVec.ofNat 32 (v / 2 ^ (32 * i))))
  | .narrow wide base vs => .n wide (BitVec.ofNat 32 base) (vs.map (fun v => BitVec.ofNat 16 (v + 2 ^ 32 - base)))
  | .copy f => f

/-- The N form of results of an 8- or 16-bit type; results of any other type, and one value, keep their form
(R112, R162). -/
def Out.narrowed (o : Out) (ty : Nat) : Out :=
  match o with
  | .per vs => if tyWidth ty < 32 then .narrow (tyWidth ty == 16) (if tySigned ty then 0 else 2 ^ (tyWidth ty - 1)) vs else .per vs
  | .aff b s sel w => .aff b s sel w
  | o => o

/-- Write a form to a register under a mask (R21): a full mask gives the form, a partial mask materialises. -/
def Reg.put (r : Reg) (f : Form) (active live : Mask) (ix : Sel → Nat → Nat) (salt : Nat) : Reg :=
  if live &&& ~~~active == 0 then
    { form := match f with
        | .m ls => if live == 0xFFFFFFFF then .m ls
            else .m (lanes.map (fun l => if live.getLsbD l then ls.getD l 0 else Config.deadLane salt l))
        | .n wide b ds => if live == 0xFFFFFFFF then .n wide b ds
            else .n wide b (lanes.map (fun l => if live.getLsbD l then ds.getD l 0 else (Config.deadLane salt l).setWidth 16))
        | f => f
      poison := 0, world := 0 }
  else
    { form := .m (lanes.map (fun l => BitVec.ofNat 32 (if active.getLsbD l then f.at ix l else r.form.at ix l)))
      poison := r.poison &&& ~~~active, world := r.world &&& ~~~active }

/-- Materialise a register without changing a lane's value (R154). -/
def Reg.materialise (r : Reg) (ix : Sel → Nat → Nat) : Reg :=
  { r with form := .m (lanes.map (fun l => BitVec.ofNat 32 (r.form.at ix l))) }

/-- Change the vector or index register of a field value. -/
def View.modReg (w : View) (c : Nat) (f : Reg → Reg) : View :=
  if c < 88 then { w with v := updFile {} w.v (w.wb + c) f }
  else if isX c then { w with x := updFile {} w.x (c - 112) f } else w

/-- Write a result of `n` registers to a destination field (R10, R11, R14, R16, R21). -/
def View.put (w : View) (c n : Nat) (o : Out) (active live : Mask) (ix : Sel → Nat → Nat) (salt : Nat) : View :=
  if isK c then
    match o with
    | .uni v => { w with k := (List.range n).foldl (fun k i => setFile 0 k (c - 88 + i) (BitVec.ofNat 32 (v / 2 ^ (32 * i)))) w.k }
    | .copy (.u v) => { w with k := setFile 0 w.k (c - 88) v }
    | _ => w
  else (List.range n).foldl (fun w i => w.modReg (c + i) (fun r => r.put (o.form i) active live ix salt)) w

/-! ### Waves -/

/-- The view of a wave. -/
def Wave.view (w : Wave) : View := ⟨w.v, w.x, w.k, w.wb, w.quota, w.ref.num, w.ref.team.tm⟩

/-- A wave with the registers of a view. -/
def Wave.withView (w : Wave) (u : View) : Wave := { w with v := u.v, x := u.x, k := u.k }

/-- The geometry of a wave (R12, R275). -/
def State.geo (s : State) (w : Wave) : Geo :=
  match s.launch? w.ref.team.launch with
  | some l => ⟨l.ext, l.kernel.shape, w.ref.team.tm, w.ref.num, s.time⟩
  | none => ⟨[], [], 0, 0, s.time⟩

/-- A predicate of a wave as a mask; p0 reads true (R24). -/
def Wave.pred (w : Wave) (p : Nat) : Mask := if p % 8 == 0 then 0xFFFFFFFF else w.preds.getD (p % 8) 0

/-- The predicate that an EX selects, negated if it says so (R79). -/
def exPred (x : Option Ex) (p : Nat → Mask) : Mask :=
  match x with
  | none => 0xFFFFFFFF
  | some e => if e.neg then ~~~(p e.p.toNat) else p e.p.toNat

/-- The active items of an instruction (R24). -/
def Wave.active (w : Wave) (x : Option Ex) : Mask := w.exec &&& exPred x w.pred

/-- Write predicate p for the items of a mask; p0 discards (R24). -/
def Wave.setPred (w : Wave) (p : Nat) (active value : Mask) : Wave :=
  if p % 8 == 0 then w
  else { w with preds := updFile 0 w.preds (p % 8) (fun m => (m &&& ~~~active) ||| (value &&& active)) }

/-! ### Captured operands (R69, R336) -/

/-- Capture a source of `n` registers for the active lanes: of the wave if it is a uniform register, else per lane. -/
def captureSrc (n c : Nat) (s : Src) (active : Mask) (ix : Sel → Nat → Nat) : Cap :=
  let ws (v : Nat) : List Word := (List.range n).map (fun i => BitVec.ofNat 32 (v / 2 ^ (32 * i)))
  if c == 116 then .none
  else if isK c then .uni (ws (s.at ix 0))
  else .lane (lanes.map (fun l => if active.getLsbD l then ws (s.at ix l) else []))

/-- A captured operand's value in a lane, its words little-endian. -/
def Cap.at (c : Cap) (l : Nat) : Nat :=
  let join (ws : List Word) : Nat := ws.foldr (fun w n => w.toNat + 2 ^ 32 * n) 0
  match c with
  | .none => 0
  | .uni ws => join ws
  | .lane ws => join (ws.getD l [])

end Sys2Proof.Machine
end

