-- ==== Sys2Proof/Machine/Flags.lean ====
section
/-! DEFINITION. Every flag computation: comparisons (R128, R129), predicate logic (R130), the carry in p7 (R116), the
sticky SSTAT.ORD (R28, R145), completion flags (R25) and the CSR words that show them (R28 to R31). -/
namespace Sys2Proof.Machine
open Sys2Proof

/-- The truth of an integer comparison under a type (R128). -/
def icmpHolds (q : ICond) (ty a b : Nat) : Bool :=
  let x := intVal ty a
  let y := intVal ty b
  match q with
  | .eq => x == y
  | .ne => x != y
  | .lt => decide (x < y)
  | .le => decide (x ≤ y)
  | .gt => decide (y < x)
  | .ge => decide (y ≤ x)

/-- The truth of a floating-point comparison in a format (R129). -/
def fcmpHolds (q : FCond) (f : Fmt) (a b : Nat) : Bool :=
  let x := f.decode a
  let y := f.decode b
  let nan := x.isNan || y.isNan
  let o := x.cmp y
  match q with
  | .eq => !nan && o == .eq
  | .ne => nan || o != .eq
  | .lt => !nan && o == .lt
  | .le => !nan && o != .gt
  | .gt => !nan && o == .gt
  | .ge => !nan && o != .lt
  | .num => !nan
  | .nan => nan

/-- PSET's operation on masks (R130). -/
def psetMask (q : POp) (a b : Mask) : Mask :=
  match q with
  | .and => a &&& b
  | .or => a ||| b
  | .xor => a ^^^ b
  | .andn => a &&& ~~~b
  | .not => ~~~a

/-- The carry that IADDC and ISUBB leave in p7 (R116). -/
def carryOut (isSub : Bool) (w x y carry : Nat) : Bool :=
  if isSub then decide (x % 2 ^ w < y % 2 ^ w + carry) else decide (2 ^ w ≤ x % 2 ^ w + y % 2 ^ w + carry)

/-- A word of FLGC (R31). -/
def flgc (flags : List Nat) (w : Nat) : Nat :=
  (List.range 4).foldl (fun n j => n + flags.getD (4 * w + j) 0 % 64 * 2 ^ (8 * j)) 0

/-- A word of FORMTAB (R31). -/
def formtab (w : Wave) (i : Nat) : Nat :=
  if i == 16 then (List.range 4).foldl (fun n j => n + (w.x.getD j {}).form.tag * 4 ^ j) 0
  else (List.range 16).foldl
    (fun n j => n + (if 16 * i + j < w.quota then (w.v.getD (16 * i + j) {}).form.tag else 0) * 4 ^ j) 0

/-- BND as a word (R29). -/
def bndWord (w : Wave) : Nat := w.bndHi * 256 + w.bndLo

/-- WBQ as a word (R28). -/
def wbqWord (w : Wave) : Nat := w.quota * 256 + w.wb

end Sys2Proof.Machine
end

