-- ==== Sys2Proof/Machine/Issue.lean ====
section
/-! DEFINITION. How an instruction issues: the checks of its word, the issue conditions, its active items, the traps of
its items, the advance of the program counter and of the lookahead windows (R37, R59 to R73, R79 to R87, R288, R331). -/
namespace Sys2Proof.Machine
open Sys2Proof

/-- What the body of a wave instruction works on: the state, the wave with its team and launch, the word with its EX,
the acting items, and the indices of the lanes. -/
structure Env where
  s : State
  w : Wave
  t : Team
  l : Launch
  x : Option Ex
  word : Word
  act : Mask

/-- A trap of one item: lane, cause, DETAIL, and the faulting address or index (R331, R335). -/
structure ItemTrap where
  lane : Nat
  cause : Nat
  detail : Nat
  addr : Nat := 0
  deriving DecidableEq, Repr

/-- What a body does: the next state with the wave changed, or a trap of the whole wave, or waiting. -/
inductive Effect
  /-- The instruction is performed for the items without a trap; `jump`: the body has set their program counters. -/
  | done (s : State) (w : Wave) (traps : List ItemTrap) (jump : Bool)
  /-- A trap raised for every acting item, with no effect (R37); `abort`: the cause with which it aborts a transaction. -/
  | trap (cause detail : Nat) (abort : Nat) (addrs : List (Nat × Nat))
  /-- The illegal-operand trap of a value that the instruction reads once for the wave (check 5 of R385): it comes before the
  register indices (step 4 of R87). -/
  | check (detail : Nat) (addrs : List (Nat × Nat))
  /-- An issue condition does not hold (R288). -/
  | wait

/-- A performed instruction without traps. -/
def Env.ok (e : Env) (w : Wave) : Effect := .done e.s w [] false

/-- A trap of the whole wave. -/
def whole (cause detail : Nat) : Effect := .trap cause detail 9 []

/-- The trap of a value read once for the wave (check 5 of R385). -/
def badValue (detail : Nat) : Effect := .check detail []

/-- The indices of the wave's lanes. -/
def Env.ix (e : Env) : Sel → Nat → Nat := (e.s.geo e.w).index

/-- Bytes of an instruction: 8 with an EX, else 4 (R59, R60). -/
def insLen (x : Option Ex) : Nat := if x.isSome then 8 else 4

/-- The index register field that a register-array operand uses (R82). -/
def arrayIdx (x : Option Ex) : Nat := 112 + exXi x

/-- The field value that holds in each lane for a register-array operand, or the trap of its item (R15, R82, R111). -/
def arrayLane (w : Wave) (x : Option Ex) (ix : Sel → Nat → Nat) (n c l : Nat) : Except Nat Nat :=
  let i : Int := toSigned 32 ((w.view.reg (arrayIdx x)).form.at ix l) + c
  if i < (w.bndLo : Int) || (w.bndHi : Int) ≤ i || (w.quota : Int) ≤ w.wb + i then .error 2
  else if n == 2 && i % 2 == 1 then .error 3
  else if n == 2 && (w.quota : Int) ≤ w.wb + i + 1 then .error 2
  else .ok i.toNat

/-- A field of a word, as an operand of the instruction. -/
inductive Field | d | a | b
  deriving DecidableEq, Repr

/-- The value of a field of a word. -/
def Field.of (f : Field) (w : Word) : Nat :=
  match f with
  | .d => w.d7
  | .a => w.a7
  | .b => w.b7

/-- The XO code of a field (R80). -/
def Field.xo : Field → Nat
  | .d => 1 | .a => 2 | .b => 3

/-- The class of a field in an instruction's requirements. -/
def OpInfo.field (i : OpInfo) : Field → FieldClass
  | .d => i.d
  | .a => i.a
  | .b => i.b

/-- Registers that a field of a class names, 0 if it names none. -/
def FieldClass.regs : FieldClass → Nat
  | .dst n _ => n
  | .src n => n
  | .addr => 2
  | .flat => 2
  | .vec n => n
  | .vecz => 1
  | .vx => 1
  | .dst4 => 4
  | _ => 0

/-- Whether the instruction reads its d register (R62 and the entries). -/
def readsD (maj fn fx : Nat) : Bool :=
  maj == 0x04 || maj == 0x17 || maj == 0x23 || maj == 0x32 || (maj == 0x3F && fn == 1) || maj == 0x59 || maj == 0x5B ||
  maj == 0x5D || maj == 0x5F || maj == 0x62 || ((maj == 0x68 || maj == 0x69 || maj == 0x6A) && fx == 8)

/-- The fields that name registers read as data lane by lane: those whose marks an instruction consumes (R340, R373).
MOVK, FORM, MATL, SHFL and SHFLX read through the form: their marks are those of the lanes they name; PREF raises no
trap of an item (R170). -/
def markFields (i : OpInfo) (x : Option Ex) (w : Word) : List (Field × Nat) :=
  let srcs := (if readsD w.maj w.fn (exFx x) then [(Field.d, i.d.regs)] else []) ++
    (match i.a with
      | .src n => [(Field.a, n)]
      | .addr => [(Field.a, 2)]
      | .flat => [(Field.a, 2)]
      | .vec n => [(Field.a, n)]
      | _ => []) ++
    (if exMode1 x then [] else match i.b with
      | .src n => [(Field.b, n)]
      | .vec n => [(Field.b, n)]
      | _ => [])
  if w.maj == 0x50 || w.maj == 0x65 || (decide (0x78 ≤ w.maj) && decide (w.maj < 0x7C)) then []
  else if w.maj == 0x40 || w.maj == 0x41 then srcs.filter (fun p => p.1 == .b) else srcs

/-- Whether every vector field lies in the window and the quota (R13); a register-array operand is checked per item, and a of
SHFLX is counted in the wave that it names (R138). -/
def windowOk (i : OpInfo) (x : Option Ex) (w : Word) (u : View) : Bool :=
  let one (f : Field) : Bool := exXo x == f.xo || (f == .b && exMode1 x) || (f == .a && w.maj == 0x41) || u.inQuota (i.field f).regs (f.of w)
  ((i.field .d).regs == 0 || one .d) && ((i.field .a).regs == 0 || one .a) && ((i.field .b).regs == 0 || one .b)

/-- The lanes whose register-array operand raises a trap, and the field values of the others (R15, R82). -/
def arrayLanes (i : OpInfo) (w : Wave) (x : Option Ex) (word : Word) (act : Mask) (ix : Sel → Nat → Nat) :
    List ItemTrap × List Nat :=
  let fld : Field := if exXo x == 1 then .d else if exXo x == 2 then .a else .b
  let res := lanes.map (fun l => (l, arrayLane w x ix (i.field fld).regs (fld.of word) l))
  (res.filterMap (fun p => match p.2 with
      | .error d => if act.getLsbD p.1 then some ⟨p.1, 3, d, 0⟩ else none
      | .ok _ => none),
   res.map (fun p => match p.2 with
      | .error _ => 0
      | .ok c => c))

/-- The source of a field: a register through its form, an immediate under MODE 1 (R81, R110), or a register array. -/
def Env.src (e : Env) (i : OpInfo) (f : Field) (n w : Nat) : Src :=
  if f == .b && exMode1 e.x && i.immB then .uni (ofInt w (immOf e.x e.word.b7))
  else if exXo e.x == f.xo && exXo e.x != 0 then
    let u := e.w.view
    match (u.reg (arrayIdx e.x)).form with
    | .u _ => u.src e.ix n ((arrayLanes i e.w e.x e.word e.act e.ix).2.getD ((maskLanes e.act).headD 0) 0)
    | _ =>
      let cs := (arrayLanes i e.w e.x e.word e.act e.ix).2
      .per (lanes.map (fun l => (u.src e.ix n (cs.getD l 0)).at e.ix l))
  else e.w.view.src e.ix n (f.of e.word)

/-- Write a result of `n` registers to the d field (R21), through a register array if XO selects d (R15). -/
def Env.put (e : Env) (i : OpInfo) (n : Nat) (o : Out) (act : Mask) : Wave :=
  let u := e.w.view
  let salt := e.s.time
  if exXo e.x == 1 then
    let cs := (arrayLanes i e.w e.x e.word e.act e.ix).2
    match (u.reg (arrayIdx e.x)).form with
    | .u _ => e.w.withView (u.put (cs.getD ((maskLanes act).headD 0) 0) n o act e.w.live e.ix salt)
    | _ => e.w.withView ((maskLanes act).foldl (fun u l =>
        u.put (cs.getD l 0) n o (maskOf (fun j => j == l)) (e.w.live ||| maskOf (fun j => j == (l + 1) % 32)) e.ix salt) u)
  else e.w.withView (u.put e.word.d7 n o act e.w.live e.ix salt)

/-- Whether every window of the wave's unfinished LX instructions admits an instruction of a group (R68, R72). -/
def windowsAdmit (w : Wave) : Bool := w.pend.all (fun e => (maskLanes w.exec).all (fun l => decide (0 < e.win.getD l 0)))

/-- The issue conditions that do not depend on what the instruction reads (R68, R70, R71, R288). -/
def issueReady (w : Wave) (word : Word) : Bool :=
  w.status == .ready && windowsAdmit w && (!isLx word.maj || decide (w.pend.length < 16)) &&
    (!isDrain word.maj word.fn || w.pend.isEmpty)

/-- Count an issued instruction in the windows of the lanes that issued it (R68, R336). -/
def countWindows (w : Wave) (grp : Mask) (before : Nat) : Wave :=
  { w with pend := w.pend.map (fun e =>
      if decide (e.key < before) then { e with win := lanes.map (fun l => e.win.getD l 0 - (if grp.getLsbD l then 1 else 0)) } else e) }

/-- Write one register result for the lanes of a mask (R21); `all`: every lane is written, whatever its item (R112). -/
def Wave.landReg (w : Wave) (all : Bool) (mask : Mask) (ix : Sel → Nat → Nat) (salt : Nat) (p : Nat × Reg) : Wave :=
  let c := p.1
  let r := p.2
  if isK c then
    match r.form with
    | .u b => { w with k := setFile 0 w.k (c - 88) b }
    | _ => w
  else w.withView (w.view.modReg c (fun q =>
    if all then r
    else
      let q1 := q.put r.form mask w.live ix salt
      let q2 := if r.poison ||| r.world == 0 then q1 else q1.materialise ix
      { q2 with poison := q2.poison ||| (r.poison &&& mask), world := q2.world ||| (r.world &&& mask) }))

/-- Whether an LX instruction writes every lane of its destinations: MRG and SORTK (R112). -/
def writesAll (word : Word) : Bool := word.maj == 0x47 || word.maj == 0x48

/-- Write every result of an unfinished LX instruction. -/
def Wave.landAll (w : Wave) (p : Pend) (ix : Sel → Nat → Nat) (salt : Nat) : Wave :=
  p.writes.foldl (fun w q => w.landReg (writesAll p.word) p.mask ix salt q) w

/-- When items of an LX instruction trap, the other items complete (R37, R331): the results of the entries issued at or
after `before` are written, but for those that wait for another node. -/
def Wave.landNew (w : Wave) (before : Nat) (ix : Sel → Nat → Nat) (salt : Nat) : Wave :=
  w.pend.foldl (fun v p =>
    if before ≤ p.key && p.waits == 0 then { v.landAll p ix salt with pend := v.pend.filter (fun q => q.key != p.key) } else v) w

/-- The handler group among the items that trapped (R331). -/
def formGroup (ts : List ItemTrap) : Option (Nat × Nat × Mask) :=
  match ts with
  | [] => none
  | t :: _ =>
    let cause := ts.foldl (fun c u => min c u.cause) t.cause
    let same := ts.filter (fun u => u.cause == cause)
    let first := same.foldl (fun l u => min l u.lane) 31
    let detail := ((same.find? (fun u => u.lane == first)).map (·.detail)).getD 0
    some (cause, detail, maskOf (fun l => same.any (fun u => u.lane == l && u.detail == detail)))

/-- A wave passed over after YIELD, once wave `r` of its partition has issued (R152). -/
def Wave.passIssue (v : Wave) (r : WaveRef) (here : Bool) : Wave :=
  match v.yielded with
  | none => v
  | some ws =>
    if !here then v
    else
      let rest := ws.filter (fun u => u != r)
      { v with yielded := if rest.isEmpty then none else some rest }

/-- What issuing does to the other waves of the partition: those passed over after YIELD (R152). -/
def noteIssue (s : State) (w : Wave) (t : Team) : State :=
  let here (v : Wave) : Bool := v.part == w.part &&
    (s.team? v.ref.team).any (fun u => u.node == t.node && u.die == t.die && u.core == t.core)
  { s with waves := s.waves.map (fun v => v.passIssue w.ref (here v)) }

/-- Whether the items that may issue stand at different program counters (R150). -/
def Wave.diverged (w : Wave) : Bool := w.atPc w.candidates (w.lowPc w.candidates) != w.candidates

/-- The lanes of an unfinished instruction whose updates at other nodes have not been performed (R165). -/
def State.awaited (s : State) (r : WaveRef) (key : Nat) : Mask :=
  (s.packets.filter (fun p => p.wave == some r && p.pend == key)).foldl (fun m p => match p.op with
    | some (.atomic lane _ _ _ _ _) => m ||| maskOf (fun l => l == lane)
    | some (.ring lane _ _ _) => m ||| maskOf (fun l => l == lane)
    | _ => m) 0

/-- Take back the requests of an unfinished instruction (R165): what is not performed is performed on resume. -/
def State.withdraw (s : State) (r : WaveRef) (key : Nat) : State :=
  { s with packets := s.packets.filter (fun p => !(p.wave == some r && p.pend == key)) }

/-- When items of an LX instruction trap, its updates at other nodes are not performed (R165): the entries issued at or after
`before` that wait for them stand for those items alone, and the results of the other items are written (R331). -/
def withdrawNew (s : State) (w : Wave) (before : Nat) : State × Wave :=
  w.pend.foldl (fun (c : State × Wave) p =>
    let m := s.awaited w.ref p.key
    if before ≤ p.key && p.performed && p.waits != 0 then
      let v := c.2.landAll { p with mask := p.mask &&& ~~~m } (s.geo w).index s.time
      let q : Pend := { p with mask := m, performed := false, waits := 0, writes := [] }
      (c.1.withdraw w.ref p.key, { v with pend := v.pend.map (fun e => if e.key == p.key then q else e) })
    else c) (s, w)

/-- Finish an issued instruction: advance program counters and windows, then let the handler group trap. -/
def finishIssue (s : State) (w0 w : Wave) (x : Option Ex) (ts : List ItemTrap) (jump : Bool) (before : Nat) : State :=
  let pc := w0.groupPc
  let grp := w0.exec
  let trapped := maskOf (fun l => ts.any (fun t => t.lane == l))
  let w := if ts.isEmpty then w else w.landNew before (s.geo w).index s.time
  let (s, w) := if ts.isEmpty then (s, w) else withdrawNew s w before
  let w1 := if jump then w else w.setPc (grp &&& ~~~trapped) ((pc + insLen x) % 2 ^ 32)
  let fault := ts.any (fun t => !isTrapKind t.cause)
  let w2 := if fault then w1 else countWindows w1 grp before
  let left := grp &&& w2.live &&& ~~~trapped
  let follow : Option Nat := if w2.group.isNone || left == 0 || !w2.diverged then none else some (w2.lowPc left)
  let w3 := { w2 with boosted := false, group := follow, readyAt := s.time, groupIssues := if w0.fallback then w0.groupIssues + 1 else 0 }
  let s1 := s.setWave w3
  match formGroup ts with
  | none => s1
  | some (c, d, g) =>
    let ads := (ts.filter (fun t => g.getLsbD t.lane)).map (fun t => (t.lane, t.addr))
    s1.takeTrap w0.ref { cause := c, detail := d, group := g, pc := pc, addrs := ads, seen := some (grp, w0.fallback) } (insLen x)

/-- Raise a trap for a group without any effect of the instruction. -/
def trapAll (s : State) (w : Wave) (x : Option Ex) (cause detail abort : Nat) (g : Mask) (addrs : List (Nat × Nat)) : State :=
  s.takeTrap w.ref { cause := cause, detail := detail, group := g, pc := w.groupPc, addrs := addrs, abort := abort } (insLen x)

/-- Instructions that act for the wave even when no item is active: a contribution of team-scope REDUX (R141), and JOIN, at
which a group is held whatever its items' predicates (R150). -/
def actsEmpty (x : Option Ex) (w : Word) : Bool := (w.maj == 0x43 && decide (8 ≤ exFx x)) || (w.maj == 0x4F && w.fn == 1)

/-- The address pair in uniform registers of a field. -/
def Wave.kaddr (w : Wave) (c : Nat) : Nat := (w.k.getD (c - 88) 0).toNat + 2 ^ 32 * (w.k.getD (c - 87) 0).toNat

/-- Whether an address names another node (R32, R359). -/
def awayFrom (node addr : Nat) : Bool := gNode addr != 255 && gNode addr != node

/-- Whether a stash window on a die holds bytes of another node (R172). -/
def State.windowsAway (s : State) (node die : Nat) : Bool :=
  s.teams.any (fun u => u.node == node && u.die == die && (u.windows.filterMap id).any (fun v => awayFrom node v.base.toNat))

/-- Whether an instruction of a wave may reach another node at once, not by a packet of its own (log 14): inside a transaction,
through a stash window or an axis table; as ACQ, REL, BIND, RGDEF, the address of a secure call or the frame of a handler; LDU to a
uniform register; and an atomic or ring instruction, whose item raises its trap at issue (R163, R181). -/
def mayReach (s : State) (w : Wave) (t : Team) (word : Word) : Bool :=
  let away (c : Nat) : Bool := awayFrom t.node (w.kaddr c)
  let src := w.view.src (s.geo w).index 2 word.a7
  let items := (maskLanes w.exec).any (fun l => awayFrom t.node (src.at (s.geo w).index l))
  let m := word.maj
  (decide (0x58 ≤ m) && decide (m ≤ 0x6F) && (w.tx.isSome || s.windowsAway t.node t.die)) ||
    m == 0x5E || m == 0x5F || (m == 0x60 && isK word.d7) || ((m == 0x68 || (decide (0x6B ≤ m) && decide (m ≤ 0x6F))) && items) ||
    (m == 0x73 && decide (word.fn < 2) && away word.a7) || (m == 0x74 && word.fn != 1 && (away word.a7 || away word.b7)) ||
    (m == 0x7D && word.fn == 7 && away (word.a7 + 2)) ||
    (m == 0x7D && decide (2 ≤ word.fn) && decide (word.fn ≤ 4) && w.handler.any (fun h => awayFrom t.node h.frame.toNat))

/-- Whether an instruction waits for requests under way (R357, R328; log 14): an access made at once takes its place behind those that
its die has sent, and RGPUB and RGFREE release what their wave has sent (R182, R315). -/
def State.behindPackets (s : State) (w : Wave) (t : Team) (word : Word) : Bool :=
  (s.dieSends t.node t.die && mayReach s w t word) || ((word.maj == 0x6D || word.maj == 0x6F) && s.inFlight w.ref)

/-- The handler-only instructions (R259): TRET, REPLAY and RQDROP. -/
def handlerOnly (word : Word) : Bool := word.maj == 0x7D && decide (2 ≤ word.fn) && decide (word.fn ≤ 4)

/-- The checks of the word in a wave (R87): the illegal-instruction traps first, among them that of a handler-only instruction
outside a handler (R88, R259; log 18), then those of the operand fields. -/
def waveCheck (w : Wave) (x : Option Ex) (word : Word) : Option (Nat × Nat) :=
  match checkWord x word with
  | some (1, d) => some (1, d)
  | r => if handlerOnly word && w.handler.isNone then some (1, 5) else r

/-- The items of an instruction that trap before its effect: a register array out of bounds (R15), then a marked source
(R340, R373). -/
def preTraps (w : Wave) (x : Option Ex) (word : Word) (act : Mask) (ix : Sel → Nat → Nat) : List ItemTrap :=
  let info := wordInfo x word
  let t1 := if exXo x == 0 then [] else (arrayLanes info w x word act ix).1
  let marks := (markFields info x word).foldl (fun (m : Mask × Mask) f =>
    let c := f.1.of word
    let q := if exXo x == f.1.xo && exXo x != 0 then
        let cs := (arrayLanes info w x word act ix).2
        (maskOf (fun l => (w.view.marks f.2 (cs.getD l 0)).1.getLsbD l),
         maskOf (fun l => (w.view.marks f.2 (cs.getD l 0)).2.getLsbD l))
      else w.view.marks f.2 c
    (m.1 ||| q.1, m.2 ||| q.2)) (0, 0)
  let t2 := (maskLanes act).filterMap (fun l =>
    if t1.any (fun u => u.lane == l) then none
    else if marks.2.getLsbD l then some (⟨l, 7, 1, 0⟩ : ItemTrap)
    else if marks.1.getLsbD l then some ⟨l, 0x0B, 0, 0⟩ else none)
  t1 ++ t2

/-- The traps of a whole-wave trap beside those of items that trapped before the effect (R331): every active item raises it. -/
def wholeTraps (pre : List ItemTrap) (act : Mask) (cause detail : Nat) (addrs : List (Nat × Nat)) : List ItemTrap :=
  pre ++ (maskLanes act).map (fun l => ⟨l, cause, detail, ((addrs.find? (fun p => p.1 == l)).map Prod.snd).getD 0⟩)

/-- Raise a whole-wave trap of the instruction's effect, beside the traps `pre` of its items: the group that R331 forms. A failed world
check has its notice (R374). -/
def trapWhole (s0 : State) (w : Wave) (t : Team) (l : Launch) (x : Option Ex) (pre : List ItemTrap) (act : Mask) (cause detail abort : Nat)
    (addrs : List (Nat × Nat)) : State :=
  let s := s0.worldTrapNotice t w l cause detail
  let ts := wholeTraps pre act cause detail addrs
  match formGroup ts with
  | none => s
  | some (c, d, g) =>
    trapAll s w x c d abort g ((ts.filter (fun t => g.getLsbD t.lane && t.cause == c && t.detail == d)).map (fun t => (t.lane, t.addr)))

/-- One instruction of a wave: R87's checks in order, then its body for the acting items; with whether an item traps. The issue
conditions of R288 come behind the checks of the word, and those that the body states before every later trap. -/
def issueOne (body : Env → Effect) (x : Option Ex) (word : Word) (s : State) (r : WaveRef) : State × Bool :=
  match s.wave? r, s.team? r.team, s.launch? r.team.launch with
  | some w, some t, some l =>
    let act := w.active x
    match waveCheck w x word with
    | some (c, d) => (trapAll s w x c d 9 w.exec [], true)
    | none =>
      if w.tx.isSome && !txAllowed word.maj word.fn && act != 0 then (trapAll s w x 0x0A 1 6 w.exec [], true)
      else if !issueReady w word || (act != 0 && s.behindPackets w t word) then (s, false)
      else
        let info := wordInfo x word
        let ix := (s.geo w).index
        let s0 := noteIssue s w t
        if act == 0 && !actsEmpty x word then (finishIssue s0 w w x [] false s.nextNum, false)
        else
          let pre := preTraps w x word act ix
          let act' := act &&& ~~~(maskOf (fun l => pre.any (fun u => u.lane == l)))
          let fits := act == 0 || windowOk info x word w.view
          match body ⟨s0, w, t, l, x, word, act⟩ with
          | .wait => (s, false)
          | .check d ads => (trapAll s w x 2 d 9 act ads, true)
          | .trap c d ab ads =>
            if fits then (trapWhole s w t l x pre act c d ab ads, true) else (trapAll s w x 3 1 9 act [], true)
          | .done s' w' ts jump =>
            if !fits then (trapAll s w x 3 1 9 act [], true)
            else if pre.isEmpty then (finishIssue s' w w' x ts jump s.nextNum, !ts.isEmpty)
            else if act' == 0 then (finishIssue s w w x pre false s.nextNum, true)
            else
              match body ⟨s0, w, t, l, x, word, act'⟩ with
              | .done s' w' ts jump => (finishIssue s' w w' x (pre ++ ts) jump s.nextNum, true)
              | .trap c d ab ads => (trapWhole s w t l x pre act' c d ab ads, true)
              | .check d ads => (trapAll s w x 2 d 9 act' ads, true)
              | .wait => (s, false)
  | _, _, _ => (s, false)

/-- Issue one instruction of a wave. A trap is taken once the wave's updates at other nodes have answered: until then the
wave waits at the instruction (R165). -/
def issueWave (body : Env → Effect) (x : Option Ex) (word : Word) (s : State) (r : WaveRef) : State :=
  let q := issueOne body x word s r
  if q.2 && s.updating r then s else q.1

end Sys2Proof.Machine
end

