-- ==== Sys2Proof/Machine/Span.lean ====
section
/-! DEFINITION. Spans (R272 to R285): predicates as runs, sub-spans, splitting on a predicate, dealing a launch into
team spans, cutting a team into waves, and the issue of an instruction in a span. -/
namespace Sys2Proof.Machine
open Sys2Proof

/-! ### Runs of ids (R273) -/

/-- Join the run from `lo` to `hi` with the runs behind it that touch or overlap it, in ascending order. -/
def Runs.join (lo hi : Nat) : Runs → Runs
  | [] => [(lo, hi)]
  | (c, d) :: t => if c ≤ hi then Runs.join lo (max hi d) t else (lo, hi) :: Runs.join c d t

/-- The maximal runs of a list of runs in ascending order (R273). -/
def Runs.norm : Runs → Runs
  | [] => []
  | (a, b) :: t => Runs.join a b t

/-- Whether an id lies in some run. -/
def Runs.has (r : Runs) (i : Nat) : Bool := r.any (fun p => decide (p.1 ≤ i) && decide (i < p.2))

/-- The ids of both. -/
def Runs.inter (p q : Runs) : Runs :=
  Runs.norm (p.flatMap (fun a => q.filterMap (fun b =>
    if max a.1 b.1 < min a.2 b.2 then some (max a.1 b.1, min a.2 b.2) else none)))

/-- The gaps between runs, from `lo` to `hi`. -/
def Runs.gaps (hi : Nat) : Nat → Runs → Runs
  | lo, [] => if lo < hi then [(lo, hi)] else []
  | lo, (a, b) :: t => if lo < a then (lo, a) :: Runs.gaps hi b t else Runs.gaps hi b t

/-- The ids of the first that are not ids of the second. -/
def Runs.diff (p q : Runs) : Runs := Runs.inter p (Runs.gaps (2 ^ 41) 0 q)

/-- Insert a run by its lower end. -/
def Runs.insert (r : Nat × Nat) : Runs → Runs
  | [] => [r]
  | h :: t => if r.1 ≤ h.1 then r :: h :: t else h :: Runs.insert r t

/-- The ids of either. -/
def Runs.union (p q : Runs) : Runs := Runs.norm (p.foldr Runs.insert q)

/-- The number of ids. -/
def Runs.size (r : Runs) : Nat := r.foldl (fun n p => n + (p.2 - p.1)) 0

/-- The lowest id. -/
def Runs.low (r : Runs) : Nat := (r.headD (0, 0)).1

/-- The runs of the ids below `hi`, `n` of them, for which a test holds. -/
def runsWhere (test : Nat → Bool) (hi : Nat) : Nat → Runs
  | 0 => []
  | n + 1 => if test (hi - (n + 1)) then Runs.norm ((hi - (n + 1), hi - n) :: runsWhere test hi n) else runsWhere test hi n

/-- The ids of some runs for which a test holds (R273). -/
def Runs.where_ (r : Runs) (test : Nat → Bool) : Runs := Runs.norm (r.flatMap (fun p => runsWhere test p.2 (p.2 - p.1)))

/-- A predicate's runs, of the ids of a sub-span; p0 is true everywhere (R24). -/
def Sub.pred (b : Sub) (p : Nat) : Runs := if p % 8 == 0 then b.ids else (b.preds.getD (p % 8) []).inter b.ids

/-- Whether a predicate is uniform in a sub-span (R273). -/
def Sub.uniPred (b : Sub) (p : Nat) : Option Bool :=
  let r := b.pred p
  if r == b.ids then some true else if r == [] then some false else none

/-- The ids that an EX's predicate selects (R79). -/
def Sub.selected (b : Sub) (x : Option Ex) : Runs :=
  match x with
  | none => b.ids
  | some e => if e.neg then b.ids.diff (b.pred e.p.toNat) else b.pred e.p.toNat

/-- Cut the ids of a sub-span into contiguous pieces of equal outcome (R282). -/
def pieces (ids sel : Runs) : List (Bool × Runs) :=
  let tagged : List (Bool × (Nat × Nat)) :=
    ((ids.inter sel).map (fun r => (true, r)) ++ (ids.diff sel).map (fun r => (false, r)))
  let sorted := tagged.foldr (fun r l =>
    (l.takeWhile (fun q => decide (q.2.1 < r.2.1))) ++ r :: (l.dropWhile (fun q => decide (q.2.1 < r.2.1)))) []
  sorted.foldr (fun r l =>
    match l with
    | (b, rs) :: t => if b == r.1 then (b, Runs.norm (r.2 :: rs)) :: t else (r.1, [r.2]) :: (b, rs) :: t
    | [] => [(r.1, [r.2])]) []

/-! ### Sub-spans -/

/-- The part of a sub-span that holds some of its ids. -/
def Sub.part (b : Sub) (ids : Runs) : Sub := { b with ids := ids, preds := b.preds.map (fun r => r.inter ids) }

/-- The view of a sub-span (R16, R272). -/
def Sub.view (b : Sub) (k : List Word) (quota tm : Nat) : View := ⟨b.v, b.x, k, 0, quota, 0, tm⟩

/-- What the body of a span instruction works on. -/
structure SpanEnv where
  s : State
  l : Launch
  t : Option Team
  k : List Word
  sub : Sub
  x : Option Ex
  word : Word

/-- What a body does in a span: the shared uniform registers and the sub-spans that take this one's place, or it is a
materialising instruction (R272); `all` replaces every sub-span of the span. -/
inductive SpanRes
  | ok (s : State) (k : List Word) (subs : List Sub)
  | all (s : State) (subs : List Sub)
  | mat

/-- The next program counter. -/
def SpanEnv.nextPc (e : SpanEnv) : Nat := (e.sub.pc + insLen e.x) % 2 ^ 32

/-- The sub-span at the next instruction. -/
def SpanEnv.step (e : SpanEnv) (b : Sub) : Sub := { b with pc := e.nextPc }

/-- The view of the sub-span. -/
def SpanEnv.view (e : SpanEnv) : View :=
  e.sub.view e.k e.l.kernel.quota ((e.t.map (fun t => t.ref.tm)).getD 0)

/-- The indices of the items of the span. -/
def SpanEnv.ix (e : SpanEnv) : Sel → Nat → Nat := idIndex e.l.ext

/-! ### Dealing (R275, R276) -/

/-- Blocks of a launch along an axis. -/
def blocks (ext shape : List Nat) (i : Nat) : Nat := max 1 (ceilDiv (ext.getD i 1) (max 1 (shape.getD i 1)))

/-- The team count P of a launch (R12, R158). -/
def teamCount (ext shape : List Nat) : Nat := blocks ext shape 0 * blocks ext shape 1 * blocks ext shape 2

/-- The ids of a team's items (R12, R275). -/
def teamIds (ext shape : List Nat) (tm : Nat) : Runs :=
  let ta := max 1 (shape.getD 0 1)
  let tb := max 1 (shape.getD 1 1)
  let tc := max 1 (shape.getD 2 1)
  Runs.norm ((List.range (tb * tc)).filterMap (fun r =>
    (itemCoord ext shape tm (ta * r)).map (fun p =>
      (flatId ext p, flatId ext p + min ta (ext.getD 0 1 - p.1)))))

/-- Waves of a team (R275). -/
def waveCount (shape : List Nat) : Nat :=
  ceilDiv (max 1 (shape.getD 0 1) * max 1 (shape.getD 1 1) * max 1 (shape.getD 2 1)) 32

/-- A team as dealing creates it (R276). -/
def newTeam (l : Launch) (time tm : Nat) (subs : List Sub) : Team :=
  { ref := ⟨l.num, tm⟩, node := l.node, die := l.die, core := none, placeTime := 0, waitSince := time,
    world := l.region.world, segs := l.segs, k := l.k, subs := subs, cut := false, slots := [], ended := 0,
    scratch := [], acm := [], barriers := [], round := none, windows := List.replicate 8 none,
    thr := List.replicate 4 none, saved := false, mt := (0, 0) }

/-- Deal a launch: every team with an item that has not ended is created as a team span (R276). -/
def State.deal (s : State) (l : Launch) : State :=
  let mk (tm : Nat) : Option Team :=
    let ids := teamIds l.ext l.kernel.shape tm
    let subs := l.subs.filterMap (fun b =>
      let r := b.ids.inter ids
      if r.isEmpty then none else some (b.part r))
    if subs.isEmpty then none else some (newTeam l s.time tm subs)
  let ts := (List.range (teamCount l.ext l.kernel.shape)).filterMap mk
  { s with teams := s.teams ++ ts }.setLaunch { l with dealt := true, subs := [] }

/-! ### Cutting (R281, R284) -/

/-- The sub-span of a team that holds a lane's item. -/
def laneSub (l : Launch) (t : Team) (num lane : Nat) : Option Sub :=
  match itemCoord l.ext l.kernel.shape t.ref.tm (32 * num + lane) with
  | none => none
  | some p => t.subs.find? (fun b => b.ids.has (flatId l.ext p))

/-- A register of a wave whose lanes come from sub-spans: their common form, or materialised (R281, R284). -/
def cutReg (get : Sub → Reg) (subs : List (Option Sub)) (ix : Sel → Nat → Nat) : Reg :=
  match subs.filterMap id with
  | [] => {}
  | b :: t =>
    if t.all (fun c => (get c).form == (get b).form) then get b
    else { form := .m (lanes.map (fun l => match subs.getD l none with
      | none => 0
      | some c => BitVec.ofNat 32 ((get c).form.at ix l))) }

/-- A wave cut from a team span (R9, R13, R17, R25, R28, R281). -/
def newWave (l : Launch) (t : Team) (num : Nat) : Wave :=
  let subs := lanes.map (laneSub l t num)
  let g : Geo := ⟨l.ext, l.kernel.shape, t.ref.tm, num, 0⟩
  let slot := t.slots.getD num (0, 8)
  { ref := ⟨t.ref, num⟩, part := num % 4, slot := slot.1, quota := l.kernel.quota, wb := 0, rowBudget := slot.2,
    bndLo := 0, bndHi := 88, ord := false,
    v := (List.range l.kernel.quota).map (fun j => cutReg (fun b => b.v.getD j {}) subs g.index),
    x := (List.range 4).map (fun j => cutReg (fun b => b.x.getD j {}) subs g.index),
    k := t.k,
    preds := (List.range 8).map (fun p => maskOf (fun i => match subs.getD i none with
      | none => false
      | some b => match itemCoord l.ext l.kernel.shape t.ref.tm (32 * num + i) with
        | none => false
        | some q => (b.preds.getD p []).has (flatId l.ext q))),
    flags := List.replicate 12 0,
    items := maskOf (fun i => (itemCoord l.ext l.kernel.shape t.ref.tm (32 * num + i)).isSome),
    live := maskOf (fun i => (subs.getD i none).isSome),
    pcs := lanes.map (fun i => match subs.getD i none with
      | none => 0
      | some b => b.pc),
    group := none, trapCause := List.replicate 32 0, trapPc := List.replicate 32 0, pend := [], tx := none, txCause := 0,
    keptBegin := none, status := .ready, wake := [], sleepBegin := 0, handler := none, yielded := none, yieldAt := 0, boosted := false,
    readyAt := 0, groupIssues := 0 }

/-- Whether a wave takes rows that a wave of its team on its partition gives up (R286). -/
def Wave.takesRows (w : Wave) (tr : TeamRef) (part : Nat) : Bool := w.ref.team == tr && w.part == part && w.live != 0

/-- Give register-file rows to live waves of a team on a partition, in ascending wave number, each up to its quota: a wave takes what
those of lower numbers leave (R286). -/
def giveRows (tr : TeamRef) (part rows : Nat) (ws : List Wave) : List Wave :=
  let lower (w : Wave) : List Wave := ws.filter (fun v => v.takesRows tr part && decide (v.ref.num < w.ref.num))
  ws.map (fun w => if w.takesRows tr part then
      { w with rowBudget := w.rowBudget + min (w.quota - w.rowBudget) (rows - ((lower w).map (fun v => v.quota - v.rowBudget)).sum) }
    else w)

/-- Cut a team into waves (R281). A wave without a live item has ended: its rows go to the live waves of its partition, and its
slot and spill area are freed (R286). -/
def State.cut (s : State) (l : Launch) (t : Team) : State :=
  let ws := (List.range (waveCount l.kernel.shape)).map (fun n => { newWave l t n with readyAt := s.time })
  let live := (ws.filter (fun w => w.live == 0)).foldl (fun vs d => giveRows t.ref d.part d.rowBudget vs) (ws.filter (fun w => w.live != 0))
  { s with waves := s.waves ++ live }.setTeam
    { t with cut := true, subs := [], ended := maskOf (fun i => ws.any (fun w => w.ref.num == i && w.live == 0)) }

/-! ### Issue in a span -/

/-- Whether a word reads lane or wv, or tm in a launch span: then it is not of the Form class (R272). -/
def readsWave (i : OpInfo) (x : Option Ex) (w : Word) (team : Bool) : Bool :=
  let bad (c : Nat) : Bool := c == 121 || c == 122 || (c == 123 && !team)
  let isReg (f : FieldClass) : Bool := f.regs != 0
  (isReg i.d && bad w.d7) || (isReg i.a && bad w.a7) || (isReg i.b && !(exMode1 x && i.immB) && bad w.b7)

/-- Materialise: deal the launch, or cut the team; the instruction has not executed (R276, R281). -/
def materialise (s : State) (l : Launch) (t : Option Team) : State :=
  match t with
  | none => s.deal l
  | some t => s.cut l t

/-- Replace sub-span `i` of a list. -/
def replaceSub (subs : List Sub) (i : Nat) (new : List Sub) : List Sub :=
  subs.take i ++ new.filter (fun b => !b.ids.isEmpty) ++ subs.drop (i + 1)

/-- Issue one instruction of a sub-span (R272, R282, R285): a part whose items the EX predicate does not select passes
the instruction; a trap, that of a handler-only word among them (R259), or a materialising instruction deals the launch or cuts the team first. -/
def issueSpan (body : SpanEnv → SpanRes) (x : Option Ex) (word : Word) (s : State) (l : Launch) (t : Option Team)
    (i : Nat) : State :=
  let subs := match t with
    | none => l.subs
    | some t => t.subs
  let store (s : State) (k : List Word) (subs : List Sub) : State :=
    match t with
    | none => match s.launch? l.num with
      | none => s
      | some l' => s.setLaunch { l' with k := k, subs := subs }
    | some t => match s.team? t.ref with
      | none => s
      | some t' => s.setTeam { t' with k := k, subs := subs }
  let k := match t with
    | none => l.k
    | some t => t.k
  match subs[i]? with
  | none => s
  | some b =>
    if (checkWord x word).isSome || handlerOnly word then materialise s l t
    else
      let step (c : Sub) : Sub := { c with pc := (c.pc + insLen x) % 2 ^ 32 }
      match pieces b.ids (b.selected x) with
      | [(true, _)] =>
        match body ⟨s, l, t, k, b, x, word⟩ with
        | .ok s' k' new => store s' k' (replaceSub subs i new)
        | .all s' new => store s' k new
        | .mat => materialise s l t
      | ps => store s k (replaceSub subs i (ps.map (fun p => if p.1 then b.part p.2 else step (b.part p.2))))

/-- Run an instruction for the party that issues (R272): in its wave, or in its span. -/
def issue (wave : Env → Effect) (span : SpanEnv → SpanRes) (x : Option Ex) (word : Word) (s : State) : State :=
  match s.cur with
  | .none => s
  | .wave r => issueWave wave x word s r
  | .launch n i => match s.launch? n with
    | none => s
    | some l => issueSpan span x word s l none i
  | .team t i => match s.team? t, s.launch? t.launch with
    | some tm, some l => issueSpan span x word s l (some tm) i
    | _, _ => s

/-- An instruction of the Wave class: materialising in every span (R272). -/
def waveOnly (_ : SpanEnv) : SpanRes := .mat

/-- The register that a field names in a span: a register array names one register when its index register is uniform
and the index lies within the bounds (R15; BND has its reset value in a span); otherwise none. -/
def SpanEnv.code (e : SpanEnv) (i : OpInfo) (f : Field) : Option Nat :=
  if exXo e.x == f.xo && exXo e.x != 0 then
    match (e.view.reg (arrayIdx e.x)).form with
    | .u b =>
      let j : Int := toSigned 32 b.toNat + f.of e.word
      let n := (i.field f).regs
      if j < 0 || 88 ≤ j || (e.l.kernel.quota : Int) < j + n || (n == 2 && j % 2 == 1) then none else some j.toNat
    | _ => none
  else some (f.of e.word)

/-- The source of a field in a span. -/
def SpanEnv.src (e : SpanEnv) (i : OpInfo) (f : Field) (n w : Nat) : Src :=
  if f == .b && exMode1 e.x && i.immB then .uni (ofInt w (immOf e.x e.word.b7))
  else e.view.src e.ix n ((e.code i f).getD 116)

/-- Write a result of `n` registers in a span: every mask is full (R21). -/
def SpanEnv.put (e : SpanEnv) (n : Nat) (o : Out) : List Word × Sub :=
  let u := e.view.put ((e.code (wordInfo e.x e.word) .d).getD 116) n o 0xFFFFFFFF 0xFFFFFFFF e.ix 0
  (u.k, { e.sub with v := u.v, x := u.x })

/-- Whether every register array of the word names one register in a span (R15). -/
def SpanEnv.arraysOk (e : SpanEnv) : Bool :=
  let i := wordInfo e.x e.word
  (e.code i .d).isSome && (e.code i .a).isSome && (e.code i .b).isSome

/-- Write predicate p of a sub-span as runs; p0 discards (R24). -/
def Sub.setPred (b : Sub) (p : Nat) (r : Runs) : Sub :=
  if p % 8 == 0 then b else { b with preds := setFile [] b.preds (p % 8) r }

/-! ### Arithmetic: one shared shape for every T3 and move instruction -/

/-- An arithmetic instruction: destination registers, width, affine rule, sources, an optional predicate read as an
operand (R20), the result, the predicate p7 it may write (R116), and the type of a result that may be narrow (R112). The
predicate's value comes first in the arguments. -/
structure Alu where
  n : Nat
  w : Nat
  rule : AffRule := .none
  srcs : List (Field × Nat)
  pred : Option (Nat × Bool) := none
  f : List Nat → Nat
  carry : Option (List Nat → Bool) := none
  narrow : Nat := 0

/-- The field code in DETAIL (R88). -/
def Field.detail : Field → Nat
  | .d => 1 | .a => 2 | .b => 3

/-- The field of the first source that is not uniform (R16, R113). -/
def firstVarying (fs : List Field) (ss : List Src) : Option Field :=
  ((fs.zip ss).find? (fun p => !p.2.isUni)).map Prod.fst

/-- Arithmetic in a wave. -/
def aluWave (al : Alu) (e : Env) : Effect :=
  let i := wordInfo e.x e.word
  let ss := al.srcs.map (fun f => e.src i f.1 f.2 (if f.2 == 2 then 64 else al.w))
  let ps : List Src := match al.pred with
    | none => []
    | some (p, neg) =>
      let m := e.w.pred p
      if p % 8 == 0 then [.uni (b2n (!neg))] else [.per (lanes.map (fun l => b2n (m.getLsbD l != neg)))]
  if isK e.word.d7 && !(ps ++ ss).all Src.isUni then
    badValue (((firstVarying (al.srcs.map Prod.fst) ss).map Field.detail).getD 1)
  else
    let o := (outOf al.rule (32 * al.n) (ps ++ ss) al.f e.act e.ix).narrowed al.narrow
    let w1 := e.put i al.n o e.act
    match al.carry with
    | none => e.ok w1
    | some c => e.ok (w1.setPred 7 e.act (maskOf (fun l => c ((ps ++ ss).map (fun q => q.at e.ix l)))))

/-- Arithmetic in a span: it runs there when its result has form U or A (R272). -/
def aluSpan (al : Alu) (e : SpanEnv) : SpanRes :=
  let i := wordInfo e.x e.word
  if readsWave i e.x e.word e.t.isSome || !e.arraysOk || !windowOk i e.x e.word e.view then .mat
  else
    let ss := al.srcs.map (fun f => e.src i f.1 f.2 (if f.2 == 2 then 64 else al.w))
    let ps : Option (List Src) := match al.pred with
      | none => some []
      | some (p, neg) => (e.sub.uniPred p).map (fun v => [.uni (b2n (v != neg))])
    match ps with
    | none => .mat
    | some ps =>
      if isK e.word.d7 && !ss.all Src.isUni then .mat
      else match outOf al.rule (32 * al.n) (ps ++ ss) al.f 0 e.ix with
        | .uni v =>
          let r := e.put al.n (.uni v)
          let b := match al.carry with
            | none => r.2
            | some c => r.2.setPred 7 (if c ((ps ++ ss).map (fun q => q.at e.ix 0)) then e.sub.ids else [])
          .ok e.s r.1 [e.step b]
        | .aff b s sel w =>
          let r := e.put al.n (.aff b s sel w)
          .ok e.s r.1 [e.step r.2]
        | _ => .mat

/-- Run an arithmetic instruction. -/
def runAlu (al : Alu) (x : Option Ex) (word : Word) (s : State) : State := issue (aluWave al) (aluSpan al) x word s

end Sys2Proof.Machine
end

