-- ==== Sys2Proof/Machine/Integer.lean ====
section
/-! DEFINITION. Integer, logic, shift, bit-field and address instructions (R115 to R120). -/
namespace Sys2Proof.Machine
open Sys2Proof

/-- The word that holds an instruction, without its EX. -/
def wordOf (i : Instr) : Word := (encode i).getLastD 0

/-- The exact integer e of R115, clamped under SAT or reduced to the type, as a register value (R50, R109). -/
def intResult (t : IntTy) (sat : Bool) (e : Int) : Nat :=
  regOfInt t.code (if sat then clampInt t.width t.signed e else e)

/-- An integer instruction of type `t` over some fields (R109, R115); its affine rule applies to 32-bit and 64-bit types
without SAT (R20). -/
def intAlu (t : IntTy) (sat : Bool) (rule : AffRule) (fs : List Field) (e : List Int → Int) : Alu :=
  { n := tyRegs t.code, w := t.width, rule := if sat || decide (t.width < 32) then .none else rule,
    srcs := fs.map (fun f => (f, tyRegs t.code)), f := fun vs => intResult t sat (e (vs.map (intVal t.code))) }

/-- A logic instruction on the bits of a type's width (R117). -/
def logicAlu (t : IntTy) (fs : List Field) (f : Nat → List Nat → Nat) : Alu :=
  { n := tyRegs t.code, w := t.width, srcs := fs.map (fun f => (f, tyRegs t.code)),
    f := fun vs => f t.width (vs.map (fun v => v % 2 ^ t.width)) % 2 ^ t.width }

/-- A shift or bit-field instruction: b is one 32-bit operand whatever the width (R117, R118). -/
def shiftAlu (t : IntTy) (rule : AffRule) (fs : List Field) (f : Nat → List Nat → Nat) : Alu :=
  { n := tyRegs t.code, w := t.width, rule := rule,
    srcs := fs.map (fun f => (f, if f == .b then 1 else tyRegs t.code)), f := fun vs => f t.width vs % 2 ^ t.width }

/-- Argument `i` of a list, 0 if absent. -/
def arg (vs : List Nat) (i : Nat) : Nat := vs.getD i 0
/-- Integer argument `i` of a list, 0 if absent. -/
def iarg (vs : List Int) (i : Nat) : Int := vs.getD i 0

/-- SHL (R117). -/
def shlVal (w x y : Nat) : Nat := if y % 256 < w then x * 2 ^ (y % 256) % 2 ^ w else 0
/-- SHR (R117). -/
def shrVal (w x y : Nat) : Nat := if y % 256 < w then x % 2 ^ w / 2 ^ (y % 256) else 0
/-- SAR (R117). -/
def sarVal (w x y : Nat) : Nat := ofInt w (toSigned w x / ((2 ^ min (y % 256) w : Nat) : Int))
/-- ROL (R117). -/
def rolVal (w x y : Nat) : Nat :=
  let n := y % 256 % w
  (x % 2 ^ w * 2 ^ n + x % 2 ^ w / 2 ^ (w - n)) % 2 ^ w
/-- CLZ (R117). -/
def clzVal (w x : Nat) : Nat := if x % 2 ^ w == 0 then w else w - 1 - Nat.log2 (x % 2 ^ w)
/-- BREV (R117). -/
def brevVal (w x : Nat) : Nat := (List.range w).foldl (fun r i => r + (if bitAt x i then 2 ^ (w - 1 - i) else 0)) 0
/-- BFX (R118). -/
def bfxVal (w : Nat) (signed : Bool) (x y : Nat) : Nat :=
  let pos := y % 256
  let len := y / 256 % 256
  if len == 0 || w ≤ pos then 0
  else
    let l := min len (w - pos)
    let f := x / 2 ^ pos % 2 ^ l
    if signed then ofInt w (toSigned l f) else f
/-- BFI (R118). -/
def bfiVal (w d x y : Nat) : Nat :=
  let pos := y % 256
  let len := y / 256 % 256
  if len == 0 || w ≤ pos then d
  else
    let l := min len (w - pos)
    d % 2 ^ pos + x % 2 ^ l * 2 ^ pos + d / 2 ^ (pos + l) * 2 ^ (pos + l)
/-- LEA (R119). -/
def leaVal (signed : Bool) (v : List Nat) : Nat :=
  ofInt 64 ((arg v 0 : Int) + (if signed then toSigned 32 (arg v 1) else (arg v 1 : Int)))
/-- BPICK (R120). -/
def bpickVal (x y : Nat) : Nat :=
  (List.range 4).foldl (fun r k =>
    let f := y / 2 ^ (4 * k) % 16
    let b := x / 2 ^ (8 * (f % 4)) % 256
    let v := if f / 4 == 0 then b else if f / 4 == 1 then 0 else if f / 4 == 2 then 0xFF else if b < 128 then 0 else 0xFF
    r + v * 2 ^ (8 * k)) 0

/-- IADDC and ISUBB with the carry in p7 (R116). -/
def carryAlu (t : IntTy) (sat isSub : Bool) : Alu :=
  { n := tyRegs t.code, w := t.width, srcs := [(.a, tyRegs t.code), (.b, tyRegs t.code)], pred := some (7, false),
    f := fun vs =>
      let x := intVal t.code (arg vs 1)
      let y := intVal t.code (arg vs 2)
      intResult t sat (if isSub then x - y - (arg vs 0 : Int) else x + y + (arg vs 0 : Int))
    carry := some (fun vs => carryOut isSub t.width (arg vs 1) (arg vs 2) (arg vs 0)) }


/-- IADD (R115): Integer add of a and b, wrapping or saturating by type. -/
def execIadd (x : Option Ex) (s : Bool) (t : IntTy) (d a b : R7) (st : State) : Host.Outcome State Fault Refusal :=
  settle (runAlu (intAlu t s .add [.a, .b] (fun v => iarg v 0 + iarg v 1))
    x (wordOf (.iadd x s t d a b)) st)

/-- ISUB (R115): Integer subtract of b from a. -/
def execIsub (x : Option Ex) (s : Bool) (t : IntTy) (d a b : R7) (st : State) : Host.Outcome State Fault Refusal :=
  settle (runAlu (intAlu t s .sub [.a, .b] (fun v => iarg v 0 - iarg v 1))
    x (wordOf (.isub x s t d a b)) st)

/-- IMUL (R115): Integer multiply, low result. -/
def execImul (x : Option Ex) (s : Bool) (t : IntTy) (d a b : R7) (st : State) : Host.Outcome State Fault Refusal :=
  settle (runAlu (intAlu t s .mul [.a, .b] (fun v => iarg v 0 * iarg v 1))
    x (wordOf (.imul x s t d a b)) st)

/-- IMULH (R115): Integer multiply, high half of the product. -/
def execImulh (x : Option Ex) (s : Bool) (t : IntTy) (d a b : R7) (st : State) : Host.Outcome State Fault Refusal :=
  settle (runAlu (intAlu t s .none [.a, .b] (fun v => iarg v 0 * iarg v 1 / ((2 ^ t.width : Nat) : Int)))
    x (wordOf (.imulh x s t d a b)) st)

/-- IMAD (R115): Integer multiply-add with d as addend. -/
def execImad (x : Option Ex) (s : Bool) (t : IntTy) (d a b : R7) (st : State) : Host.Outcome State Fault Refusal :=
  settle (runAlu (intAlu t s .none [.a, .b, .d] (fun v => iarg v 0 * iarg v 1 + iarg v 2))
    x (wordOf (.imad x s t d a b)) st)

/-- IADDC (R116): Add with carry in and out through p7. -/
def execIaddc (x : Option Ex) (s : Bool) (t : IntTy) (d a b : R7) (st : State) : Host.Outcome State Fault Refusal :=
  settle (runAlu (carryAlu t s false)
    x (wordOf (.iaddc x s t d a b)) st)

/-- ISUBB (R116): Subtract with borrow in and out through p7. -/
def execIsubb (x : Option Ex) (s : Bool) (t : IntTy) (d a b : R7) (st : State) : Host.Outcome State Fault Refusal :=
  settle (runAlu (carryAlu t s true)
    x (wordOf (.isubb x s t d a b)) st)

/-- IMIN (R115): Integer minimum. -/
def execImin (x : Option Ex) (s : Bool) (t : IntTy) (d a b : R7) (st : State) : Host.Outcome State Fault Refusal :=
  settle (runAlu (intAlu t s .none [.a, .b] (fun v => min (iarg v 0) (iarg v 1)))
    x (wordOf (.imin x s t d a b)) st)

/-- IMAX (R115): Integer maximum. -/
def execImax (x : Option Ex) (s : Bool) (t : IntTy) (d a b : R7) (st : State) : Host.Outcome State Fault Refusal :=
  settle (runAlu (intAlu t s .none [.a, .b] (fun v => max (iarg v 0) (iarg v 1)))
    x (wordOf (.imax x s t d a b)) st)

/-- IABS (R115): Integer absolute value. -/
def execIabs (x : Option Ex) (s : Bool) (t : IntTy) (d a : R7) (st : State) : Host.Outcome State Fault Refusal :=
  settle (runAlu (intAlu t s .none [.a] (fun v => ((iarg v 0).natAbs : Int)))
    x (wordOf (.iabs x s t d a)) st)

/-- INEG (R115): Integer negation. -/
def execIneg (x : Option Ex) (s : Bool) (t : IntTy) (d a : R7) (st : State) : Host.Outcome State Fault Refusal :=
  settle (runAlu (intAlu t s .none [.a] (fun v => -(iarg v 0)))
    x (wordOf (.ineg x s t d a)) st)

/-- AND (R117): Bitwise and. -/
def execAnd (x : Option Ex) (s : Bool) (t : IntTy) (d a b : R7) (st : State) : Host.Outcome State Fault Refusal :=
  settle (runAlu (logicAlu t [.a, .b] (fun _ v => arg v 0 &&& arg v 1))
    x (wordOf (.and x s t d a b)) st)

/-- OR (R117): Bitwise or. -/
def execOr (x : Option Ex) (s : Bool) (t : IntTy) (d a b : R7) (st : State) : Host.Outcome State Fault Refusal :=
  settle (runAlu (logicAlu t [.a, .b] (fun _ v => arg v 0 ||| arg v 1))
    x (wordOf (.or x s t d a b)) st)

/-- XOR (R117): Bitwise exclusive or. -/
def execXor (x : Option Ex) (s : Bool) (t : IntTy) (d a b : R7) (st : State) : Host.Outcome State Fault Refusal :=
  settle (runAlu (logicAlu t [.a, .b] (fun _ v => arg v 0 ^^^ arg v 1))
    x (wordOf (.xor x s t d a b)) st)

/-- ANDN (R117): a and not b. -/
def execAndn (x : Option Ex) (s : Bool) (t : IntTy) (d a b : R7) (st : State) : Host.Outcome State Fault Refusal :=
  settle (runAlu (logicAlu t [.a, .b] (fun w v => arg v 0 &&& (arg v 1 ^^^ (2 ^ w - 1))))
    x (wordOf (.andn x s t d a b)) st)

/-- SHL (R117): Shift left. -/
def execShl (x : Option Ex) (s : Bool) (t : IntTy) (d a b : R7) (st : State) : Host.Outcome State Fault Refusal :=
  settle (runAlu (shiftAlu t .shl [.a, .b] (fun w v => shlVal w (arg v 0) (arg v 1)))
    x (wordOf (.shl x s t d a b)) st)

/-- SHR (R117): Logical shift right. -/
def execShr (x : Option Ex) (s : Bool) (t : IntTy) (d a b : R7) (st : State) : Host.Outcome State Fault Refusal :=
  settle (runAlu (shiftAlu t .none [.a, .b] (fun w v => shrVal w (arg v 0) (arg v 1)))
    x (wordOf (.shr x s t d a b)) st)

/-- SAR (R117): Arithmetic shift right. -/
def execSar (x : Option Ex) (s : Bool) (t : IntTy) (d a b : R7) (st : State) : Host.Outcome State Fault Refusal :=
  settle (runAlu (shiftAlu t .none [.a, .b] (fun w v => sarVal w (arg v 0) (arg v 1)))
    x (wordOf (.sar x s t d a b)) st)

/-- ROL (R117): Rotate left. -/
def execRol (x : Option Ex) (s : Bool) (t : IntTy) (d a b : R7) (st : State) : Host.Outcome State Fault Refusal :=
  settle (runAlu (shiftAlu t .none [.a, .b] (fun w v => rolVal w (arg v 0) (arg v 1)))
    x (wordOf (.rol x s t d a b)) st)

/-- POPC (R117): Population count. -/
def execPopc (x : Option Ex) (s : Bool) (t : IntTy) (d a : R7) (st : State) : Host.Outcome State Fault Refusal :=
  settle (runAlu ({ logicAlu t [.a] (fun w v => popcount w (arg v 0)) with n := 1 })
    x (wordOf (.popc x s t d a)) st)

/-- CLZ (R117): Count leading zeros. -/
def execClz (x : Option Ex) (s : Bool) (t : IntTy) (d a : R7) (st : State) : Host.Outcome State Fault Refusal :=
  settle (runAlu ({ logicAlu t [.a] (fun w v => clzVal w (arg v 0)) with n := 1 })
    x (wordOf (.clz x s t d a)) st)

/-- BREV (R117): Bit reverse. -/
def execBrev (x : Option Ex) (s : Bool) (t : IntTy) (d a : R7) (st : State) : Host.Outcome State Fault Refusal :=
  settle (runAlu (logicAlu t [.a] (fun w v => brevVal w (arg v 0)))
    x (wordOf (.brev x s t d a)) st)

/-- BFX (R118): Bit-field extract. -/
def execBfx (x : Option Ex) (s : Bool) (t : IntTy) (d a b : R7) (st : State) : Host.Outcome State Fault Refusal :=
  settle (runAlu (shiftAlu t .none [.a, .b] (fun w v => bfxVal w t.signed (arg v 0) (arg v 1)))
    x (wordOf (.bfx x s t d a b)) st)

/-- BFI (R118): Bit-field insert into d. -/
def execBfi (x : Option Ex) (s : Bool) (t : IntTy) (d a b : R7) (st : State) : Host.Outcome State Fault Refusal :=
  settle (runAlu (shiftAlu t .none [.d, .a, .b] (fun w v => bfiVal w (arg v 0) (arg v 1) (arg v 2)))
    x (wordOf (.bfi x s t d a b)) st)

/-- LEA (R119): 64-bit address sum a + ext(b). -/
def execLea (x : Option Ex) (s : Bool) (t : IntTy) (d a b : R7) (st : State) : Host.Outcome State Fault Refusal :=
  settle (runAlu ({ n := 2, w := 32, rule := .lea t.signed, srcs := [(.a, 2), (.b, 1)], f := leaVal t.signed })
    x (wordOf (.lea x s t d a b)) st)

/-- BPICK (R120): Byte pick under a selector. -/
def execBpick (x : Option Ex) (s : Bool) (t : IntTy) (d a b : R7) (st : State) : Host.Outcome State Fault Refusal :=
  settle (runAlu ({ n := 1, w := 32, srcs := [(.a, 1), (.b, 1)], f := fun v => bpickVal (arg v 0) (arg v 1) })
    x (wordOf (.bpick x s t d a b)) st)

end Sys2Proof.Machine
end

