-- ==== Sys2Proof/Machine/Float.lean ====
section
/-! DEFINITION. Floating-point arithmetic in vector registers and conversions (R121 to R127). The special functions,
which are LX instructions, stand in Lx.lean. -/
namespace Sys2Proof.Machine
open Sys2Proof

/-- An instruction on 32-bit registers with the given fields. -/
def alu32 (fs : List Field) (f : List Nat → Nat) : Alu := { n := 1, w := 32, srcs := fs.map (fun g => (g, 1)), f := f }

/-- The packed half-precision format that FMT selects (R124). -/
def halfFmt (m : Bool) : Fmt := if m then fp16 else bf16

/-- An operation on both halves of packed operands (R124). -/
def packed (f : Nat → Nat → Nat → Nat) (vs : List Nat) : Nat :=
  let lo (i : Nat) : Nat := arg vs i % 65536
  let hi (i : Nat) : Nat := arg vs i / 65536 % 65536
  f (lo 0) (lo 1) (lo 2) % 65536 + 65536 * (f (hi 0) (hi 1) (hi 2) % 65536)

/-- FADD (R121). -/
def execFadd (x : Option Ex) (s : Bool) (r : Rm) (d a b : R7) (st : State) : Host.Outcome State Fault Refusal :=
  settle (runAlu (alu32 [.a, .b] (fun v => fadd fp32 r s (arg v 0) (arg v 1))) x (wordOf (.fadd x s r d a b)) st)

/-- FSUB (R121). -/
def execFsub (x : Option Ex) (s : Bool) (r : Rm) (d a b : R7) (st : State) : Host.Outcome State Fault Refusal :=
  settle (runAlu (alu32 [.a, .b] (fun v => fsub fp32 r s (arg v 0) (arg v 1))) x (wordOf (.fsub x s r d a b)) st)

/-- FMUL (R121). -/
def execFmul (x : Option Ex) (s : Bool) (r : Rm) (d a b : R7) (st : State) : Host.Outcome State Fault Refusal :=
  settle (runAlu (alu32 [.a, .b] (fun v => fmul fp32 r s (arg v 0) (arg v 1))) x (wordOf (.fmul x s r d a b)) st)

/-- FFMA (R121): a × b + d, rounded once. -/
def execFfma (x : Option Ex) (s : Bool) (r : Rm) (d a b : R7) (st : State) : Host.Outcome State Fault Refusal :=
  settle (runAlu (alu32 [.a, .b, .d] (fun v => ffma fp32 r s (arg v 0) (arg v 1) (arg v 2)))
    x (wordOf (.ffma x s r d a b)) st)

/-- FMIN (R122). -/
def execFmin (x : Option Ex) (d a b : R7) (st : State) : Host.Outcome State Fault Refusal :=
  settle (runAlu (alu32 [.a, .b] (fun v => fminmax fp32 false (arg v 0) (arg v 1))) x (wordOf (.fmin x d a b)) st)

/-- FMAX (R122). -/
def execFmax (x : Option Ex) (d a b : R7) (st : State) : Host.Outcome State Fault Refusal :=
  settle (runAlu (alu32 [.a, .b] (fun v => fminmax fp32 true (arg v 0) (arg v 1))) x (wordOf (.fmax x d a b)) st)

/-- FCLASS (R122). -/
def execFclass (x : Option Ex) (d a : R7) (st : State) : Host.Outcome State Fault Refusal :=
  settle (runAlu (alu32 [.a] (fun v => fclass (arg v 0))) x (wordOf (.fclass x d a)) st)

/-- FCPYS (R122). -/
def execFcpys (x : Option Ex) (d a b : R7) (st : State) : Host.Outcome State Fault Refusal :=
  settle (runAlu (alu32 [.a, .b] (fun v => fcpys (arg v 0) (arg v 1))) x (wordOf (.fcpys x d a b)) st)

/-- HADD2 (R124). -/
def execHadd2 (x : Option Ex) (m s : Bool) (r : Rm) (d a b : R7) (st : State) : Host.Outcome State Fault Refusal :=
  settle (runAlu (alu32 [.a, .b] (packed (fun p q _ => fadd (halfFmt m) r s p q))) x (wordOf (.hadd2 x m s r d a b)) st)

/-- HMUL2 (R124). -/
def execHmul2 (x : Option Ex) (m s : Bool) (r : Rm) (d a b : R7) (st : State) : Host.Outcome State Fault Refusal :=
  settle (runAlu (alu32 [.a, .b] (packed (fun p q _ => fmul (halfFmt m) r s p q))) x (wordOf (.hmul2 x m s r d a b)) st)

/-- HFMA2 (R124): a × b + d per half, rounded once. -/
def execHfma2 (x : Option Ex) (m s : Bool) (r : Rm) (d a b : R7) (st : State) : Host.Outcome State Fault Refusal :=
  settle (runAlu (alu32 [.a, .b, .d] (packed (fun p q c => ffma (halfFmt m) r s p q c)))
    x (wordOf (.hfma2 x m s r d a b)) st)

/-- HMAX2 (R124). -/
def execHmax2 (x : Option Ex) (m : Bool) (d a b : R7) (st : State) : Host.Outcome State Fault Refusal :=
  settle (runAlu (alu32 [.a, .b] (packed (fun p q _ => fminmax (halfFmt m) true p q))) x (wordOf (.hmax2 x m d a b)) st)

/-- CVT (R125): `dt` is the type code of DST and `st` the SRC code. -/
def execCvt (x : Option Ex) (s : Bool) (r : Rm) (d a : R7) (dt : BitVec 4) (st : BitVec 3) (z : State) :
    Host.Outcome State Fault Refusal :=
  settle (runAlu { n := tyRegs dt.toNat, w := 32, srcs := [(.a, tyRegs (cvtSrcTy st.toNat))],
                   f := fun v => cvtVal dt.toNat (cvtSrcTy st.toNat) r s (arg v 0), narrow := dt.toNat }
    x (wordOf (.cvt x s r d a dt st)) z)

/-- FRND (R127). -/
def execFrnd (x : Option Ex) (r : Rm) (d a : R7) (st : State) : Host.Outcome State Fault Refusal :=
  settle (runAlu (alu32 [.a] (fun v => frnd r (arg v 0))) x (wordOf (.frnd x r d a)) st)

/-! ### CVTQ -/

/-- Lane m of the result of a group, by target (R126). -/
def cvtqLane (t m : Nat) (g : Nat × Nat × List Nat) : Nat :=
  let c (j : Nat) : Nat := g.2.2.getD j 0
  let nib (j : Nat) : Nat := c j + 16 * c (j + 1)
  let four (j : Nat) : Nat := nib j + 256 * nib (j + 2) + 65536 * nib (j + 4) + 16777216 * nib (j + 6)
  let byte (j : Nat) : Nat := c j + 256 * c (j + 1) + 65536 * c (j + 2) + 16777216 * c (j + 3)
  if t == 0 then
    (match m with
    | 0 => four 0
    | 1 => four 8
    | 2 => g.1 + 256 * g.2.1
    | _ => 0)
  else
    (match m with
    | 0 => byte 0
    | 1 => byte 4
    | 2 => byte 8
    | 3 => byte 12
    | 4 => g.1
    | _ => 0)

/-- The lanes of the 16-lane groups that hold an active item (R126). -/
def groupLanes (act : Mask) : Mask :=
  maskOf (fun l => act &&& (if l < 16 then 0xFFFF else 0xFFFF0000) != 0)

/-- Write a value to each lane of a mask of a register, whatever the lanes' items: a full-mask write of those lanes
(R112). -/
def Reg.putLanes (r : Reg) (m : Mask) (vs : List Nat) (ix : Sel → Nat → Nat) : Reg :=
  { form := .m (lanes.map (fun l => BitVec.ofNat 32 (if m.getLsbD l then vs.getD l 0 else r.form.at ix l))),
    poison := r.poison &&& ~~~m, world := r.world &&& ~~~m }

/-- The results of CVTQ in all 32 lanes. -/
def cvtqAll (t : Nat) (esc : Bool) (r : Rm) (src : Nat → Nat) (act : Mask) : List Nat :=
  let grp (g : Nat) : Nat × Nat × List Nat :=
    cvtqGroup t esc r ((List.range 16).map (fun m => if act.getLsbD (16 * g + m) then src (16 * g + m) else 0))
  let g0 := grp 0
  let g1 := grp 1
  lanes.map (fun l => cvtqLane t (l % 16) (if l < 16 then g0 else g1))

/-- CVTQ in a wave. -/
def cvtqWave (t : Nat) (esc : Bool) (r : Rm) (e : Env) : Effect :=
  let i := wordInfo e.x e.word
  let s := e.src i .a 1 32
  let vs := cvtqAll t esc r (s.at e.ix) e.act
  let m := groupLanes e.act
  let u := e.w.view
  let put (u : View) (c : Nat) (m : Mask) : View := u.modReg c (fun q => q.putLanes m vs e.ix)
  if exXo e.x == 1 then
    e.ok (e.w.withView ((maskLanes m).foldl (fun u l =>
      match arrayLane e.w e.x e.ix 1 e.word.d7 l with
      | .ok c => put u c (maskOf (fun j => j == l))
      | .error _ => u) u))
  else if e.word.d7 == 116 then e.ok e.w
  else e.ok (e.w.withView (put u e.word.d7 m))

/-- CVTQ (R126, R51, R52): quantise each 16-lane group. -/
def execCvtq (x : Option Ex) (e s : Bool) (r : Rm) (d a t : R7) (st : State) : Host.Outcome State Fault Refusal :=
  settle (issue (cvtqWave t.toNat e r) waveOnly x (wordOf (.cvtq x e s r d a t)) st)

end Sys2Proof.Machine
end

