-- ==== Sys2Proof/Machine/Move.lean ====
section
/-! DEFINITION. Comparisons, predicate logic, selection and moves (R128 to R135). -/
namespace Sys2Proof.Machine
open Sys2Proof

/-- A comparison: registers of a source, the width of an immediate, and the relation. -/
structure Cmp where
  n : Nat
  w : Nat
  holds : Nat → Nat → Bool

/-- A comparison in a wave: predicate p[d] of each active item (R128). -/
def cmpWave (c : Cmp) (e : Env) : Effect :=
  let i := wordInfo e.x e.word
  let a := e.src i .a c.n c.w
  let b := e.src i .b c.n c.w
  e.ok (e.w.setPred e.word.d7 e.act (maskOf (fun l => c.holds (a.at e.ix l) (b.at e.ix l))))

/-- Write a predicate of a sub-span if its runs are at most four, else the instruction is materialising (R273). -/
def SpanEnv.putRuns (e : SpanEnv) (p : Nat) (r : Runs) : SpanRes :=
  if decide (4 < r.length) && r != e.sub.ids then .mat else .ok e.s e.k [e.step (e.sub.setPred p r)]

/-- A comparison in a span: the exact set of items for which it holds (R273). -/
def cmpSpan (c : Cmp) (e : SpanEnv) : SpanRes :=
  let i := wordInfo e.x e.word
  if readsWave i e.x e.word e.t.isSome || !e.arraysOk || !windowOk i e.x e.word e.view then .mat
  else
    let a := e.src i .a c.n c.w
    let b := e.src i .b c.n c.w
    let test (j : Nat) : Bool := c.holds (a.at e.ix j) (b.at e.ix j)
    e.putRuns e.word.d7 (if a.isUni && b.isUni then (if test 0 then e.sub.ids else []) else e.sub.ids.where_ test)

/-- ICMP's comparison under the type of its EX (R128). -/
def icmpOf (q : ICond) (x : Option Ex) : Cmp := ⟨tyRegs (exTy x), tyWidth (exTy x), icmpHolds q (exTy x)⟩

/-- FCMP's comparison under the type of its EX (R129). -/
def fcmpOf (q : FCond) (x : Option Ex) : Cmp := ⟨1, 32, fcmpHolds q ((fmtOfTy (exTy x)).getD fp32)⟩

/-- ICMP (R128). -/
def execIcmp (x : Option Ex) (q : ICond) (d a b : R7) (st : State) : Host.Outcome State Fault Refusal :=
  settle (issue (cmpWave (icmpOf q x)) (cmpSpan (icmpOf q x)) x (wordOf (.icmp x q d a b)) st)

/-- FCMP (R129). -/
def execFcmp (x : Option Ex) (q : FCond) (d a b : R7) (st : State) : Host.Outcome State Fault Refusal :=
  settle (issue (cmpWave (fcmpOf q x)) (cmpSpan (fcmpOf q x)) x (wordOf (.fcmp x q d a b)) st)

/-- PSET in a wave (R130). -/
def psetWave (q : POp) (e : Env) : Effect :=
  e.ok (e.w.setPred e.word.d7 e.act (psetMask q (e.w.pred e.word.a7) (e.w.pred e.word.b7)))

/-- PSET's operation on runs (R130, R273). -/
def psetRuns (q : POp) (ids a b : Runs) : Runs :=
  match q with
  | .and => a.inter b
  | .or => a.union b
  | .xor => (a.diff b).union (b.diff a)
  | .andn => a.diff b
  | .not => ids.diff a

/-- PSET in a span. -/
def psetSpan (q : POp) (e : SpanEnv) : SpanRes :=
  e.putRuns e.word.d7 (psetRuns q e.sub.ids (e.sub.pred e.word.a7) (e.sub.pred e.word.b7))

/-- PSET (R130). -/
def execPset (x : Option Ex) (q : POp) (d a b : R7) (st : State) : Host.Outcome State Fault Refusal :=
  settle (issue (psetWave q) (psetSpan q) x (wordOf (.pset x q d a b)) st)

/-- The predicates of a lane as PMOV reads them (R131). -/
def Wave.predByte (w : Wave) (l : Nat) : Nat :=
  [0, 1, 2, 3, 4, 5, 6, 7].foldl (fun n p => n + (if (w.pred p).getLsbD l then 2 ^ p else 0)) 0

/-- PMOV fn 0 in a wave (R131). -/
def pmovGetWave (e : Env) : Effect :=
  e.ok (e.put (wordInfo e.x e.word) 1 (.per (lanes.map e.w.predByte)) e.act)

/-- PMOV_GET (R131): predicates into a vector register. -/
def execPmovGet (x : Option Ex) (d : R7) (st : State) : Host.Outcome State Fault Refusal :=
  settle (issue pmovGetWave waveOnly x (wordOf (.pmovGet x d)) st)

/-- PMOV fn 1 in a wave (R131): p[j](i) := a(i)[j] for j from 1 to 7. -/
def pmovSetWave (e : Env) : Effect :=
  let a := e.src (wordInfo e.x e.word) .a 1 32
  e.ok ([1, 2, 3, 4, 5, 6, 7].foldl (fun w p => w.setPred p e.act (maskOf (fun l => bitAt (a.at e.ix l) p))) e.w)

/-- PMOV_SET (R131): predicates from a register. -/
def execPmovSet (x : Option Ex) (a : R7) (st : State) : Host.Outcome State Fault Refusal :=
  settle (issue pmovSetWave waveOnly x (wordOf (.pmovSet x a)) st)

/-- SEL (R132): a where p[fn[2:0]], negated under fn bit 3, is true, else b. -/
def execSel (x : Option Ex) (n : Bool) (p : BitVec 3) (d a b : R7) (st : State) : Host.Outcome State Fault Refusal :=
  settle (runAlu { n := 1, w := 32, srcs := [(.a, 1), (.b, 1)], pred := some (p.toNat, n),
                   f := fun v => if arg v 0 == 1 then arg v 1 else arg v 2 }
    x (wordOf (.sel x n p d a b)) st)

/-- The form of a source register of a MOV: its own form for a vector or index register (R20, R133). -/
def View.formOf (w : View) (ix : Sel → Nat → Nat) (c : Nat) : Out :=
  if isV c || isX c then .copy (w.reg c).form
  else match w.src ix 1 c with
    | .uni v => .uni v
    | .aff b s sel _ => .aff b s sel 32
    | .per vs => .per vs

/-- Whether a copied form is U. -/
def Out.isU : Out → Bool
  | .uni _ => true
  | .copy (.u _) => true
  | _ => false

/-- MOV in a wave: the source with its form; a register array whose index is not uniform gives M (R20, R133). -/
def movWave (e : Env) : Effect :=
  let i := wordInfo e.x e.word
  let o : Out :=
    if exXo e.x == 2 then
      match (e.w.view.reg (arrayIdx e.x)).form with
      | .u _ => e.w.view.formOf e.ix ((arrayLanes i e.w e.x e.word e.act e.ix).2.getD ((maskLanes e.act).headD 0) 0)
      | _ => .per (lanes.map ((e.src i .a 1 32).at e.ix))
    else e.w.view.formOf e.ix e.word.a7
  if isK e.word.d7 && !o.isU then badValue 2 else e.ok (e.put i 1 o e.act)

/-- MOV in a span. -/
def movSpan (e : SpanEnv) : SpanRes :=
  let i := wordInfo e.x e.word
  if readsWave i e.x e.word e.t.isSome || !e.arraysOk || !windowOk i e.x e.word e.view then .mat
  else
    let o := e.view.formOf e.ix ((e.code i .a).getD 116)
    if isK e.word.d7 && !o.isU then .mat
    else
      let r := e.put 1 o
      .ok e.s r.1 [e.step r.2]

/-- MOV (R133). -/
def execMov (x : Option Ex) (d a : R7) (st : State) : Host.Outcome State Fault Refusal :=
  settle (issue movWave movSpan x (wordOf (.mov x d a)) st)

/-- The marks of one lane of a register, as a trap of every acting item that reads it (R340, R373). -/
def laneMark (w : Wave) (c l : Nat) : Option (Nat × Nat) :=
  let m := w.view.marks 1 c
  if m.2.getLsbD l then some (7, 1) else if m.1.getLsbD l then some (0x0B, 0) else none

/-- MOVK in a wave: the value of lane imm7 of a, through its form, as U (R134). -/
def movkWave (e : Env) : Effect :=
  let l := (immOf e.x e.word.b7).toNat
  match laneMark e.w e.word.a7 l with
  | some (c, d) => whole c d
  | none => e.ok (e.put (wordInfo e.x e.word) 1 (.uni ((e.w.view.reg e.word.a7).form.at e.ix l)) e.act)

/-- MOVK (R134). -/
def execMovk (x : Option Ex) (d a i : R7) (st : State) : Host.Outcome State Fault Refusal :=
  settle (issue movkWave waveOnly x (wordOf (.movk x d a i)) st)

/-- LDI (R135): the sign-extended immediate, as U. -/
def execLdi (x : Option Ex) (d i : R7) (st : State) : Host.Outcome State Fault Refusal :=
  settle (runAlu { n := 1, w := 32, srcs := [], f := fun _ => ofInt 32 (immOf x i.toNat) } x (wordOf (.ldi x d i)) st)

/-- LDI_HI (R135): (d & 0x007FFFFF) | (imm << 23). -/
def execLdiHi (x : Option Ex) (d i : R7) (st : State) : Host.Outcome State Fault Refusal :=
  settle (runAlu { n := 1, w := 32, srcs := [(.d, 1)], f := fun v => arg v 0 % 2 ^ 23 + (immOf x i.toNat).toNat % 512 * 2 ^ 23 }
    x (wordOf (.ldiHi x d i)) st)

end Sys2Proof.Machine
end

