-- ==== Sys2Proof/Machine/Access.lean ====
section
/-! DEFINITION. Where an access lands and what it does there: the spaces of R32 to R34 and R27, stash windows (R172),
cores and clusters (R104), remote grants (R361), line sets and conflicts of transactions (R185, R188), and the
reads and writes of bytes. -/
namespace Sys2Proof.Machine
open Sys2Proof

/-! ### Cores (R104) -/

/-- The physical number of a position (R104). -/
def physOf (row col : Nat) : Nat := 14 * row + (if row % 2 == 0 then col else 13 - col)

/-- The enabled physical numbers of a die, ascending. -/
def enabledCores (disabled : List Nat) : List Nat := (List.range 168).filter (fun p => !disabled.contains p)

/-- The disabled positions of a die of a node. -/
def State.disabledOf (s : State) (node die : Nat) : List Nat :=
  ((s.node? node).map (fun d => d.disabled.getD die [])).getD []

/-- The logical number of a position, if a placement may use it (R104). -/
def logicalOf (disabled : List Nat) (row col : Nat) : Option Nat :=
  if 12 ≤ row || 14 ≤ col || disabled.contains (physOf row col) then none
  else
    let n := (enabledCores disabled).findIdx (fun p => p == physOf row col)
    if n < 160 then some n else none

/-- The physical number of a logical core (R104). -/
def physCore (disabled : List Nat) (n : Nat) : Nat := (enabledCores disabled).getD n 0

/-! ### Scratchpad bytes and stash windows -/

/-- Bytes of the ordinary scratchpad S and of the whole allocation S + Y (R96). -/
def Kernel.alloc (k : Kernel) : Nat := k.scr + k.sync

/-- The live window that covers a scratchpad byte (R172). -/
def Team.windowAt (t : Team) (o : Nat) : Option Window :=
  (t.windows.filterMap id).find? (fun w => decide (w.off ≤ o) && decide (o < w.off + w.len))

/-- The context number of a launch. -/
def State.ccnOf (s : State) (n : Nat) : Nat := ((s.launch? n).map (·.ccn)).getD 0

/-- The check of window bytes among `n` scratchpad bytes that failed, if one did: an access of such a byte is a global access of the
team, for reading and writing (R171, R172, R373). -/
def State.windowFault (s : State) (t : Team) (o n : Nat) : Option (Nat × Nat × Bool) :=
  (List.range n).findSome? (fun i => match t.windowAt (o + i) with
    | none => none
    | some w => match s.globalKey t.node t.die (s.ccnOf t.ref.launch) t.segs t.world (w.base.toNat + (o + i - w.off)) 1 .rmw with
      | .ok _ => none
      | .error e => some e)

/-- Where a byte of a team's scratchpad lies: a window's global byte, or the bank (R172; log 56). -/
def State.scrLoc (s : State) (t : Team) (o : Nat) : Loc :=
  match t.windowAt o with
  | none => .scr t.ref o
  | some w => match s.globalKey t.node t.die (s.ccnOf t.ref.launch) t.segs true (w.base.toNat + (o - w.off)) 1 .rmw with
    | .ok k => .glob k
    | .error _ => .scr t.ref o

/-- The locations of `n` scratchpad bytes. -/
def State.scrLocs (s : State) (t : Team) (o n : Nat) : List Loc := (List.range n).map (fun i => s.scrLoc t (o + i))

/-- The locations of `n` bytes from a key. -/
def globLocs (key n : Nat) : List Loc := (List.range n).map (fun i => .glob (key + i))

/-! ### Bytes at locations -/

/-- The byte at a location. -/
def State.peek (s : State) : Loc → Byte
  | .glob a => s.mem.read a
  | .scr t o => ((s.team? t).map (fun m => m.scratch.read o)).getD 0

/-- Store one byte at a location; its poison is cleared. -/
def State.poke (s : State) (l : Loc) (b : Byte) : State :=
  match l with
  | .glob a => (s.store a [b]).unpoison a 1
  | .scr t o => { s with teams := s.teams.map (fun m => if m.ref == t then { m with scratch := m.scratch.write o b } else m) }

/-- Store bytes at locations. -/
def State.pokeAll (s : State) : List Loc → List Byte → State
  | l :: ls, b :: bs => State.pokeAll (s.poke l b) ls bs
  | _, _ => s

/-- The distinct lines of some locations. -/
def linesAt (ls : List Loc) : List Loc := (ls.map Loc.line).eraseDups

/-- A non-transactional write: the bytes, then the conflicts and wake-ups of its lines (R188, R195). -/
def State.writeAt (s : State) (ls : List Loc) (bs : List Byte) (by_ : Option WaveRef) : State :=
  (s.pokeAll ls bs).touchAll (linesAt ls) by_

/-- The bytes at locations. -/
def State.readAt (s : State) (ls : List Loc) : List Byte := ls.map s.peek

/-- The number at locations, little-endian. -/
def State.numAt (s : State) (ls : List Loc) : Nat := ofBytes (s.readAt ls)

/-- Whether a byte at some location is poisoned (R340). -/
def State.poisonedAt (s : State) (ls : List Loc) : Bool :=
  ls.any (fun l => match l with
    | .glob a => s.poison.contains a
    | .scr _ _ => false)

/-- Stop where a location leaves the physical memory of its node (R372). -/
def State.guardLocs (s : State) (ls : List Loc) : State :=
  ls.foldl (fun s l => match l with
    | .glob a => s.guardPhys a 1
    | .scr _ _ => s) s

/-! ### Transactions (R184 to R189) -/

/-- The keys by which the age of a transaction is ordered, the older lower (R184). -/
def State.txAge (s : State) (w : Wave) (t : Tx) : List Nat :=
  match s.team? w.ref.team with
  | none => [t.begun]
  | some m => [t.begun, m.node, m.die, physCore (s.disabledOf m.node m.die) (m.core.getD 0), w.part, w.slot]

/-- Lexicographic order of two lists of keys. -/
def lexLt : List Nat → List Nat → Bool
  | [], _ => false
  | _ :: _, [] => false
  | a :: t, b :: u => decide (a < b) || (a == b && lexLt t u)

/-- The waves on the core of a wave's team. -/
def State.coreWaves (s : State) (w : Wave) : List Wave :=
  match s.team? w.ref.team with
  | none => []
  | some m => s.waves.filter (fun v => (s.team? v.ref.team).any (fun u => u.node == m.node && u.die == m.die && u.core == m.core))

/-- Whether a further line is admitted to a set that holds `own` lines, `lim` of them each wave's own, with `cap` for
one wave in all and a pool of `pool` beyond (R185). -/
def admitLine (own : Nat) (others : List Nat) (lim cap pool : Nat) : Bool :=
  decide (own < lim) || (decide (own < cap) && decide ((others.foldl (fun n k => n + (k - lim)) (own - lim)) < pool))

/-- Note a transactional access to one line: the cause with which the wave's own transaction aborts, or the state with
the younger transactions that conflict aborted and the wave with the line in its set (R185, R188). -/
def State.txLine (s : State) (w : Wave) (line : Loc) (write : Bool) : Except Nat (State × Wave) :=
  match w.tx with
  | none => .ok (s, w)
  | some t =>
    let set := if write then t.wlines else t.rlines
    if set.contains line then .ok (s, w)
    else
      let others := (s.coreWaves w).filter (fun v => v.ref != w.ref)
      let sizes := others.map (fun v => ((v.tx.map (fun u => if write then u.wlines.length else u.rlines.length)).getD 0))
      let fits := if write then admitLine set.length sizes 16 32 128 else admitLine set.length sizes 32 64 256
      if !fits then .error 2
      else
        let hits (v : Wave) : Bool := v.ref != w.ref && (match v.tx with
          | none => false
          | some u => u.wlines.contains line || (write && u.rlines.contains line))
        let elder := s.waves.any (fun v => hits v && (match v.tx with
          | none => false
          | some u => lexLt (s.txAge v u) (s.txAge w t)))
        if elder then .error 1
        else
          .ok ({ s with waves := s.waves.map (fun v => if hits v then v.abortTx 1 else v) },
            { w with tx := some (if write then { t with wlines := line :: t.wlines } else { t with rlines := line :: t.rlines }) })

/-- Note a transactional access to some lines. -/
def State.txLines (s : State) (w : Wave) (write : Bool) : List Loc → Except Nat (State × Wave)
  | [] => .ok (s, w)
  | l :: ls => match s.txLine w l write with
    | .error c => .error c
    | .ok (s', w') => State.txLines s' w' write ls

/-- A byte as a transaction reads it: its own latest write, or memory (R186). -/
def Tx.peek (t : Tx) (s : State) (l : Loc) : Byte := ((t.overlay.find? (fun p => p.1 == l)).map Prod.snd).getD (s.peek l)

/-- The bytes at locations as a wave reads them: through its open transaction, if it has one. -/
def State.waveRead (s : State) (w : Wave) (ls : List Loc) : List Byte :=
  match w.tx with
  | none => s.readAt ls
  | some t => ls.map (t.peek s)

/-- Whether bytes that a wave reads are poisoned; those that its open transaction has written are not (R186, R340). -/
def State.wavePoisoned (s : State) (w : Wave) (ls : List Loc) : Bool :=
  match w.tx with
  | none => s.poisonedAt ls
  | some t => s.poisonedAt (ls.filter (fun o => !t.overlay.any (fun p => p.1 == o)))

/-- A write of a wave: held by its open transaction, or made at once (R186, R188). -/
def State.waveWrite (s : State) (w : Wave) (ls : List Loc) (bs : List Byte) : State × Wave :=
  match w.tx with
  | none => (s.writeAt ls bs (some w.ref), w)
  | some t => (s, { w with tx := some { t with overlay := (ls.zip bs).reverse ++ t.overlay } })

/-! ### The checks of an item's access (R161, R163) -/

/-- The spaces of R161. -/
inductive Space | global | scratch | cluster | acm
  deriving DecidableEq, Repr

/-- Where an item's access lands. -/
inductive Landing
  | at_ (ls : List Loc)
  | acm (word : Nat)
  | remote (node addr : Nat)
  | trap (cause detail : Nat)
  deriving DecidableEq, Repr

/-- Scratchpad bytes of a team: bounds, then the checks of window bytes, then for stores the sync region (R33, R163, R172). A trap of
cause 0 stands for a window byte behind a failed stream (R342). -/
def State.scrAccess (s : State) (t : Team) (k : Kernel) (off n detail : Nat) (store : Bool) : Landing :=
  if k.alloc < off + n then .trap 4 detail
  else match s.windowFault t off n with
    | some (c, d, _) => .trap c d
    | none => if store && decide (k.scr < off + n) then .trap 5 0 else .at_ (s.scrLocs t off n)

/-- The team of a launch on the core that a cluster address names, if that core is a neighbour (R34, R166). Where several teams of an
unstaged launch stand on it, the first of the machine's list is taken (log 55, DESIGN CHOICE). -/
def State.clusterTeam (s : State) (t : Team) (addr : Nat) : Option Team :=
  match t.core, logicalOf (s.disabledOf t.node t.die) (addr / 2 ^ 28 % 16) (addr / 2 ^ 24 % 16) with
  | some c, some n =>
    if c / 4 != n / 4 || addr / 2 ^ 21 % 8 != 0 then none
    else if c == n then some t
    else s.teams.find? (fun u => u.ref.launch == t.ref.launch && u.node == t.node && u.die == t.die && u.core == some n)
  | _, _ => none

/-- The landing of an access of `n` bytes of an item (R161, R163); `store`: the sync-region check applies. -/
def State.land (s : State) (l : Launch) (t0 : Team) (sp : Space) (addr n : Nat) (a : Access) (store : Bool) : Landing :=
  let t := (s.team? t0.ref).getD t0
  match sp with
  | .global => match s.resolve t.node t.segs t.world addr n a with
    | .ok key => .at_ (globLocs key n)
    | .trap c d => .trap c d
    | .remote m => .remote m addr
  | .scratch => s.scrAccess t l.kernel addr n 0 store
  | .cluster => match s.clusterTeam t addr with
    | none => .trap 4 2
    | some u => s.scrAccess u l.kernel (addr % 2 ^ 21) n 2 store
  | .acm => if l.kernel.acm < addr + n / 4 then .trap 4 1 else .acm addr

/-! ### Accumulator words -/

/-- `n` accumulator bytes of a team from a word address. -/
def State.acmRead (s : State) (t : TeamRef) (word n : Nat) : Nat := ((s.team? t).map (fun m => m.acm.word (4 * word) n)).getD 0

/-- Write `n` accumulator bytes of a team at a word address. -/
def State.acmWrite (s : State) (t : TeamRef) (word n v : Nat) : State :=
  { s with teams := s.teams.map (fun m => if m.ref == t then { m with acm := m.acm.writeN (4 * word) (toBytes n v) } else m) }

/-! ### Packets to another node (R357 to R359) -/

/-- Put a packet into its stream. -/
def State.send (s : State) (p : Packet) : State :=
  { s with nextNum := s.nextNum + 1, packets := s.packets ++ [{ p with num := s.nextNum, time := s.time }] }

/-- A request packet of a wave's item (R357, R361). -/
def requestPacket (t : Team) (l : Launch) (w : WaveRef) (pend node : Nat) (addr : Nat) (op : RemoteOp) : Packet :=
  { num := 0, stream := ⟨.request, t.node, t.die, node⟩, addr := BitVec.ofNat 64 addr, ccn := l.ccn, world := t.world,
    time := 0, wave := some w, pend := pend, op := some op, tokens := [], rcb := l.region.rcb, fdom := l.region.fdom }

end Sys2Proof.Machine
end

