-- ==== Sys2Proof/Machine/Lx.lean ====
section
/-! DEFINITION. LX instructions (R68 to R73, R165, R336, R337): one function of captured operands each, their issue, their
completion, and the special functions (R123). -/
namespace Sys2Proof.Machine
open Sys2Proof

/-- What an LX instruction works on: the state, its wave with team and launch, its word with EX, the acting items, its
key, and its operands as captured (R69). `idx` are the index registers of LDT and STT; `marks` are those of register a, or of the
index registers. -/
structure LxIn where
  s : State
  w : Wave
  t : Team
  l : Launch
  x : Option Ex
  word : Word
  act : Mask
  pc : Nat
  key : Nat
  d : Src
  a : Src
  b : Src
  idx : List Src
  marks : Mask × Mask

/-- What an LX instruction does when it is issued. -/
inductive LxOut
  /-- Its effect is made; `writes` are the register results still to be written, `performed` marks a performed update
  (R165), and `waits` counts the answers that have to arrive from other nodes. -/
  | done (s : State) (w : Wave) (writes : List (Nat × Reg)) (performed : Bool) (waits : Nat) (traps : List ItemTrap)
  /-- A trap of every acting item, with no effect. -/
  | trap (cause detail : Nat) (addrs : List (Nat × Nat))
  /-- The illegal-operand trap of a value read once for the wave (check 5 of R385). -/
  | check (detail : Nat) (addrs : List (Nat × Nat))
  /-- The wave's own transaction aborts (R189). -/
  | abort (s : State) (w : Wave) (cause : Nat)

/-- The indices of the lanes. -/
def LxIn.ix (i : LxIn) : Sel → Nat → Nat := (i.s.geo i.w).index

/-- The register results of an LX instruction: `n` registers from a field value, with marks (R340, R373). -/
def lxWrites (c n : Nat) (o : Out) (poison world : Mask) : List (Nat × Reg) :=
  if c == 116 then [] else (List.range n).map (fun i => (c + i, { form := o.form i, poison := poison, world := world }))

/-- Registers that an LX instruction captures from a field (R336); LDT and STT capture their index registers as `idx`. The
predicate that VOTE reads is captured too (R69); R336 gives it no word, and the model gives it one per lane (log 51). -/
def FieldClass.captured : FieldClass → Nat
  | .src n => n
  | .addr => 2
  | .vec n => n
  | .vx => 1
  | .kreg n _ => n
  | .pred => 1
  | _ => 0

/-- Registers captured from d: the data of a store, the compare value of `.cas` and the list of RKPUSH (R336). -/
def lxD (i : OpInfo) (x : Option Ex) (w : Word) : Nat :=
  if w.maj == 0x76 then 1 else if readsD w.maj w.fn (exFx x) then max i.d.regs i.d.captured else 0

/-- Registers captured from b: none for an immediate. -/
def lxB (i : OpInfo) (x : Option Ex) : Nat := if exMode1 x && i.immB then 0 else i.b.captured

/-- The lanes whose words an instruction captures: SHFL reads its source a in any lane (R137). -/
def captureMask (word : Word) (act : Mask) : Mask := if word.maj == 0x40 then 0xFFFFFFFF else act

/-- Whether an LX word is LDT or STT. -/
def isTensorOp (word : Word) : Bool := word.maj == 0x5E || word.maj == 0x5F

/-- The captured operands of several index registers of a lane (R336). -/
def captureIdx (srcs : List Src) (act : Mask) (ix : Sel → Nat → Nat) : Cap :=
  .lane (lanes.map (fun l => if act.getLsbD l then srcs.map (fun q => BitVec.ofNat 32 (q.at ix l)) else []))

/-- The marks of the index registers of LDT and STT. -/
def idxMarks (e : Env) (r : Nat) : Mask × Mask :=
  (List.range r).foldl (fun (m : Mask × Mask) j =>
    let q := e.w.view.marks 1 (e.word.b7 + j)
    (m.1 ||| q.1, m.2 ||| q.2)) (0, 0)

/-- A predicate as a source, 1 in the lanes where it is true (R139). -/
def Env.predSrc (e : Env) (p : Nat) : Src := .per (lanes.map (fun l => b2n ((e.w.pred p).getLsbD l)))

/-- Issue an LX instruction of a wave. `rank` is the number of index registers of LDT and STT. -/
def lxWave (rank : Env → Nat) (f : LxIn → LxOut) (e : Env) : Effect :=
  let i := wordInfo e.x e.word
  let nd := lxD i e.x e.word
  let na := i.a.captured
  let nb := lxB i e.x
  let key := e.s.nextNum
  let src (g : Field) (n : Nat) : Src := if i.field g == .pred then e.predSrc (g.of e.word) else if n == 0 && g != .b then .uni 0 else e.src i g (max n 1) (if n == 2 then 64 else 32)
  let d := src .d nd
  let a := src .a na
  let b := src .b nb
  let idx := if isTensorOp e.word then (List.range (rank e)).map (fun j => e.w.view.src e.ix 1 (e.word.b7 + j)) else []
  let m := captureMask e.word e.act
  let cap (n c : Nat) (q : Src) : Cap := if n == 0 then .none else captureSrc n c q m e.ix
  let input : LxIn :=
    { s := { e.s with nextNum := key + 1 }, w := e.w, t := e.t, l := e.l, x := e.x, word := e.word, act := e.act,
      pc := e.w.groupPc, key := key, d := d, a := a, b := b, idx := idx, marks := if isTensorOp e.word then idxMarks e (rank e) else e.w.view.marks (max na 1) e.word.a7 }
  match f input with
  | .trap c dt ads => .trap c dt 9 ads
  | .check dt ads => .check dt ads
  | .abort s w c => .done s (w.abortTx c) [] true
  | .done s w writes performed waits traps =>
    let act := e.act &&& ~~~(maskOf (fun l => traps.any (fun t => t.lane == l)))
    if exXo e.x == 1 then
      match writes with
      | [] => .done s w traps false
      | p :: _ => .done s ({ e with w := w }.put i 1 (.copy p.2.form) act) traps false
    else if act == 0 || (writes.isEmpty && waits == 0) then .done s w traps false
    else
      let p : Pend :=
        { key := key, word := e.word, exw := (e.x.map Ex.word).getD 0, mask := act, performed := performed,
          win := lanes.map (fun _ => e.word.fn), cd := cap nd e.word.d7 d, ca := cap na e.word.a7 a,
          cb := if isTensorOp e.word then captureIdx idx e.act e.ix else cap nb e.word.b7 b,
          writes := writes, waits := waits, pc := e.w.groupPc }
      .done s { w with pend := w.pend ++ [p] } traps false

/-- LX_COMPLETE (R69): the results of one unfinished LX instruction, whose answers have all arrived, are written. In a wave that is
stopped the entry stands in the replay queue instead (R73). -/
def State.lxComplete (s : State) (r : WaveRef) (key : Nat) : State :=
  match s.wave? r with
  | none => s
  | some w =>
    match w.pend.find? (fun p => p.key == key) with
    | none => s
    | some p =>
      if p.waits != 0 || w.status != .ready || !(s.team? r.team).any (fun t => t.core.isSome && !t.saved) then s
      else s.setWave { w.landAll p (s.geo w).index s.time with pend := w.pend.filter (fun q => q.key != key) }

/-- LX_COMPLETE (R69). -/
def execLxComplete (r : WaveRef) (e : Nat) (s : State) : Host.Outcome State Fault Refusal := settle (s.lxComplete r e)

/-! ### Special functions (R123) -/

/-- A special function of one operand, as an LX instruction. -/
def sfuLx (f : Nat → Nat) (i : LxIn) : LxOut :=
  let o := outOf .none 32 [i.a] (fun v => f (arg v 0)) i.act i.ix
  .done i.s i.w (lxWrites i.word.d7 1 o 0 0) false 0 []

/-- The function of a special-function major with the rounding and saturation of its EX (R123). -/
def sfuFn (maj : Nat) (x : Option Ex) : Nat → Nat :=
  let rm := Rm.ofCode (exRm x)
  let sat := exSat x
  match maj with
  | 0x26 => frcp rm sat
  | 0x27 => frsq rm sat
  | 0x28 => fsqrt rm sat
  | 0x29 => exp2To fp32 rm sat
  | 0x2A => flog2 rm sat
  | 0x2B => ftrig false rm sat
  | 0x2C => ftrig true rm sat
  | _ => ftanh rm sat

/-- Run a special function. -/
def runSfu (maj : Nat) (x : Option Ex) (word : Word) (s : State) : State :=
  issue (lxWave (fun _ => 0) (sfuLx (sfuFn maj x))) (aluSpan (alu32 [.a] (fun v => sfuFn maj x (arg v 0)))) x word s

/-- FRCP (R123). -/
def execFrcp (x : Option Ex) (l : BitVec 4) (d a : R7) (s : State) : Host.Outcome State Fault Refusal :=
  settle (runSfu 0x26 x (wordOf (.frcp x l d a)) s)

/-- FRSQ (R123). -/
def execFrsq (x : Option Ex) (l : BitVec 4) (d a : R7) (s : State) : Host.Outcome State Fault Refusal :=
  settle (runSfu 0x27 x (wordOf (.frsq x l d a)) s)

/-- FSQRT (R123). -/
def execFsqrt (x : Option Ex) (l : BitVec 4) (d a : R7) (s : State) : Host.Outcome State Fault Refusal :=
  settle (runSfu 0x28 x (wordOf (.fsqrt x l d a)) s)

/-- FEXP2 (R123). -/
def execFexp2 (x : Option Ex) (l : BitVec 4) (d a : R7) (s : State) : Host.Outcome State Fault Refusal :=
  settle (runSfu 0x29 x (wordOf (.fexp2 x l d a)) s)

/-- FLOG2 (R123). -/
def execFlog2 (x : Option Ex) (l : BitVec 4) (d a : R7) (s : State) : Host.Outcome State Fault Refusal :=
  settle (runSfu 0x2A x (wordOf (.flog2 x l d a)) s)

/-- FSIN (R123). -/
def execFsin (x : Option Ex) (l : BitVec 4) (d a : R7) (s : State) : Host.Outcome State Fault Refusal :=
  settle (runSfu 0x2B x (wordOf (.fsin x l d a)) s)

/-- FCOS (R123). -/
def execFcos (x : Option Ex) (l : BitVec 4) (d a : R7) (s : State) : Host.Outcome State Fault Refusal :=
  settle (runSfu 0x2C x (wordOf (.fcos x l d a)) s)

/-- FTANH (R123). -/
def execFtanh (x : Option Ex) (l : BitVec 4) (d a : R7) (s : State) : Host.Outcome State Fault Refusal :=
  settle (runSfu 0x2D x (wordOf (.ftanh x l d a)) s)

end Sys2Proof.Machine
end

