-- ==== Sys2Proof/Machine/CrossLane.lean ====
section
/-! DEFINITION. Cross-lane and irregular instructions (R136 to R146) and WORK (R158). -/
namespace Sys2Proof.Machine
open Sys2Proof

/-- No index registers. -/
def noRank (_ : Env) : Nat := 0

/-- Run an LX instruction of the Wave class (R272). -/
def runLx (f : LxIn → LxOut) (x : Option Ex) (word : Word) (s : State) : State := issue (lxWave noRank f) waveOnly x word s

/-- A completed register result without traps. -/
def LxIn.result (i : LxIn) (n : Nat) (o : Out) : LxOut := .done i.s i.w (lxWrites i.word.d7 n o 0 0) false 0 []

/-- The trap of an item that reads a marked lane (R340, R373). -/
def markTrap (m : Mask × Mask) (src l : Nat) : Option ItemTrap :=
  if m.2.getLsbD src then some ⟨l, 7, 1, 0⟩ else if m.1.getLsbD src then some ⟨l, 0x0B, 0, 0⟩ else none

/-! ### SHFL and SHFLX -/

/-- The source lane of SHFL (R137). -/
def shflLane (fx lane y : Nat) : Nat :=
  match fx with
  | 0 => y % 32
  | 1 => (lane + y) % 32
  | 2 => if y ≤ 5 then Nat.xor lane (2 ^ y - 1) else lane
  | _ => if y ≤ 4 then Nat.xor lane (2 ^ y) else lane

/-- SHFL on captured operands (R137). -/
def shflLx (i : LxIn) : LxOut :=
  let src (l : Nat) : Nat := shflLane (exFx i.x) l (i.b.at i.ix l)
  let traps := (maskLanes i.act).filterMap (fun l => markTrap i.marks (src l) l)
  let o : Out := if i.a.isUni then .uni (i.a.at i.ix 0) else .per (lanes.map (fun l => i.a.at i.ix (src l)))
  .done i.s i.w (lxWrites i.word.d7 1 o 0 0) false 0 traps

/-- SHFL (R137). -/
def execShfl (x : Option Ex) (l : BitVec 4) (d a b : R7) (s : State) : Host.Outcome State Fault Refusal :=
  settle (runLx shflLx x (wordOf (.shfl x l d a b)) s)

/-- The wave and register that SHFLX reads for an item, if there is one (R138). -/
def shflxSource (i : LxIn) (y : Nat) : Option (Wave × Nat) :=
  if 128 ≤ y then none
  else
    let n := 4 * (i.w.ref.num / 4) + y / 32
    let v := if n == i.w.ref.num then some i.w else i.s.wave? ⟨i.w.ref.team, n⟩
    v.bind (fun v => if v.live == 0 || decide (v.quota ≤ v.wb + i.word.a7) then none else some (v, v.wb + i.word.a7))

/-- SHFLX on captured operands (R138). -/
def shflxLx (i : LxIn) : LxOut :=
  let one (l : Nat) : Nat × Option ItemTrap :=
    let y := i.b.at i.ix l
    match shflxSource i y with
    | none => (0, none)
    | some (v, r) =>
      let q := v.v.getD r {}
      (q.form.at (i.s.geo v).index (y % 32), markTrap (q.poison, q.world) (y % 32) l)
  let rs := lanes.map one
  .done i.s i.w (lxWrites i.word.d7 1 (.per (rs.map Prod.fst)) 0 0) false 0
    ((maskLanes i.act).filterMap (fun l => (rs.getD l (0, none)).2))

/-- SHFLX (R138). -/
def execShflx (x : Option Ex) (l : BitVec 4) (d a b : R7) (s : State) : Host.Outcome State Fault Refusal :=
  settle (runLx shflxLx x (wordOf (.shflx x l d a b)) s)

/-! ### VOTE -/

/-- VOTE on captured operands (R139). -/
def voteLx (i : LxIn) : LxOut :=
  let p := maskOf (fun l => i.a.at i.ix l != 0)
  let vs := (maskLanes i.act).map (fun l => i.a.at i.ix l)
  i.result 1 (.uni (match exFx i.x with
    | 0 => b2n (p &&& i.act != 0)
    | 1 => b2n (p &&& i.act == i.act)
    | 2 => (p &&& i.act).toNat
    | _ => b2n (vs.all (fun v => v == vs.headD 0))))

/-- VOTE (R139). -/
def execVote (x : Option Ex) (l : BitVec 4) (d a : R7) (s : State) : Host.Outcome State Fault Refusal :=
  settle (runLx voteLx x (wordOf (.vote x l d a)) s)

/-! ### Reductions (R55, R140 to R142) -/

/-- The identity of an operation (the table of R142). -/
def reduxIdentity (ty op : Nat) : Nat :=
  if ty == 8 then (match op with
    | 0 => 0
    | 1 => 0x7F800000
    | _ => 0xFF800000)
  else
    let w := tyWidth ty
    match op with
    | 0 => 0
    | 1 => regOfInt ty (if tySigned ty then 2 ^ (w - 1) - 1 else 2 ^ w - 1)
    | 2 => if tySigned ty then regOfInt ty (-(2 ^ (w - 1))) else 0
    | 3 => regOfInt ty (2 ^ w - 1)
    | _ => 0

/-- Combine two values of a type under an operation with one rounding; integer sums are reduced (R55, R140). -/
def reduxStep (ty op rm : Nat) (sat : Bool) (a b : Nat) : Nat :=
  if ty == 8 then (match op with
    | 0 => fadd fp32 (Rm.ofCode rm) sat a b
    | 1 => fminmax fp32 false a b
    | _ => fminmax fp32 true a b)
  else
    let w := tyWidth ty
    match op with
    | 0 => regOfInt ty (intVal ty a + intVal ty b)
    | 1 => regOfInt ty (min (intVal ty a) (intVal ty b))
    | 2 => regOfInt ty (max (intVal ty a) (intVal ty b))
    | 3 => regOfInt ty ((a % 2 ^ w &&& b % 2 ^ w : Nat) : Int)
    | 4 => regOfInt ty ((a % 2 ^ w ||| b % 2 ^ w : Nat) : Int)
    | _ => regOfInt ty ((a % 2 ^ w ^^^ b % 2 ^ w : Nat) : Int)

/-- A single value as the operand of a reduction, in its register form (R109). -/
def reduxOne (ty a : Nat) : Nat := if ty == 8 then a else regOfInt ty (intVal ty a)

/-- A reduction's value as a result: a floating-point one follows R39 and R49 even where no addition has touched it. -/
def reduxOut (ty rm : Nat) (sat : Bool) (v : Nat) : Nat := if ty == 8 then fp32.ofVal (Rm.ofCode rm) sat (fp32.decode v) else v

/-- The reduction of values in their order; an integer sum under SAT is exact and clamped once (R55). -/
def reduxAll (ty op rm : Nat) (sat : Bool) (vs : List Nat) : Option Nat :=
  match vs with
  | [] => none
  | v :: t =>
    if ty != 8 && op == 0 && sat then
      some (regOfInt ty (clampInt (tyWidth ty) (tySigned ty) (vs.foldl (fun (e : Int) a => e + intVal ty a) 0)))
    else some (reduxOut ty rm sat (t.foldl (reduxStep ty op rm sat) (reduxOne ty v)))

/-- The parameters of a reduction: type, operation, rounding and saturation. -/
structure ReduxOp where
  ty : Nat
  op : Nat
  rm : Nat
  sat : Bool
  deriving DecidableEq, Repr

/-- The parameters of an EX. -/
def reduxOp (x : Option Ex) : ReduxOp := ⟨exTy x, exFx x % 8, exRm x, exSat x⟩

/-- Write both words of a completed round's record: the combination, then word 1 plus 1 (R141). A round that only waves without an
active item opened may have a record that no check has seen; where it lies outside [0, S) nothing is written (log 52);
nor where a window byte of it fails its checks (R172). -/
def State.finishRound (s : State) (t : Team) (r : Round) : State :=
  let sorted := lanes.filterMap (fun n => (r.parts.find? (fun p => p.1 == n)).map (fun p => p.2.toNat))
  let v := (reduxAll r.ty r.op r.rm r.sat sorted).getD (reduxIdentity r.ty r.op)
  let ls := s.scrLocs t r.off 8
  let s1 := s.writeAt (ls.take 4) (toBytes 4 v) none
  let n := s1.numAt (ls.drop 4)
  let s2 := s1.writeAt (ls.drop 4) (toBytes 4 (n + 1)) none
  let lies := r.off % 4 == 0 && (s.launch? t.ref.launch).all (fun l => decide (r.off + 8 ≤ l.kernel.scr)) && (s.windowFault t r.off 8).isNone
  (if lies then s2 else s).modTeam t.ref (fun m => { m with round := none })

/-- Complete the team's round if every wave that has not ended has contributed (R141). -/
def State.checkRound (s : State) (t : TeamRef) : State :=
  match s.team? t with
  | none => s
  | some m => match m.round with
    | none => s
    | some r =>
      let waiting := s.waves.any (fun w => w.ref.team == t && w.live != 0 && !r.done.contains w.ref.num)
      if waiting then s else s.finishRound m r

/-- Add a wave's contribution to its team's round (R141). -/
def State.contribute (s : State) (t : TeamRef) (n off : Nat) (o : ReduxOp) (part : Option Word) : State :=
  let add (m : Team) : Team :=
    let r : Round := m.round.getD ⟨off, o.op, o.ty, o.rm, o.sat, [], []⟩
    { m with round := some { r with parts := (part.map (fun v => [(n, v)])).getD [] ++ r.parts, done := n :: r.done } }
  (s.modTeam t add).checkRound t

/-- The check of a contribution against a round (R141). -/
def roundClash (n off : Nat) (o : ReduxOp) (r : Round) : Bool :=
  r.done.contains n || r.off != off || r.op != o.op || r.ty != o.ty || r.rm != o.rm || r.sat != o.sat

/-- REDUX on captured operands (R140, R141, R187). Under team scope a wave with no active item makes no check of a value (R87):
it counts as having contributed none, in the open round or in a new one. -/
def reduxLx (i : LxIn) : LxOut :=
  let o := reduxOp i.x
  let v := reduxAll o.ty o.op o.rm o.sat ((maskLanes i.act).map (fun l => i.a.at i.ix l))
  let ws := lxWrites i.word.d7 (tyRegs o.ty) (.uni (v.getD 0)) 0 0
  if exFx i.x < 8 then .done i.s i.w ws false 0 []
  else
    let off := i.b.at i.ix 0
    let m := (i.s.team? i.t.ref).getD i.t
    let held := ((i.w.tx.map (·.redux)).getD []).any (fun r => roundClash i.w.ref.num off o r)
    if i.act == 0 then
      (match i.w.tx with
        | none => .done (i.s.contribute i.t.ref i.w.ref.num off o none) i.w [] true 0 []
        | some t => .done i.s { i.w with tx := some { t with redux := t.redux ++ [⟨off, o.op, o.ty, o.rm, o.sat, [], [i.w.ref.num]⟩] } } [] true 0 [])
    else if off % 4 != 0 then .check 8 []
    else if i.l.kernel.scr < off + 8 then .trap 4 0 ((maskLanes i.act).map (fun l => (l, off)))
    else if let some (c, d, _) := i.s.windowFault m off 8 then .trap c d ((maskLanes i.act).map (fun l => (l, off)))
    else if held || (m.round.map (roundClash i.w.ref.num off o)).getD false then .trap 2 8 []
    else
      let part : Option Word := v.map (BitVec.ofNat 32)
      match i.w.tx with
      | none => .done (i.s.contribute i.t.ref i.w.ref.num off o part) i.w ws true 0 []
      | some t =>
        let r : Round := ⟨off, o.op, o.ty, o.rm, o.sat, (part.map (fun v => [(i.w.ref.num, v)])).getD [], [i.w.ref.num]⟩
        .done i.s { i.w with tx := some { t with redux := t.redux ++ [r] } } ws true 0 []

/-- REDUX (R140, R141). -/
def execRedux (x : Option Ex) (l : BitVec 4) (d a b : R7) (s : State) : Host.Outcome State Fault Refusal :=
  settle (runLx reduxLx x (wordOf (.redux x l d a b)) s)

/-- SCAN on captured operands (R142). -/
def scanLx (i : LxIn) : LxOut :=
  let o := reduxOp i.x
  let upTo (l : Nat) : List Nat := ((maskLanes i.act).filter (fun j => j < l || (exFx i.x < 8 && j == l))).map (fun j => i.a.at i.ix j)
  let v (l : Nat) : Nat := (reduxAll o.ty o.op o.rm o.sat (upTo l)).getD (reduxIdentity o.ty o.op)
  i.result (tyRegs o.ty) (.per (lanes.map (fun l => if i.act.getLsbD l then v l else 0)))

/-- SCAN (R142). -/
def execScan (x : Option Ex) (l : BitVec 4) (d a : R7) (s : State) : Host.Outcome State Fault Refusal :=
  settle (runLx scanLx x (wordOf (.scan x l d a)) s)

/-! ### RBAL, BIN, MRG, SORTK -/

/-- The (row, offset) of a flattened position among rows of given lengths (R143). -/
def rbalFind : List Nat → Nat → Nat → Nat × Nat
  | [], _, _ => (0xFFFFFFFF, 0)
  | n :: t, j, q => if q < n then (j, q) else rbalFind t (j + 1) (q - n)

/-- RBAL on captured operands (R143). -/
def rbalLx (i : LxIn) : LxOut :=
  if !i.b.isUni then .check 3 []
  else
    let rows := lanes.map (fun l => if i.act.getLsbD l then i.a.at i.ix l else 0)
    let one (l : Nat) : Nat :=
      let r := rbalFind rows 0 (i.b.at i.ix 0 + l)
      r.1 + 2 ^ 32 * r.2
    i.result 2 (.per (lanes.map one))

/-- RBAL (R143). -/
def execRbal (x : Option Ex) (l : BitVec 4) (d a b : R7) (s : State) : Host.Outcome State Fault Refusal :=
  settle (runLx rbalLx x (wordOf (.rbal x l d a b)) s)

/-- BIN for one bin: the state, the wave and the counts read so far, each by its key; `none` within a transaction: the
cause of its abort (R144, R187). -/
def binStep (lsOf : Nat → List Loc) (n : Nat → Nat) (acc : Except Nat (State × Wave × List (Nat × Nat))) (key : Nat) :
    Except Nat (State × Wave × List (Nat × Nat)) :=
  match acc with
  | .error c => .error c
  | .ok (s, w, olds) =>
    let ls := lsOf key
    match s.txLines w false (linesAt ls) with
    | .error c => .error c
    | .ok (s1, w1) => match s1.txLines w1 true (linesAt ls) with
      | .error c => .error c
      | .ok (s2, w2) =>
        let old := ofBytes (s2.waveRead w2 ls)
        let r := s2.waveWrite w2 ls (toBytes 4 (old + n key))
        .ok (r.1, r.2, (key, old) :: olds)

/-- BIN on captured operands (R144). -/
def binLx (i : LxIn) : LxOut :=
  let kb := i.b.at i.ix 0
  let c := kb % 2 ^ 32
  let nb := kb / 2 ^ 32
  if nb == 0 || 65536 < nb || c % 4 != 0 then .check 8 []
  else if i.l.kernel.scr < c + 4 * nb then .trap 4 0 ((maskLanes i.act).map (fun l => (l, c)))
  else
    let t := (i.s.team? i.t.ref).getD i.t
    let key (l : Nat) : Nat := i.a.at i.ix l
    let inRange := (maskLanes i.act).filter (fun l => key l < nb)
    let lsOf (k : Nat) : List Loc := i.s.scrLocs t (c + 4 * k) 4
    let bad (l : Nat) : Option ItemTrap :=
      match i.s.land i.l i.t .scratch (c + 4 * key l) 4 .rmw false with
      | .trap 0 _ => some ⟨l, 6, 10, c + 4 * key l⟩
      | .trap cs d => some ⟨l, cs, d, c + 4 * key l⟩
      | _ => if i.s.wavePoisoned i.w (lsOf (key l)) then some ⟨l, 0x0B, 1, c + 4 * key l⟩ else none
    let traps := inRange.filterMap bad
    let act := inRange.filter (fun l => (bad l).isNone)
    let keys := (act.map key).eraseDups
    let s0 := traps.foldl (fun s u => s.worldTrapNotice i.t i.w i.l u.cause u.detail) i.s
    match keys.foldl (binStep lsOf (fun k => (act.filter (fun l => key l == k)).length)) (.ok (s0, i.w, [])) with
    | .error cs => .abort i.s i.w cs
    | .ok (s, w, olds) =>
      let rank (l : Nat) : Nat :=
        if key l < nb then
          ((olds.find? (fun p => p.1 == key l)).map Prod.snd).getD 0 + (act.filter (fun j => j < l && key j == key l)).length
        else 0xFFFFFFFF
      .done s w (lxWrites i.word.d7 1 (.per (lanes.map rank)) 0 0) true 0 traps

/-- BIN (R144). -/
def execBin (x : Option Ex) (l : BitVec 4) (d a b : R7) (s : State) : Host.Outcome State Fault Refusal :=
  settle (runLx binLx x (wordOf (.bin x l d a b)) s)

/-- The length of a sorted stream from lane `l` on, after the key `prev` (R145). -/
def streamLen (act : Mask) (key : Nat → Int) : Nat → Nat → Nat
  | 0, _ => 0
  | fuel + 1, l =>
    if act.getLsbD l && (l == 0 || decide (key (l - 1) < key l)) then 1 + streamLen act key fuel (l + 1) else 0

/-- Merge two nondecreasing lists, keys of the first before equal keys of the second (R145). -/
def mergeKeys (le : Nat → Nat → Bool) : Nat → List Nat → List Nat → List Nat
  | 0, p, q => p ++ q
  | _ + 1, [], q => q
  | _ + 1, p, [] => p
  | fuel + 1, a :: p, b :: q => if le a b then a :: mergeKeys le fuel p (b :: q) else b :: mergeKeys le fuel (a :: p) q

/-- MRG on captured operands (R145). -/
def mrgLx (i : LxIn) : LxOut :=
  let ty := exTy i.x
  let ka (l : Nat) : Nat := i.a.at i.ix l
  let kb (l : Nat) : Nat := i.b.at i.ix l
  let la := streamLen i.act (fun l => intVal ty (ka l)) 32 0
  let lb := streamLen i.act (fun l => intVal ty (kb l)) 32 0
  let endA := la < 32 && i.act.getLsbD la
  let endB := lb < 32 && i.act.getLsbD lb
  if exFx i.x % 2 == 1 && (endA || endB) then .trap 0x0D (b2n endA + 2 * b2n endB) []
  else
    let m := mergeKeys (fun a b => decide (intVal ty a ≤ intVal ty b)) 64 ((List.range la).map ka) ((List.range lb).map kb)
    let pad := if ty == 0 then 0x7FFFFFFF else 0xFFFFFFFF
    let v (l : Nat) : Nat := m.getD l pad + 2 ^ 32 * m.getD (l + 32) pad
    .done i.s { i.w with ord := i.w.ord || endA || endB } (lxWrites i.word.d7 2 (.per (lanes.map v)) 0 0) false 0 []

/-- MRG (R145). -/
def execMrg (x : Option Ex) (l : BitVec 4) (d a b : R7) (s : State) : Host.Outcome State Fault Refusal :=
  settle (runLx mrgLx x (wordOf (.mrg x l d a b)) s)

/-- A key of SORTK as it is written (R146). -/
def sortKey (ty k : Nat) : Nat := if ty == 8 && (fp32.decode k).isNan then fp32.nanCode else k

/-- The rank of a key of SORTK (R146). -/
def sortRank (ty k : Nat) : Int := if ty == 8 then fkey fp32 (sortKey 8 k) else intVal ty k

/-- Insert by an order, after equal elements. -/
def insertBy {α : Type} (lt : α → α → Bool) (x : α) : List α → List α
  | [] => [x]
  | h :: t => if lt x h then x :: h :: t else h :: insertBy lt x t

/-- SORTK on captured operands (R146). -/
def sortkLx (i : LxIn) : LxOut :=
  let ty := exTy i.x
  let desc := exFx i.x % 2 == 1
  let pairs := (maskLanes i.act).map (fun l => (i.a.at i.ix l % 2 ^ 32, i.a.at i.ix l / 2 ^ 32))
  let lt (p q : Nat × Nat) : Bool :=
    let a := sortRank ty p.1
    let b := sortRank ty q.1
    if a == b then decide (p.2 < q.2) else if desc then decide (b < a) else decide (a < b)
  let sorted := pairs.foldl (fun l p => insertBy lt p l) []
  let v (l : Nat) : Nat := match sorted[l]? with
    | none => 2 ^ 64 - 1
    | some p => sortKey ty p.1 + 2 ^ 32 * p.2
  i.result 2 (.per (lanes.map v))

/-- SORTK (R146). -/
def execSortk (x : Option Ex) (l : BitVec 4) (d a : R7) (s : State) : Host.Outcome State Fault Refusal :=
  settle (runLx sortkLx x (wordOf (.sortk x l d a)) s)

/-! ### WORK (R158) -/

/-- The four results of WORK for T tiles of I iterations, team `t` of `p` (R158). -/
def workVals (tiles iters p t : Nat) : List Nat :=
  let n := tiles * iters
  let a := t * n / max 1 p
  let b := (t + 1) * n / max 1 p
  if iters == 0 then [0, 0, 0, 0]
  else [a, b, b2n (a < b && a % iters != 0) + 2 * b2n (a < b && b % iters != 0), a / iters]

/-- The trap of WORK for its sources, if any (R158): a non-uniform source, or T × I at or above 2^32. -/
def workTrap (a b : Src) (ix : Sel → Nat → Nat) : Option Nat :=
  if !a.isUni then some 2 else if !b.isUni then some 3
  else if 2 ^ 32 ≤ a.at ix 0 * b.at ix 0 then some 8 else none

/-- WORK on captured operands (R158). -/
def workLx (i : LxIn) : LxOut :=
  match workTrap i.a i.b i.ix with
  | some d => .check d []
  | none =>
    let vs := workVals (i.a.at i.ix 0) (i.b.at i.ix 0) (teamCount i.l.ext i.l.kernel.shape) i.t.ref.tm
    .done i.s i.w ((List.range 4).flatMap (fun j => lxWrites (if i.word.d7 == 116 then 116 else i.word.d7 + j) 1 (.uni (arg vs j)) 0 0))
      false 0 []

/-- WORK in a span: once per team sub-span (R272). -/
def workSpan (e : SpanEnv) : SpanRes :=
  let i := wordInfo e.x e.word
  let a := e.src i .a 1 32
  let b := e.src i .b 1 32
  if e.t.isNone || readsWave i e.x e.word true || !windowOk i e.x e.word e.view || (workTrap a b e.ix).isSome then .mat
  else
    let vs := workVals (a.at e.ix 0) (b.at e.ix 0) (teamCount e.l.ext e.l.kernel.shape) ((e.t.map (fun t => t.ref.tm)).getD 0)
    let u := if e.word.d7 == 116 then e.view else
      (List.range 4).foldl (fun u j => u.put (e.word.d7 + j) 1 (.uni (arg vs j)) 0xFFFFFFFF 0xFFFFFFFF e.ix 0) e.view
    .ok e.s u.k [e.step { e.sub with v := u.v, x := u.x }]

/-- WORK (R158). -/
def execWork (x : Option Ex) (l : BitVec 4) (d a b : R7) (s : State) : Host.Outcome State Fault Refusal :=
  settle (issue (lxWave noRank workLx) workSpan x (wordOf (.work x l d a b)) s)

end Sys2Proof.Machine
end

