-- ==== Sys2Proof/Machine/Teams.lean ====
section
/-! DEFINITION. How waves, teams and launches end (R151, R203, R271, R286, R287): barrier completion, the rows of an ended
wave, retirement, and the completion word of a launch. -/
namespace Sys2Proof.Machine
open Sys2Proof

/-! ### What a core holds (R277, R278) -/

/-- The resources of a core that its teams hold: the waves' slots, the rows of each partition, and bytes and words. -/
structure CoreUse where
  scr : Nat
  acm : Nat
  slots : List (Nat × Nat)
  rows : List Nat
  spill : Nat
  deriving DecidableEq, Repr

/-- An empty core. -/
def CoreUse.empty : CoreUse := ⟨0, 0, [], [0, 0, 0, 0], 0⟩

/-- The waves of a team that take slots and rows, with their quotas: the live ones, or all before it is cut. -/
def State.teamWaves (s : State) (t : Team) (k : Kernel) : List (Nat × Nat) :=
  if t.cut then (s.waves.filter (fun w => w.ref.team == t.ref)).map (fun w => (w.ref.num, w.quota))
  else (List.range (waveCount k.shape)).map (fun w => (w, k.quota))

/-- The row budget of a wave of a placed team. -/
def State.rowsOf (s : State) (t : Team) (num : Nat) : Nat :=
  match s.wave? ⟨t.ref, num⟩ with
  | some w => w.rowBudget
  | none => (t.slots.getD num (0, 8)).2

/-- Add a placed team to a core's use. -/
def State.addUse (s : State) (u : CoreUse) (t : Team) : CoreUse :=
  match s.launch? t.ref.launch with
  | none => u
  | some l =>
    let ws := s.teamWaves t l.kernel
    { scr := u.scr + l.kernel.alloc, acm := u.acm + l.kernel.acm,
      slots := u.slots ++ ws.map (fun (p : Nat × Nat) => (p.1 % 4, (t.slots.getD p.1 (0, 8)).1)),
      rows := (List.range 4).map (fun j => u.rows.getD j 0 +
        (ws.filter (fun (p : Nat × Nat) => p.1 % 4 == j)).foldl (fun (n : Nat) (p : Nat × Nat) => n + s.rowsOf t p.1) 0),
      spill := u.spill + ws.foldl (fun (n : Nat) (p : Nat × Nat) => n + (p.2 - s.rowsOf t p.1) * 128) 0 }

/-- The teams placed on a core. -/
def State.teamsOn (s : State) (node die core : Nat) : List Team :=
  s.teams.filter (fun t => t.node == node && t.die == die && t.core == some core)

/-- What a core holds. -/
def State.coreUse (s : State) (node die core : Nat) : CoreUse := (s.teamsOn node die core).foldl s.addUse CoreUse.empty

/-! ### Barrier objects (R201 to R204) -/

/-- The barrier masks of an object at an offset; an object never initialised has both masks 0. -/
def Team.barrier (t : Team) (off : Nat) : Barrier := (t.barriers.find? (fun b => b.off == off)).getD ⟨off, 0, 0⟩

/-- Replace the masks of an object. -/
def Team.setBarrier (t : Team) (b : Barrier) : Team := { t with barriers := b :: t.barriers.filter (fun c => c.off != b.off) }

/-- The words of a barrier object. -/
def State.barWord (s : State) (t : Team) (off i : Nat) : Nat := s.numAt (s.scrLocs t (off + 4 * i) 4)

/-- Write a word of a barrier object. -/
def State.setBarWord (s : State) (t : Team) (off i v : Nat) : State := s.writeAt (s.scrLocs t (off + 4 * i) 4) (toBytes 4 v) none

/-- EXPECT of a word 0 (R201). -/
def barExpect (w : Nat) : Nat := bits w 21 16
/-- LEVEL of a word 0 (R201). -/
def barLevel (w : Nat) : Nat := bits w 26 24

/-- The instance of a hardware barrier that a team takes part in (R204): its cluster, die, node or gang. -/
def barInst (s : State) (t : Team) (level : Nat) : Nat :=
  match level with
  | 1 => t.node * 1024 + t.die * 256 + t.core.getD 0 / 4
  | 2 => t.node * 4 + t.die
  | 3 => t.node
  | _ => ((s.launch? t.ref.launch).map (·.gang)).getD 0

/-- The current generation of a hardware barrier (R204, R369). -/
def State.barGen (s : State) (level hwid inst launch : Nat) : Nat :=
  ((s.barriers.find? (fun b => !b.releasing && b.level == level && b.hwid == hwid && b.inst == inst &&
    (level == 4 || b.launch == launch))).map (·.gen)).getD 0

/-- Complete an object's phase if enough waves have arrived or ended (R203). -/
def State.testBarrier (s : State) (tr : TeamRef) (off : Nat) : State :=
  match s.team? tr with
  | none => s
  | some t =>
    let b := t.barrier off
    let w := s.barWord t off 0
    let n := popcount 32 (b.arrived ||| (t.ended &&& ~~~b.ended0)).toNat
    if n < barExpect w then
      s.setBarWord t off 0 (w / 64 * 64 + popcount 32 b.arrived.toNat)
    else
      let s1 := (s.modTeam tr (fun m => m.setBarrier { b with arrived := 0 })).setBarWord t off 0 (w / 64 * 64)
      if barLevel w == 0 then s1.setBarWord t off 1 (s1.barWord t off 1 + 1)
      else { s1 with arrivals := s1.arrivals ++
          [⟨barLevel w, w / 2 ^ 27, barInst s t (barLevel w), tr.launch,
            s.barGen (barLevel w) (w / 2 ^ 27) (barInst s t (barLevel w)) tr.launch, tr, off, s.time⟩] }

/-- The completion test of every barrier object of a team when a wave of it ends (R203). -/
def State.testBarriers (s : State) (tr : TeamRef) : State :=
  match s.team? tr with
  | none => s
  | some t => (t.barriers.filter (fun b => barExpect (s.barWord t b.off 0) ≤ popcount 32 (b.arrived ||| (t.ended &&& ~~~b.ended0)).toNat)).foldl
      (fun s b => s.testBarrier tr b.off) s

/-! ### Launch completion (R271) -/

/-- Write a word through a launch's segments, if its address passes the checks (R271). -/
def State.seqWrite (s : State) (l : Launch) (addr : Nat) (v : Nat) : Except (Nat × Nat) State :=
  match s.globalKey l.node l.die l.ccn l.segs l.region.world addr 4 .write with
  | .ok k => .ok (s.wrPhys k (toBytes 4 v) none)
  | .error (c, d, _) => .error (c, d)

/-- The notice of a world check that a write or a read for a launch failed (R374). -/
def State.launchNotice (s : State) (l : Launch) (c d : Nat) : State :=
  if c == 7 then s.worldNotice l.node (c + 256 * d) l.region.rcb (whereWord l.node l.die 0 0 0 0) else s

/-- A state from a write for a launch that may have failed. -/
def orKeep (s : State) (l : Launch) (r : Except (Nat × Nat) State) : State :=
  match r with
  | .ok s' => s'
  | .error (c, d) => s.launchNotice l c d

/-- A launch with the segment table of its context as it stands now: a later write is checked against it (R271). -/
def State.withSegs (s : State) (l : Launch) : Launch :=
  { l with segs := s.segTable l.node (s.rcbWord l.node l.region.ctxRcb 0x30 8) }

/-- Complete a launch: STATE 2, then the completion word, or a KIND 9 record (R271). -/
def State.finishLaunch (s : State) (l0 : Launch) : State :=
  let l := s.withSegs l0
  let s1 : State := { s with launches := s.launches.filter (fun m => m.num != l.num) }
  let s2 := orKeep s1 l (s1.seqWrite l (l.record + 0x2C) 2)
  if l.doneAddr == 0 then s2
  else
    match s2.seqWrite l l.doneAddr l.doneVal with
    | .ok s3 => s3
    | .error (c, d) =>
      (s2.publish l.node l.region.fdom
        ⟨9, c + 256 * d, l.region.rcb, 0, whereWord l.node l.die 0 0 0 0, 0, l.record, 0, 0, s.time⟩).launchNotice l c d

/-- Complete a launch if every item has ended and every team has retired (R271). -/
def State.checkLaunch (s : State) (n : Nat) : State :=
  match s.launch? n with
  | none => s
  | some l =>
    if l.running && l.subs.isEmpty && s.teams.all (fun t => t.ref.launch != n) then s.finishLaunch l else s

/-! ### Teams -/

/-- Whether an engine command that a team issued has neither completed nor failed (R287). -/
def State.outstanding (s : State) (t : TeamRef) : Bool :=
  s.streams.any (fun q => q.cmds.any (fun c => (c.join.isSome || !q.failed.contains c.seq) && (match c.wave with
    | none => false
    | some w => w.team == t)))

/-- Whether requests that a team's waves sent to other nodes are under way: the launch's completion releases them (R271, R315). -/
def State.teamSends (s : State) (t : TeamRef) : Bool := s.packets.any (fun p => p.stream.cls == .request && p.wave.any (fun r => r.team == t))

/-- Retire a team whose items have all ended, whose commands have completed and whose writes have been performed (R287, R315): its streams leave the core's
queues (R341), and its scratchpad, accumulator allocation, slots and bindings are freed. -/
def State.checkRetire (s : State) (tr : TeamRef) : State :=
  match s.team? tr with
  | none => s
  | some t =>
    let ended := if t.cut then s.waves.all (fun w => w.ref.team != tr) else t.subs.isEmpty
    if !ended || s.outstanding tr || s.teamSends tr then s
    else
      let s1 : State :=
        { s with
          teams := s.teams.filter (fun m => m.ref != tr)
          streams := s.streams.filter (fun q => match q.ref with
            | .team u _ => u != tr
            | .ctx _ _ => true) }
      s1.checkLaunch tr.launch

/-- End a wave all of whose items have ended (R151, R286). -/
def State.endWave (s : State) (r : WaveRef) : State :=
  match s.wave? r with
  | none => s
  | some w =>
    let rest := s.waves.filter (fun v => v.ref != r)
    let s1 : State := { s with waves := giveRows r.team w.part w.rowBudget rest }
    let s2 := s1.modTeam r.team (fun t => { t with ended := t.ended ||| maskOf (fun i => i == r.num) })
    ((s2.testBarriers r.team).checkRound r.team).checkRetire r.team

/-- End a wave if no item of it is live. -/
def State.endIfDone (s : State) (r : WaveRef) : State :=
  match s.wave? r with
  | none => s
  | some w => if w.live == 0 then s.endWave r else s

end Sys2Proof.Machine
end

