-- ==== Sys2Proof/Machine/Control.lean ====
section
/-! DEFINITION. Control flow, illegal words, and the management of spans and registers (R86, R147 to R159, R282 to R284). -/
namespace Sys2Proof.Machine
open Sys2Proof

/-! ### Branches -/

/-- The target of a BX word at a program counter (R65). Below address 0 of the launch's code it wraps modulo 2^32, and the fetch
there traps (log 53, DESIGN CHOICE). -/
def bxTarget (pc : Nat) (word : Word) : Nat := ofInt 32 ((pc : Int) + 4 * toSigned 21 word.low21)

/-- The items for which cond4 holds (R65). -/
def Wave.cond (w : Wave) (c : Nat) : Mask := if 8 ≤ c then ~~~(w.pred c) else w.pred c

/-- Whether the items of a mask stand at one program counter. -/
def Wave.together (w : Wave) (m : Mask) : Bool := (maskLanes m).all (fun l => w.pcOf l == w.lowPc m)

/-- Finish a transfer whose program counters are set: inside a transaction one that separates the wave's items aborts
it with cause DIVERGE (R186). -/
def Env.jumped (e : Env) (w : Wave) (traps : List ItemTrap) : Effect :=
  if w.tx.isSome && traps.isEmpty && !w.together e.w.exec then .done e.s (w.abortTx 7) [] true else .done e.s w traps true

/-- BRA and CALL in a wave (R147). -/
def braWave (link : Bool) (e : Env) : Effect :=
  let pc := e.w.groupPc
  let taken := e.act &&& e.w.cond e.word.fn
  let w1 := (e.w.setPc (e.w.exec &&& ~~~taken) ((pc + 4) % 2 ^ 32)).setPc taken (bxTarget pc e.word)
  let ret : Form := .u (BitVec.ofNat 32 (pc + 4))
  let w2 := if link && taken != 0 then w1.withView (w1.view.modReg 115 (fun r => r.put ret taken w1.live e.ix e.s.time)) else w1
  e.jumped w2 []

/-- The ids of a sub-span for which cond4 holds (R65, R273). -/
def Sub.cond (b : Sub) (c : Nat) : Runs := if 8 ≤ c then b.ids.diff (b.pred c) else b.pred c

/-- BRA and CALL in a span: the sub-span splits into the runs of equal outcome (R282). -/
def braSpan (link : Bool) (e : SpanEnv) : SpanRes :=
  let one (p : Bool × Runs) : Sub :=
    let b := e.sub.part p.2
    if p.1 then
      { b with pc := bxTarget e.sub.pc e.word,
               x := if link then setFile {} b.x 3 { form := .u (BitVec.ofNat 32 (e.sub.pc + 4)) } else b.x }
    else { b with pc := (e.sub.pc + 4) % 2 ^ 32 }
  .ok e.s e.k ((pieces e.sub.ids (e.sub.cond e.word.fn)).map one)

/-- BRA (R147). -/
def execBra (c : BitVec 4) (o : BitVec 21) (s : State) : Host.Outcome State Fault Refusal :=
  settle (issue (braWave false) (braSpan false) none (wordOf (.bra c o)) s)

/-- CALL (R147). -/
def execCall (c : BitVec 4) (o : BitVec 21) (s : State) : Host.Outcome State Fault Refusal :=
  settle (issue (braWave true) (braSpan true) none (wordOf (.call c o)) s)

/-- BRX and RET in a wave (R148). -/
def brxWave (e : Env) : Effect :=
  let a := e.src (wordInfo e.x e.word) .a 1 32
  let bad := (maskLanes e.act).filter (fun l => a.at e.ix l % 4 != 0)
  let go := e.act &&& ~~~(maskOf (fun l => bad.contains l))
  let w1 := e.w.setPc (e.w.exec &&& ~~~e.act) ((e.w.groupPc + insLen e.x) % 2 ^ 32)
  let w2 := { w1 with pcs := lanes.map (fun l => if go.getLsbD l then a.at e.ix l else w1.pcOf l) }
  e.jumped w2 (bad.map (fun l => ⟨l, 2, 8, 0⟩))

/-- BRX and RET in a span: one target for all items (R282). -/
def brxSpan (e : SpanEnv) : SpanRes :=
  let i := wordInfo e.x e.word
  let a := e.src i .a 1 32
  if readsWave i e.x e.word e.t.isSome || !windowOk i e.x e.word e.view || !a.isUni || a.at e.ix 0 % 4 != 0 then .mat
  else .ok e.s e.k [{ e.sub with pc := a.at e.ix 0 }]

/-- BRX (R148). -/
def execBrx (x : Option Ex) (a : R7) (s : State) : Host.Outcome State Fault Refusal :=
  settle (issue brxWave brxSpan x (wordOf (.brx x a)) s)

/-- RET (R148): BRX as a drain point. -/
def execRet (x : Option Ex) (a : R7) (s : State) : Host.Outcome State Fault Refusal :=
  settle (issue brxWave brxSpan x (wordOf (.ret x a)) s)

/-! ### NOP, JOIN, YIELD, TRAP -/

/-- An instruction without effect in a wave. -/
def nopWave (e : Env) : Effect := e.ok e.w

/-- An instruction without effect in a span. -/
def nopSpan (e : SpanEnv) : SpanRes := .ok e.s e.k [e.step e.sub]

/-- NOP (R149). -/
def execNop (x : Option Ex) (s : State) : Host.Outcome State Fault Refusal :=
  settle (issue nopWave nopSpan x (wordOf (.nop x)) s)

/-- JOIN in a wave (R149, R150): a group that a rotation let pass the lowest is held, and the lowest group issues next. -/
def joinWave (e : Env) : Effect :=
  if e.w.lowPc e.w.candidates < e.w.groupPc then .done e.s { e.w with group := none } [] true else e.ok e.w

/-- The join of two register forms (R283): `none` where the result would be M. -/
def joinReg (p q : Reg) : Option Reg := if p.form == q.form then some p else none

/-- The join of two lists of registers. -/
def joinRegs : List Reg → List Reg → Option (List Reg)
  | p :: ps, q :: qs => match joinReg p q, joinRegs ps qs with
    | some r, some rs => some (r :: rs)
    | _, _ => none
  | _, _ => some []

/-- The join of two sub-spans (R283). -/
def joinSubs (b c : Sub) : Option Sub :=
  let ps := (List.range 8).map (fun p => (b.preds.getD p []).union (c.preds.getD p []))
  match joinRegs b.v c.v, joinRegs b.x c.x with
  | some v, some x => if ps.all (fun r => decide (r.length ≤ 4) || r == b.ids.union c.ids) then some ⟨b.ids.union c.ids, b.pc, v, x, ps⟩ else none
  | _, _ => none

/-- The highest id of some runs, plus one. -/
def Runs.high (r : Runs) : Nat := (r.getLastD (0, 0)).2

/-- Whether two sub-spans are adjacent in id: no item of the span lies between them (R283). -/
def adjacent (all : Runs) (b c : Sub) : Bool :=
  let gap (p q : Sub) : Bool := decide (p.ids.high ≤ q.ids.low) && (all.inter [(p.ids.high, q.ids.low)]).isEmpty
  gap b c || gap c b

/-- Merge a sub-span with every sub-span of a list that is adjacent and at its program counter: the merged sub-span and
the others, or `none` where a merge would give M. -/
def mergeInto (all : Runs) (b : Sub) : Nat → List Sub → Option (Sub × List Sub)
  | 0, others => some (b, others)
  | fuel + 1, others =>
    match others.find? (fun c => c.pc == b.pc && adjacent all b c) with
    | none => some (b, others)
    | some c => match joinSubs b c with
      | none => none
      | some m => mergeInto all m fuel (others.filter (fun d => d.ids != c.ids))

/-- JOIN in a span (R283, R284). The sub-span that issues stands at the lowest program counter (R274), so none is held. -/
def joinSpan (e : SpanEnv) : SpanRes :=
  let subs := match e.t with
    | none => e.l.subs
    | some t => t.subs
  let all : Runs := match e.t with
    | none => [(0, e.l.ext.getD 0 1 * e.l.ext.getD 1 1 * e.l.ext.getD 2 1)]
    | some t => teamIds e.l.ext e.l.kernel.shape t.ref.tm
  match mergeInto all e.sub subs.length (subs.filter (fun c => c.ids != e.sub.ids)) with
  | none => .mat
  | some (m, others) => .all e.s (e.step m :: others)

/-- JOIN (R149, R150, R283, R284). -/
def execJoin (x : Option Ex) (s : State) : Host.Outcome State Fault Refusal :=
  settle (issue joinWave joinSpan x (wordOf (.join x)) s)

/-- The other waves of a wave's partition that YIELD may wait for (R152); those that are not ready are dropped as time passes. -/
def State.partners (s : State) (w : Wave) : List WaveRef :=
  ((s.coreWaves w).filter (fun v => v.part == w.part && v.ref != w.ref && v.live != 0 && v.status == .ready)).map (·.ref)

/-- YIELD in a wave (R152): the partition passes the wave over until each other ready wave has issued once. -/
def yieldWave (e : Env) : Effect :=
  let ps := e.s.partners e.w
  e.ok { e.w with yielded := if ps.isEmpty then none else some ps, yieldAt := e.s.time }

/-- YIELD (R152). -/
def execYield (x : Option Ex) (s : State) : Host.Outcome State Fault Refusal :=
  settle (issue yieldWave nopSpan x (wordOf (.yield x)) s)

/-- A trap of every active item with a cause and a code, after which items resume behind the instruction (R329). -/
def codeTrap (cause : Nat) (e : Env) : Effect :=
  .done e.s e.w ((maskLanes e.act).map (fun l => ⟨l, cause, e.word.b7, 0⟩)) false

/-- TRAP (R153): the program trap with a code. -/
def execTrap (x : Option Ex) (i : R7) (s : State) : Host.Outcome State Fault Refusal :=
  settle (issue (codeTrap 0x0F) waveOnly x (wordOf (.trap x i)) s)

/-! ### Illegal words (R83, R86 to R88) -/

/-- Raise a trap of the word itself for the party that issues (R37, R285, R331). -/
def raiseWord (cause detail : Nat) (x : Option Ex) (s : State) : State :=
  match s.cur with
  | .none => s
  | .wave r => match s.wave? r with
    | none => s
    | some w => if s.updating r then s else trapAll s w x cause detail 9 w.exec []
  | .launch n _ => match s.launch? n with
    | none => s
    | some l => s.deal l
  | .team t _ => match s.team? t, s.launch? t.launch with
    | some tm, some l => s.cut l tm
    | _, _ => s

/-- UNASSIGNED_MAJOR (R86, R88): DETAIL 0x01, or 0x04 for major 0x7E. -/
def execUnassignedMajor (w : Word) (s : State) : Host.Outcome State Fault Refusal :=
  settle (raiseWord 1 (if w.maj == 0x7E then 4 else 1) none s)

/-- RESERVED_FN_VALUE (R67, R88): DETAIL 0x02. -/
def execReservedFnValue (x : Option Ex) (_ : Word) (s : State) : Host.Outcome State Fault Refusal :=
  settle (raiseWord 1 2 x s)

/-- The first check of a word that fails, for the party that issues (R87). -/
def State.wordTrap (s : State) (x : Option Ex) (w : Word) : Nat × Nat :=
  match s.cur with
  | .wave r => ((s.wave? r).bind (fun v => waveCheck v x w)).getD ((checkWord x w).getD (2, 4))
  | _ => (checkWord x w).getD (2, 4)

/-- RESERVED_OPERAND_VALUE (R63, R385): the first check of the word that fails. -/
def execReservedOperandValue (x : Option Ex) (w : Word) (s : State) : Host.Outcome State Fault Refusal :=
  let cd := s.wordTrap x w
  settle (raiseWord cd.1 cd.2 x s)

/-- EX_MISUSE (R83, R88): DETAIL 0x03 at the EX. -/
def execExMisuse (_ _ : Word) (s : State) : Host.Outcome State Fault Refusal := settle (raiseWord 1 3 none s)

/-! ### FORM, MATL, UNIF (R154) -/

/-- The tag code of a register field (R19, R154). -/
def View.tagOf (w : View) (c : Nat) : Nat :=
  if isV c || isX c then (w.reg c).form.tag else if 117 ≤ c && c ≤ 121 then 1 else 0

/-- Whether a register field is uniform (R113). -/
def View.isUni (w : View) (c : Nat) : Bool := w.tagOf c == 0

/-- FORM in a wave. -/
def formWave (e : Env) : Effect :=
  let u := e.w.view
  if isK e.word.d7 && !u.isUni e.word.a7 then badValue 2
  else e.ok (e.put (wordInfo e.x e.word) 1 (.uni (u.tagOf e.word.a7)) e.act)

/-- FORM in a span. -/
def formSpan (e : SpanEnv) : SpanRes :=
  let i := wordInfo e.x e.word
  if readsWave i e.x e.word e.t.isSome || !windowOk i e.x e.word e.view || (isK e.word.d7 && !e.view.isUni e.word.a7) then .mat
  else
    let r := e.put 1 (.uni (e.view.tagOf e.word.a7))
    .ok e.s r.1 [e.step r.2]

/-- FORM (R154). -/
def execForm (x : Option Ex) (d a : R7) (s : State) : Host.Outcome State Fault Refusal :=
  settle (issue formWave formSpan x (wordOf (.form x d a)) s)

/-- MATL in a wave: whatever the mask, no lane's value changes. -/
def matlWave (e : Env) : Effect := e.ok (e.w.withView (e.w.view.modReg e.word.a7 (fun r => r.materialise e.ix)))

/-- MATL (R154). -/
def execMatl (x : Option Ex) (a : R7) (s : State) : Host.Outcome State Fault Refusal :=
  settle (issue matlWave waveOnly x (wordOf (.matl x a)) s)

/-- UNIF in a wave. -/
def unifWave (e : Env) : Effect :=
  let i := wordInfo e.x e.word
  let a := e.src i .a 1 32
  if !a.isUni then badValue 8 else e.ok (e.put i 1 (.uni (a.at e.ix 0)) e.act)

/-- UNIF in a span. -/
def unifSpan (e : SpanEnv) : SpanRes :=
  let i := wordInfo e.x e.word
  let a := e.src i .a 1 32
  if readsWave i e.x e.word e.t.isSome || !windowOk i e.x e.word e.view || !a.isUni then .mat
  else
    let r := e.put 1 (.uni (a.at e.ix 0))
    .ok e.s r.1 [e.step r.2]

/-- UNIF (R154). -/
def execUnif (x : Option Ex) (d a : R7) (s : State) : Host.Outcome State Fault Refusal :=
  settle (issue unifWave unifSpan x (wordOf (.unif x d a)) s)

/-! ### WBASE, WQUOTA, IDX (R155 to R159) -/

/-- WBASE in a wave (R155). -/
def wbaseWave (e : Env) : Effect :=
  let i := immOf e.x e.word.b7
  let wb := (8 * i).toNat
  if i < 0 || (wb != 0 && decide (e.w.quota ≤ wb + 87)) then whole 3 4 else e.ok { e.w with wb := wb }

/-- WBASE (R155). -/
def execWbase (x : Option Ex) (i : R7) (s : State) : Host.Outcome State Fault Refusal :=
  settle (issue wbaseWave waveOnly x (wordOf (.wbase x i)) s)

/-- Bytes of a wave's spill area (R22). -/
def spillBytes (quota budget : Nat) : Nat := (quota - budget) * 128

/-- What the core of a wave holds (R277, R278): the waves of its teams, cut or not. -/
def State.useOf (s : State) (w : Wave) : CoreUse :=
  match s.team? w.ref.team with
  | none => CoreUse.empty
  | some t => s.coreUse t.node t.die (t.core.getD 0)

/-- Free register-file rows of a partition of the core of a wave (R278). -/
def State.freeRows (s : State) (w : Wave) (part : Nat) : Nat := 512 - (s.useOf w).rows.getD part 0

/-- Bytes of the L1/stash part of a core of a split (R277). -/
def stashBytes (split : Nat) : Nat := (24 - split) * 65536

/-- The new quota and row budget of giver and target when g registers change hands (R157). -/
def quotaMove (s : State) (w v : Wave) (g : Nat) : (Nat × Nat) × (Nat × Nat) :=
  let b := min w.rowBudget (w.quota - g)
  let gain := if v.part == w.part then w.rowBudget - b else min g (s.freeRows w v.part) / 8 * 8
  ((w.quota - g, b), (v.quota + g, min (v.rowBudget + gain) (v.quota + g)))

/-- The first check of R156 that fails, for a giver, a target and a count. -/
def quotaCheck (s : State) (w : Wave) (t : Team) (target : Option Wave) (g : Nat) : Option Nat :=
  match target with
  | none => some 1
  | some v =>
    if v.ref == w.ref || v.live == 0 then some 1
    else if w.quota < g + 8 || w.quota < g + w.wb + 88 then some 2
    else if 256 < v.quota + g then some 3
    else if (w.v.drop (w.quota - g)).any (fun r => 2 ≤ r.form.tag) then some 4
    else
      let m := quotaMove s w v g
      let total := (s.useOf w).spill - (spillBytes w.quota w.rowBudget + spillBytes v.quota v.rowBudget) +
        (spillBytes m.1.1 m.1.2 + spillBytes m.2.1 m.2.2)
      let split := ((s.core? t.node t.die (t.core.getD 0)).map (·.split)).getD 0
      if stashBytes split < total then some 5 else none

/-- WQUOTA in a wave (R156, R157). -/
def wquotaWave (e : Env) : Effect :=
  let i := wordInfo e.x e.word
  let a := e.src i .a 1 32
  let b := e.src i .b 1 32
  if !a.isUni then badValue 2
  else if !b.isUni then badValue 3
  else
    let g := b.at e.ix 0
    if g % 8 != 0 || g == 0 || 248 < g then badValue 8
    else
      let target := e.s.wave? ⟨e.w.ref.team, a.at e.ix 0⟩
      match quotaCheck e.s e.w e.t target g, target with
      | some d, _ => whole 0x0C d
      | none, none => whole 0x0C 1
      | none, some v =>
        let m := quotaMove e.s e.w v g
        let v' := { v with quota := m.2.1, rowBudget := m.2.2, v := v.v ++ List.replicate g {} }
        .done (e.s.setWave v') { e.w with quota := m.1.1, rowBudget := m.1.2, v := e.w.v.take m.1.1 } [] false

/-- WQUOTA (R156, R157). -/
def execWquota (x : Option Ex) (a b : R7) (s : State) : Host.Outcome State Fault Refusal :=
  settle (issue wquotaWave waveOnly x (wordOf (.wquota x a b)) s)

/-- The coordinate of a flattened index along an axis (R159). -/
def idxCoord (ext : List Nat) (axis i : Nat) : Nat :=
  let ea := max 1 (ext.getD 0 1)
  let eb := max 1 (ext.getD 1 1)
  match axis with
  | 0 => i % ea
  | 1 => i / ea % eb
  | _ => i / (ea * eb)

/-- IDX in a wave (R159). -/
def idxWave (e : Env) : Effect :=
  let i := wordInfo e.x e.word
  let a := e.src i .a 2 64
  e.ok (e.put i 1 (outOf .none 32 [a] (fun v => idxCoord e.l.ext e.word.b7 (arg v 0) % 2 ^ 32) e.act e.ix) e.act)

/-- IDX (R159). -/
def execIdx (x : Option Ex) (d a i : R7) (s : State) : Host.Outcome State Fault Refusal :=
  settle (issue idxWave waveOnly x (wordOf (.idx x d a i)) s)

end Sys2Proof.Machine
end

