-- ==== Sys2Proof/Machine/LoadStore.lean ====
section
/-! DEFINITION. Loads, stores, the uniform load, prefetch, accumulator accesses and stash windows (R160 to R174). -/
namespace Sys2Proof.Machine
open Sys2Proof

/-- Bytes of an access type (R162). -/
def tyBytes (ty : Nat) : Nat := tyWidth ty / 8

/-- A loaded value as a register value (R109, R162). -/
def loadVal (ty n : Nat) : Nat := if (fmtOfTy ty).isSome then n else regOfInt ty (intVal ty n)

/-- The form of loaded values (R162). -/
def loadOut (ty : Nat) (vs : List Nat) : Out :=
  match ty with
  | 6 => .narrow false 0 vs
  | 4 => .narrow true 0 vs
  | 7 => .narrow true 0 vs
  | 11 => .narrow true 0 vs
  | 12 => .narrow true 0 vs
  | _ => .per vs

/-- The effective address of an item (R161): 64 bits for global memory, 32 otherwise. -/
def effAddr (sp : Space) (a off : Nat) : Nat := ofInt (if sp == .global then 64 else 32) ((a : Int) + toSigned 32 off)

/-- What the items of a memory instruction have done so far. -/
structure Acc where
  s : State
  w : Wave
  vals : List (Nat × Nat) := []
  traps : List ItemTrap := []
  poison : Mask := 0
  world : Mask := 0
  waits : Nat := 0
  abort : Option Nat := none

/-- The lane's bit. -/
def laneBit (l : Nat) : Mask := maskOf (fun j => j == l)

/-- A trap of a lane. -/
def Acc.trap (c : Acc) (i : LxIn) (l cause detail addr : Nat) : Acc :=
  { c with traps := c.traps ++ [⟨l, cause, detail, addr⟩], s := c.s.worldTrapNotice i.t c.w i.l cause detail }

/-- A value for a lane with its marks. -/
def Acc.val (c : Acc) (l v : Nat) (poison world : Bool) : Acc :=
  { c with vals := c.vals ++ [(l, v)], poison := if poison then c.poison ||| laneBit l else c.poison,
           world := if world then c.world ||| laneBit l else c.world }

/-- The lines of an access join the sets of an open transaction (R185). -/
def Acc.lines (c : Acc) (ls : List Loc) (write : Bool) : Acc :=
  match c.s.txLines c.w write (linesAt ls) with
  | .error e => { c with abort := some e }
  | .ok (s, w) => { c with s := s, w := w }

/-- Read bytes for a lane. -/
def Acc.load (c : Acc) (ty l : Nat) (ls : List Loc) : Acc :=
  let c1 := { c with s := c.s.guardLocs ls }.lines ls false
  if c1.abort.isSome then c1
  else c1.val l (loadVal ty (ofBytes (c1.s.waveRead c1.w ls))) (c1.s.wavePoisoned c1.w ls) false

/-- A load of one item (R163, R166). A remote load travels as a packet (R358); inside a transaction, and of
LDU to a uniform register, it is made at once (log 14); a refused one is poisoned, or marked by the world check (R362, R373). `tag` is the lane that the answer fills, 32
for every lane. -/
def loadItem (i : LxIn) (sp : Space) (ty : Nat) (c : Acc) (l tag addr : Nat) : Acc :=
  if c.abort.isSome then c
  else if sp == .acm && ty / 2 == 1 && addr % 2 == 1 then c.trap i l 2 8 addr
  else
    match c.s.land i.l i.t sp addr (tyBytes ty) .read false with
    | .trap 0 _ => c.val l 0 true false
    | .trap cs d => c.trap i l cs d addr
    | .acm word => c.val l (loadVal ty (c.s.acmRead i.t.ref word (tyBytes ty))) false false
    | .at_ ls => c.load ty l ls
    | .remote node a =>
      if c.w.tx.isSome || isK i.word.d7 then
        match c.s.reachKey i.t.node i.t.die i.l.ccn i.t.world node a (tyBytes ty) .read with
        | .ok k => c.load ty l (globLocs k (tyBytes ty))
        | .error (cs, d) => { c with s := c.s.awayNotice i.t c.w i.l node cs d }.val l 0 (cs != 7) (cs == 7)
      else
        let p := requestPacket i.t i.l i.w.ref i.key node a (.load tag i.word.d7 (tyBytes ty) ty)
        { c with s := c.s.send p, waits := c.waits + 1 }

/-- The address sources of a memory instruction are uniform (R113, R162). -/
def LxIn.uniAddr (i : LxIn) : Bool := i.a.isUni && i.b.isUni

/-- The effective address of a lane. -/
def LxIn.addr (i : LxIn) (sp : Space) (l : Nat) : Nat := effAddr sp (i.a.at i.ix l) (i.b.at i.ix l)

/-- Per-lane values as a list of 32. -/
def valList (vs : List (Nat × Nat)) : List Nat := lanes.map (fun l => ((vs.find? (fun p => p.1 == l)).map Prod.snd).getD 0)

/-- The outcome of a memory instruction's items. -/
def Acc.out (c : Acc) (i : LxIn) (writes : List (Nat × Reg)) (performed : Bool) (traps : List ItemTrap) : LxOut :=
  match c.abort with
  | some e => .abort i.s i.w e
  | none => .done c.s c.w writes performed c.waits traps

/-- The traps of a single access, raised for every acting item. -/
def spreadTraps (ts : List ItemTrap) (act : Mask) : List ItemTrap :=
  match ts with
  | [] => []
  | t :: _ => (maskLanes act).map (fun l => ⟨l, t.cause, t.detail, t.addr⟩)

/-- A mark of a single access, carried by every acting item. -/
def spreadMark (m act : Mask) : Mask := if m == 0 then 0 else act

/-- A load of one access for the wave (R162, R168). -/
def loadOnce (i : LxIn) (sp : Space) : Acc := loadItem i sp (exTy i.x) { s := i.s, w := i.w } 0 32 (i.addr sp 0)

/-- A load on captured operands (R162, R166): one access for the wave when its address is uniform, else one per item. -/
def loadLx (sp : Space) (i : LxIn) : LxOut :=
  let ty := exTy i.x
  let n := tyRegs ty
  if i.uniAddr then
    let c := loadOnce i sp
    c.out i (if c.traps.isEmpty then
        lxWrites i.word.d7 n (.uni ((c.vals.headD (0, 0)).2)) (spreadMark c.poison i.act) (spreadMark c.world i.act) else [])
      false (spreadTraps c.traps i.act)
  else
    let c := (maskLanes i.act).foldl (fun c l => loadItem i sp ty c l l (i.addr sp l)) { s := i.s, w := i.w }
    c.out i (lxWrites i.word.d7 n (loadOut ty (valList c.vals)) c.poison c.world) false c.traps

/-- LDU on captured operands (R168): a uniform address, one access, U; poison that a uniform register would receive is
consumed at once. -/
def lduLx (i : LxIn) : LxOut :=
  if !i.uniAddr then .check 2 []
  else if !isK i.word.d7 then loadLx .global i
  else
    let c := loadOnce i .global
    if c.world != 0 then .trap 7 1 []
    else if c.poison != 0 then .trap 0x0B 0 []
    else loadLx .global i

/-! ### Loads and stores in spans (R272) -/

/-- The world that a span acts in: its team's, or that of the launch that the sequencer runs (R371). -/
def SpanEnv.world (e : SpanEnv) : Bool := (e.t.map (·.world)).getD e.l.region.world

/-- Whether an access of a span has to wait for its die's requests under way (R357; log 14). -/
def SpanEnv.behind (e : SpanEnv) : Bool := e.s.dieSends e.l.node ((e.t.map (·.die)).getD e.l.die)

/-- The landing of a span's access at a uniform address. -/
def SpanEnv.land (e : SpanEnv) (sp : Space) (addr n : Nat) (a : Access) (store : Bool) : Landing :=
  match e.t, sp with
  | some t, sp => e.s.land e.l t sp addr n a store
  | none, .global => match e.s.resolve e.l.node e.l.segs e.l.region.world addr n a with
    | .ok key => .at_ (globLocs key n)
    | .trap c d => .trap c d
    | .remote m => .remote m addr
  | none, _ => .trap 0 0

/-- A load in a span: one access for the sub-span, at a uniform address, in a launch span of global memory only; a trap, a
refusal or poison cuts the span. A load of another node is made at once, behind its die's requests under way (log 14): until those have
been performed the sub-span stays at it. -/
def loadSpan (sp : Space) (e : SpanEnv) : SpanRes :=
  let i := wordInfo e.x e.word
  let a := e.src i .a (if sp == .global then 2 else 1) 64
  let b := e.src i .b 1 32
  let ty := exTy e.x
  if readsWave i e.x e.word e.t.isSome || !windowOk i e.x e.word e.view || !a.isUni || !b.isUni ||
      (sp != .global && e.t.isNone) then .mat
  else if e.behind && awayFrom e.l.node (effAddr sp (a.at e.ix 0) (b.at e.ix 0)) && sp == .global then .ok e.s e.k [e.sub]
  else
    let addr := effAddr sp (a.at e.ix 0) (b.at e.ix 0)
    let fin (s : State) (n : Nat) : SpanRes :=
      let r := { e with s := s }.put (tyRegs ty) (.uni (loadVal ty n))
      .ok s r.1 [e.step r.2]
    match e.land sp addr (tyBytes ty) .read false with
    | .trap _ _ => .mat
    | .acm word =>
      if ty / 2 == 1 && addr % 2 == 1 then .mat
      else fin e.s (e.s.acmRead ((e.t.map (·.ref)).getD ⟨0, 0⟩) word (tyBytes ty))
    | .at_ ls => if e.s.poisonedAt ls then .mat else fin (e.s.guardLocs ls) (e.s.numAt ls)
    | .remote node ad => match e.s.reachKey e.l.node ((e.t.map (·.die)).getD e.l.die) e.l.ccn e.world node ad (tyBytes ty) .read with
      | .error _ => .mat
      | .ok k => if e.s.poisonedAt (globLocs k (tyBytes ty)) then .mat else fin (e.s.guardPhys k (tyBytes ty)) (e.s.numAt (globLocs k (tyBytes ty)))

/-- A store in a team span: a uniform address and U data (R272). -/
def storeSpan (sp : Space) (e : SpanEnv) : SpanRes :=
  let i := wordInfo e.x e.word
  let a := e.src i .a 1 64
  let b := e.src i .b 1 32
  let ty := exTy e.x
  let d := e.src i .d (tyRegs ty) 64
  if e.t.isNone || readsWave i e.x e.word true || !windowOk i e.x e.word e.view || !a.isUni || !b.isUni || !d.isUni then .mat
  else
    let addr := effAddr sp (a.at e.ix 0) (b.at e.ix 0)
    let v := d.at e.ix 0
    match e.land sp addr (tyBytes ty) .write true with
    | .at_ ls => .ok (e.s.writeAt ls (toBytes (tyBytes ty) v) none) e.k [e.step e.sub]
    | .acm word =>
      if ty / 2 == 1 && addr % 2 == 1 then .mat
      else .ok (e.s.acmWrite ((e.t.map (·.ref)).getD ⟨0, 0⟩) word (tyBytes ty) v) e.k [e.step e.sub]
    | _ => .mat

/-! ### Stores in waves -/

/-- A refused remote store: a KIND 1 record at the initiator, with the lane and the store's program counter (R362, R373). -/
def State.refusedStore (s : State) (node die : Nat) (rcb fdom : Nat) (code lane pc : Nat) : State :=
  s.publish node fdom ⟨1, code, rcb, 0, whereWord node die 0 0 0 0, 2 ^ lane, 0, pc, 0, s.time⟩

/-- A store of one item (R163, R166, R186). -/
def storeItem (i : LxIn) (sp : Space) (ty : Nat) (c : Acc) (l addr v : Nat) : Acc :=
  let bs := toBytes (tyBytes ty) v
  if c.abort.isSome then c
  else if sp == .acm && ty / 2 == 1 && addr % 2 == 1 then c.trap i l 2 8 addr
  else
    match c.s.land i.l i.t sp addr (tyBytes ty) .write true with
    | .trap 0 _ => c
    | .trap cs d => c.trap i l cs d addr
    | .acm word => { c with s := c.s.acmWrite i.t.ref word (tyBytes ty) v }
    | .at_ ls =>
      let c1 := { c with s := c.s.guardLocs ls }.lines ls true
      if c1.abort.isSome then c1
      else
        let r := c1.s.waveWrite c1.w ls bs
        { c1 with s := r.1, w := r.2 }
    | .remote node a =>
      if c.w.tx.isSome then
        match c.s.reachKey i.t.node i.t.die i.l.ccn i.t.world node a (tyBytes ty) .write with
        | .error (0, _) => c
        | .error (cs, d) => { c with s := (c.s.awayNotice i.t c.w i.l node cs d).refusedStore i.t.node i.t.die i.l.region.rcb i.l.region.fdom (cs + 256 * d) l i.pc }
        | .ok k =>
          let ls := globLocs k (tyBytes ty)
          let c1 := c.lines ls true
          if c1.abort.isSome then c1
          else
            let r := c1.s.waveWrite c1.w ls bs
            { c1 with s := r.1, w := r.2 }
      else { c with s := c.s.send (requestPacket i.t i.l i.w.ref l node a (.store bs i.pc)) }

/-- A store on captured operands (R166): items in ascending lane order. -/
def storeLx (sp : Space) (i : LxIn) : LxOut :=
  let c := (maskLanes i.act).foldl (fun c l => storeItem i sp (exTy i.x) c l (i.addr sp l) (i.d.at i.ix l)) { s := i.s, w := i.w }
  c.out i [] false c.traps

/-- LDG (R166). -/
def execLdg (x : Option Ex) (l : BitVec 4) (d a b : R7) (s : State) : Host.Outcome State Fault Refusal :=
  settle (issue (lxWave noRank (loadLx .global)) (loadSpan .global) x (wordOf (.ldg x l d a b)) s)

/-- STG (R166). -/
def execStg (x : Option Ex) (l : BitVec 4) (d a b : R7) (s : State) : Host.Outcome State Fault Refusal :=
  settle (runLx (storeLx .global) x (wordOf (.stg x l d a b)) s)

/-- LDS (R166). -/
def execLds (x : Option Ex) (l : BitVec 4) (d a b : R7) (s : State) : Host.Outcome State Fault Refusal :=
  settle (issue (lxWave noRank (loadLx .scratch)) (loadSpan .scratch) x (wordOf (.lds x l d a b)) s)

/-- STS (R166). -/
def execSts (x : Option Ex) (l : BitVec 4) (d a b : R7) (s : State) : Host.Outcome State Fault Refusal :=
  settle (issue (lxWave noRank (storeLx .scratch)) (storeSpan .scratch) x (wordOf (.sts x l d a b)) s)

/-- LDC (R166). -/
def execLdc (x : Option Ex) (l : BitVec 4) (d a b : R7) (s : State) : Host.Outcome State Fault Refusal :=
  settle (runLx (loadLx .cluster) x (wordOf (.ldc x l d a b)) s)

/-- STC (R166). -/
def execStc (x : Option Ex) (l : BitVec 4) (d a b : R7) (s : State) : Host.Outcome State Fault Refusal :=
  settle (runLx (storeLx .cluster) x (wordOf (.stc x l d a b)) s)

/-- LDU (R168). -/
def execLdu (x : Option Ex) (l : BitVec 4) (d a b : R7) (s : State) : Host.Outcome State Fault Refusal :=
  settle (issue (lxWave noRank lduLx) (loadSpan .global) x (wordOf (.ldu x l d a b)) s)

/-- LDA (R169). -/
def execLda (x : Option Ex) (l : BitVec 4) (d a b : R7) (s : State) : Host.Outcome State Fault Refusal :=
  settle (issue (lxWave noRank (loadLx .acm)) (loadSpan .acm) x (wordOf (.lda x l d a b)) s)

/-- STA (R169). -/
def execSta (x : Option Ex) (l : BitVec 4) (d a b : R7) (s : State) : Host.Outcome State Fault Refusal :=
  settle (issue (lxWave noRank (storeLx .acm)) (storeSpan .acm) x (wordOf (.sta x l d a b)) s)

/-- PREF on captured operands (R170): no program-visible effect. -/
def prefLx (i : LxIn) : LxOut := .done i.s i.w [] false 0 []

/-- PREF (R170). -/
def execPref (x : Option Ex) (l : BitVec 4) (a b : R7) (s : State) : Host.Outcome State Fault Refusal :=
  settle (runLx prefLx x (wordOf (.pref x l a b)) s)

/-! ### Stash windows (R171 to R174) -/

/-- Whether two ranges overlap. -/
def overlaps (a n b m : Nat) : Bool := decide (a < b + m) && decide (b < a + n)

/-- A global address with NODE 255 read as its node's own number (R32). -/
def homeAddr (node a : Nat) : Nat := if gNode a == 255 then a % 2 ^ 56 + node * 2 ^ 56 else a

/-- STW on captured operands (R171). -/
def stwLx (i : LxIn) : LxOut :=
  let base := i.a.at i.ix 0
  let off := i.b.at i.ix 0 % 2 ^ 32
  let len := i.b.at i.ix 0 / 2 ^ 32
  let t := (i.s.team? i.t.ref).getD i.t
  let live := t.windows.filterMap id
  if (t.windows.getD i.word.d7 none).isSome then .check 1 []
  else if base % 128 != 0 || off % 128 != 0 || len % 128 != 0 || len == 0 || i.l.kernel.scr < off + len ||
      live.any (fun w => overlaps off len w.off w.len ||
        overlaps (homeAddr i.t.node base) len (homeAddr i.t.node w.base.toNat) w.len) then .check 8 []
  else match i.s.globalKey i.t.node i.t.die i.l.ccn i.t.segs true base len .rmw with
    | .error (c, d, _) => .trap c d ((maskLanes i.act).map (fun l => (l, base)))
    | .ok _ =>
      .done (i.s.modTeam i.t.ref (fun m => { m with windows := setAt m.windows i.word.d7 (some ⟨BitVec.ofNat 64 base, off, len⟩) }))
        i.w [] false 0 []

/-- STW (R171). -/
def execStw (x : Option Ex) (l : BitVec 4) (d a b : R7) (s : State) : Host.Outcome State Fault Refusal :=
  settle (runLx stwLx x (wordOf (.stw x l d a b)) s)

/-- Release a live window: the range becomes ordinary scratchpad with the window's last values (R173). -/
def State.releaseWindow (s : State) (t : Team) (slot : Nat) (w : Window) : State :=
  let bytes := s.readAt (s.scrLocs t w.off w.len)
  s.modTeam t.ref (fun m => { m with windows := setAt m.windows slot none, scratch := m.scratch.writeN w.off bytes })

/-- STWB on captured operands (R173): it reads the window's bytes, whose checks may fail (R172, R373). -/
def stwbLx (i : LxIn) : LxOut :=
  let t := (i.s.team? i.t.ref).getD i.t
  match t.windows.getD i.word.d7 none with
  | none => .check 1 []
  | some w => match i.s.windowFault t w.off w.len with
    | some (c, d, _) => .trap c d ((maskLanes i.act).map (fun l => (l, w.base.toNat)))
    | none => .done (i.s.releaseWindow t i.word.d7 w) i.w [] false 0 []

/-- STWB (R173). -/
def execStwb (x : Option Ex) (l : BitVec 4) (d : R7) (s : State) : Host.Outcome State Fault Refusal :=
  settle (runLx stwbLx x (wordOf (.stwb x l d)) s)

end Sys2Proof.Machine
end

