-- ==== Sys2Proof/Machine/Axis.lean ====
section
/-! DEFINITION. Tensor objects and per-axis translation: objects, tables, caches, walks, and LDT and STT (R167, R295 to
R303, R309). -/
namespace Sys2Proof.Machine
open Sys2Proof

/-- An axis of a tensor object (R295). -/
structure Axis where
  table : Nat
  extent : Nat
  stride : Int
  count : Nat
  gen : Nat
  flg : Nat
  deriving DecidableEq, Repr

/-- A tensor object (R295). -/
structure Tensor where
  basew : Nat
  axes : List Axis
  deriving DecidableEq, Repr

/-- Axis `j` of the 128 bytes of an object. -/
def axisOf (n j : Nat) : Axis :=
  let f (off size : Nat) : Nat := n / 2 ^ (8 * (off + 20 * j)) % 2 ^ (8 * size)
  ⟨f 8 8, f 0x10 4, toSigned 32 (f 0x14 4), f 0x18 2, f 0x1A 1, f 0x1B 1⟩

/-- The tensor object of 128 bytes (R295). -/
def tensorOf (bytes : List Byte) : Tensor :=
  let n := ofBytes bytes
  ⟨n % 2 ^ 64, [0, 1, 2, 3, 4, 5].map (axisOf n)⟩

/-- USED (R295). -/
def Axis.used (a : Axis) : Bool := bitAt a.flg 0
/-- PG (R295). -/
def Axis.paged (a : Axis) : Bool := bitAt a.flg 1
/-- MOD (R295). -/
def Axis.modulo (a : Axis) : Bool := bitAt a.flg 2
/-- The rank (R296). -/
def Tensor.rank (t : Tensor) : Nat := (t.axes.filter Axis.used).length
/-- ETYPE (R295). -/
def Tensor.etype (t : Tensor) : Nat := t.basew % 16
/-- An axis of a tensor object. -/
def Tensor.axis (t : Tensor) (j : Nat) : Axis := t.axes.getD j ⟨0, 0, 0, 0, 0, 0⟩

/-- Validity (R296). -/
def Tensor.valid (t : Tensor) : Bool :=
  let r := t.rank
  decide (1 ≤ r) && (List.range 6).all (fun j => (t.axis j).used == decide (j < r)) &&
    decide ((t.axes.filter (fun a => a.used && a.paged)).length ≤ 1) &&
    t.axes.all (fun a => !a.used || !(a.modulo && a.extent == 0)) &&
    !(decide (11 ≤ t.etype) && decide (t.etype < 15)) && t.basew / 16 % 8 == 0 && t.axes.all (fun a => !a.used || decide (a.flg < 8))

/-- An axis entry (R297). -/
structure Entry where
  lo : Nat
  len : Nat
  target : Nat
  abs : Bool
  ro : Bool
  rep : Bool
  deriving DecidableEq, Repr

/-- The entry of 128 bits (R297). -/
def entryOf (n : Nat) : Entry := ⟨n % 2 ^ 32, n / 2 ^ 32 % 2 ^ 32, n / 2 ^ 64 % 2 ^ 48, bitAt n 112, bitAt n 113, bitAt n 114⟩

/-- The 128 bits of an entry (R297). -/
def Entry.bits (e : Entry) : Nat :=
  e.lo + e.len * 2 ^ 32 + e.target * 2 ^ 64 + b2n e.abs * 2 ^ 112 + b2n e.ro * 2 ^ 113 + b2n e.rep * 2 ^ 114

/-- Whether an entry holds an index. -/
def Entry.holds (e : Entry) (i : Nat) : Bool := decide (e.lo ≤ i) && decide (i < e.lo + e.len)

/-- The party that translates: its core, its context with its segments, and its world. -/
structure Xlat where
  node : Nat
  die : Nat
  core : Nat
  ccn : Nat
  segs : SegTable
  world : Bool

/-- The translating party of a team. -/
def xlatOf (t : Team) (l : Launch) : Xlat := ⟨t.node, t.die, t.core.getD 0, l.ccn, t.segs, t.world⟩

/-- Why a translation fails before it maps: cause and DETAIL, the address of a walker read that failed (0 for none), and whether it
failed at another node (R303, R335, R373). -/
structure WalkErr where
  cause : Nat
  detail : Nat
  addr : Nat
  away : Bool
  deriving DecidableEq, Repr

/-- A walker read of `n` bytes at a global address (R303, R373). -/
def Xlat.read (c : Xlat) (s : State) (addr n : Nat) : Except WalkErr Nat :=
  match s.globalKey c.node c.die c.ccn c.segs c.world addr n .read with
  | .ok k => .ok (s.mem.word k n)
  | .error (cs, d, r) => .error ⟨cs, d, addr, r⟩

/-- Keep the newest `n` of a cache (R302). -/
def cachePut {α : Type} (n : Nat) (x : α) (l : List α) : List α := (x :: l).take n

/-- The tensor object of a handle: from the core's cache, or read by a walk, which joins the user set (R295, R302, R303,
R307). -/
def Xlat.object (c : Xlat) (s : State) (h : Nat) : State × Except WalkErr Tensor :=
  if c.segs.ttcount ≤ h then (s, .error ⟨2, 8, 0, false⟩)
  else match ((s.core? c.node c.die c.core).map (·.objs)).bind (·.find? (fun o => o.1 == c.ccn && o.2.1 == h)) with
  | some o => (s, .ok (tensorOf o.2.2))
  | none =>
    let addr := (c.segs.ttbase + 128 * h) % 2 ^ 64
    match s.globalKey c.node c.die c.ccn c.segs c.world addr 128 .read with
    | .error (cs, d, r) => (s, .error ⟨cs, d, addr, r⟩)
    | .ok k =>
      let bytes := s.mem.readN k 128
      let s1 := s.modCore c.node c.die c.core (fun q => { q with objs := cachePut 64 (c.ccn, h, bytes) q.objs })
      let join (us : List (Nat × List Nat)) : List (Nat × List Nat) :=
        match us.find? (fun u => u.1 == k) with
        | none => (k, [c.node]) :: us
        | some u => if u.2.contains c.node then us else us.map (fun v => if v.1 == k then (v.1, c.node :: v.2) else v)
      (s1.modNode (k / 2 ^ 52) (fun d => { d with users := join d.users }), .ok (tensorOf bytes))

/-- The walk of a table (R303): the entry that holds an index, or none. -/
def Xlat.walk (c : Xlat) (s : State) (table count i : Nat) : Nat → Nat → Nat → Except WalkErr (Option Entry)
  | 0, _, _ => .ok none
  | fuel + 1, lo, hi =>
    let mid := (lo + hi + 1) / 2
    let n := min 8 (count - 8 * mid)
    match c.read s ((table + 128 * mid) % 2 ^ 64) (16 * n) with
    | .error e => .error e
    | .ok line =>
      let es := (List.range n).map (fun j => entryOf (line / 2 ^ (128 * j) % 2 ^ 128))
      let found := es.find? (fun e => e.holds i)
      let first := (es.headD ⟨0, 0, 0, false, false, false⟩).lo
      if i < first then (if mid ≤ lo then .ok found else c.walk s table count i fuel lo (mid - 1))
      else if mid == hi || es.any (fun e => decide (i < e.lo + e.len) || decide (i < e.lo)) then .ok found
      else if hi < mid + 1 then .ok found
      else c.walk s table count i fuel (mid + 1) hi

/-- How an axis maps an index (R299): mapped to an index or, on the paged axis, a contribution to the address; or the kind
of fault of R301 (0 no entry, 1 absent entry, 2 beyond extent). -/
inductive AxisMap
  | to (v : Int) (entry : Option Entry)
  | fault (kind : Nat)
  deriving DecidableEq, Repr

/-- The global address of a TARGET (R299). -/
def targetAddr (t : Nat) : Nat := t / 2 ^ 40 % 256 * 2 ^ 56 + t / 2 ^ 36 % 16 * 2 ^ 52 + t % 2 ^ 36

/-- What an entry maps an index to (R299). -/
def Entry.map (e : Entry) (a : Axis) (i : Nat) : Int :=
  let d : Int := if e.rep then 0 else (i : Int) - e.lo
  if a.paged then (targetAddr e.target : Int) + d * a.stride else (e.target : Int) + d

/-- The entry of an axis that holds an index: from the ATC, or by a walk that fills it (R302, R303). -/
def Xlat.entry (c : Xlat) (s : State) (h j : Nat) (a : Axis) (i : Nat) : State × Except WalkErr (Option Entry) :=
  let cached := ((s.core? c.node c.die c.core).map (·.atc)).getD []
  let hit := cached.find? (fun p => p.1 == c.ccn && p.2.1 == h && p.2.2.1 == j && p.2.2.2.1 == a.gen && (entryOf p.2.2.2.2).holds i)
  match hit with
  | some p => (s, .ok (some (entryOf p.2.2.2.2)))
  | none =>
    if a.count == 0 then (s, .ok none)
    else match c.walk s a.table a.count i 20 0 (ceilDiv a.count 8 - 1) with
      | .error e => (s, .error e)
      | .ok none => (s, .ok none)
      | .ok (some e) =>
        (s.modCore c.node c.die c.core (fun q => { q with atc := cachePut 512 (c.ccn, h, j, a.gen, e.bits) q.atc }), .ok (some e))

/-- Map an index along an axis (R299). -/
def Xlat.axis (c : Xlat) (s : State) (h j : Nat) (a : Axis) (i0 : Nat) : State × Except WalkErr AxisMap :=
  let i := if a.modulo then i0 % max 1 a.extent else i0
  if a.extent ≤ i then (s, .ok (.fault 2))
  else if a.count == 0 && !a.paged then (s, .ok (.to i none))
  else
    let r := c.entry s h j a i
    match r.2 with
    | .error e => (r.1, .error e)
    | .ok none => (r.1, .ok (.fault 0))
    | .ok (some e) => if e.abs then (r.1, .ok (.fault 1)) else (r.1, .ok (.to (e.map a i) (some e)))

/-- The mapping of every used axis, in axis order, or the first failed walker read. -/
def Xlat.axes (c : Xlat) (s : State) (h : Nat) (t : Tensor) (idx : Nat → Nat) : List Nat → State × Except WalkErr (List (Nat × AxisMap))
  | [] => (s, .ok [])
  | j :: js =>
    let r := c.axis s h j (t.axis j) (idx j)
    match r.2 with
    | .error e => (r.1, .error e)
    | .ok m =>
      let q := c.axes r.1 h t idx js
      match q.2 with
      | .error e => (q.1, .error e)
      | .ok ms => (q.1, .ok ((j, m) :: ms))

/-- The element address of the mapped axes (R300). -/
def elementAddr (t : Tensor) (ms : List (Nat × AxisMap)) : Nat :=
  let paged := (List.range t.rank).any (fun j => (t.axis j).paged)
  let base : Int := if paged then 0 else ((t.basew / 128 * 128 : Nat) : Int)
  ofInt 64 (ms.foldl (fun (ea : Int) p => match p.2 with
    | .to v _ => if (t.axis p.1).paged then ea + v else ea + v * (t.axis p.1).stride
    | .fault _ => ea) base)

/-- The axis fault to report for mapped axes (R301): cause, DETAIL and the logical index. -/
def axisFault (idx : Nat → Nat) (write : Bool) (ms : List (Nat × AxisMap)) : Option (Nat × Nat × Nat) :=
  match ms.find? (fun p => match p.2 with
      | .fault _ => true
      | .to _ _ => false) with
  | some (j, .fault k) => some (8, 8 * k + j, idx j)
  | _ =>
    if !write then none
    else (ms.find? (fun p => match p.2 with
      | .to _ (some e) => e.ro
      | _ => false)).map (fun p => (9, p.1, idx p.1))

/-- The address of an element, or the trap of its item: cause, DETAIL and faulting index (R167, R295, R296, R301). -/
def Xlat.element (c : Xlat) (s : State) (h : Nat) (idx : Nat → Nat) (write : Bool) : State × Except (Nat × Nat × Nat) Nat :=
  let o := c.object s h
  match o.2 with
  | .error e => (o.1, .error (e.cause, e.detail, e.addr))
  | .ok t =>
    if !t.valid then (o.1, .error (2, 8, 0))
    else
      let r := c.axes o.1 h t idx (List.range t.rank)
      match r.2 with
      | .error e => (r.1, .error (e.cause, e.detail, e.addr))
      | .ok ms => match axisFault idx write ms with
        | some f => (r.1, .error f)
        | none => (r.1, .ok (elementAddr t ms))

/-! ### LDT and STT (R167) -/

/-- The rank of the object that a handle names, as many index registers as LDT and STT read; 0 where there is none. -/
def State.handleRank (s : State) (t : Team) (l : Launch) (h : Nat) : Nat :=
  if 65536 ≤ h then 0
  else match ((xlatOf t l).object s h).2 with
    | .ok t => if t.valid then t.rank else 0
    | .error _ => 0

/-- The index registers that a LDT or STT reads. -/
def tensorRank (e : Env) : Nat := e.s.handleRank e.t e.l ((e.w.view.src e.ix 1 e.word.a7).at e.ix 0)

/-- The checks of LDT and STT that hold for the whole wave: the handle, the index registers and the window (R167, R13). -/
def tensorTrap (i : LxIn) : Option (Nat × Nat) :=
  let h := i.a.at i.ix 0
  let r := i.idx.length
  if 65536 ≤ h then some (2, 8)
  else if 88 < i.word.b7 + r then some (2, 3)
  else if i.w.quota < i.w.wb + i.word.b7 + r then some (3, 1)
  else none

/-- One item of LDT or STT: its address, then the access, or its trap (R167, R301). -/
def tensorItem (i : LxIn) (write : Bool) (access : Acc → Nat → Nat → Acc) (c : Acc) (l : Nat) : Acc :=
  match markTrap i.marks l l with
  | some t => c.trap i l t.cause t.detail 0
  | none =>
    let r := (xlatOf i.t i.l).element c.s (i.a.at i.ix 0) (fun j => (i.idx.getD j (.uni 0)).at i.ix l) write
    let c1 := { c with s := r.1 }
    match r.2 with
    | .error (cs, d, ix) => c1.trap i l cs d ix
    | .ok addr => access c1 l addr

/-- LDT on captured operands (R162, R167). -/
def ldtLx (i : LxIn) : LxOut :=
  let ty := exTy i.x
  let n := tyRegs ty
  match tensorTrap i with
  | some (c, d) => if c == 2 then .check d [] else .trap c d []
  | none =>
    if i.idx.all Src.isUni && i.marks.1 ||| i.marks.2 == 0 then
      let c := tensorItem i false (fun c l a => loadItem i .global ty c l 32 a) { s := i.s, w := i.w } ((maskLanes i.act).headD 0)
      c.out i (if c.traps.isEmpty then
          lxWrites i.word.d7 n (.uni ((c.vals.headD (0, 0)).2)) (spreadMark c.poison i.act) (spreadMark c.world i.act) else [])
        false (spreadTraps c.traps i.act)
    else
      let c := (maskLanes i.act).foldl (tensorItem i false (fun c l a => loadItem i .global ty c l l a)) { s := i.s, w := i.w }
      c.out i (lxWrites i.word.d7 n (loadOut ty (valList c.vals)) c.poison c.world) false c.traps

/-- STT on captured operands (R167, R300): items in ascending lane order. -/
def sttLx (i : LxIn) : LxOut :=
  match tensorTrap i with
  | some (c, d) => if c == 2 then .check d [] else .trap c d []
  | none =>
    let c := (maskLanes i.act).foldl
      (tensorItem i true (fun c l a => storeItem i .global (exTy i.x) c l a (i.d.at i.ix l))) { s := i.s, w := i.w }
    c.out i [] false c.traps

/-- LDT (R167). -/
def execLdt (x : Option Ex) (l : BitVec 4) (d a b : R7) (s : State) : Host.Outcome State Fault Refusal :=
  settle (issue (lxWave tensorRank ldtLx) waveOnly x (wordOf (.ldt x l d a b)) s)

/-- STT (R167). -/
def execStt (x : Option Ex) (l : BitVec 4) (d a b : R7) (s : State) : Host.Outcome State Fault Refusal :=
  settle (issue (lxWave tensorRank sttLx) waveOnly x (wordOf (.stt x l d a b)) s)

end Sys2Proof.Machine
end

