-- ==== Sys2Proof/Machine/Atomics.lean ====
section
/-! DEFINITION. Atomics (R175 to R178) and rings (R179 to R182). -/
namespace Sys2Proof.Machine
open Sys2Proof

/-! ### Atomics -/

/-- The packed word P of a score and an index (R177). -/
def packWinner (score index : Nat) : Nat :=
  let u := if (fp32.decode score).isNan then fp32.nanCode else score % 2 ^ 32
  let key := if u < 2 ^ 31 then u + 2 ^ 31 else 2 ^ 32 - 1 - u
  key * 2 ^ 32 + (0xFFFFFFFF - index % 2 ^ 32)

/-- An atomic function with its type, rounding and saturation (R175). -/
structure Atom where
  fx : Nat
  ty : Nat
  rm : Rm
  sat : Bool
  deriving DecidableEq, Repr

/-- The atomic function of an EX. -/
def atomOf (x : Option Ex) : Atom := ⟨exFx x, exTy x, Rm.ofCode (exRm x), exSat x⟩

/-- The new memory value (the table of R175). -/
def Atom.new (f : Atom) (m y c : Nat) : Nat :=
  let w := tyWidth f.ty
  let iv := intVal f.ty
  match f.fx with
  | 0 => ofInt w (iv m + iv y)
  | 1 => fadd fp32 f.rm f.sat m y
  | 2 => ofInt w (min (iv m) (iv y))
  | 3 => ofInt w (max (iv m) (iv y))
  | 4 => m &&& y
  | 5 => m ||| y
  | 6 => m ^^^ y
  | 7 => y
  | 8 => if m == c then y else m
  | 9 => max m (packWinner (y % 2 ^ 32) (y / 2 ^ 32))
  | _ => if f.ty == 8 then fadd fp32 f.rm f.sat m y else ofInt w (iv m + iv y)

/-- Perform one update at locations: the state and the old value. -/
def State.atomAt (s : State) (f : Atom) (ls : List Loc) (y c : Nat) (by_ : Option WaveRef) : State × Nat :=
  let m := s.numAt ls
  ((s.guardLocs ls).writeAt ls (toBytes (tyBytes f.ty) (f.new m y c)) by_, m)

/-- The key of bytes of another node that a team's item is to update, where the target grants it: what it meets there decides at issue
whether the item raises a trap (R163, R181; log 26). -/
def State.awayAt (s : State) (t : Team) (l : Launch) (node addr n : Nat) : Option Nat :=
  (s.reachKey t.node t.die l.ccn t.world node addr n .rmw).toOption

/-- One item of an atomic other than `.sadd` (R163, R176). -/
def atomItem (i : LxIn) (sp : Space) (ret : Bool) (c : Acc) (l : Nat) : Acc :=
  let f := atomOf i.x
  let n := tyBytes f.ty
  let addr := i.a.at i.ix l
  if addr % n != 0 then c.trap i l 2 8 addr
  else
    match c.s.land i.l i.t sp addr n .rmw false with
    | .trap 0 _ => c.val l 0 true false
    | .trap cs d => c.trap i l cs d addr
    | .acm _ => c
    | .at_ ls =>
      if c.s.poisonedAt ls then c.trap i l 0x0B 1 addr
      else
        let r := c.s.atomAt f ls (i.b.at i.ix l) (i.d.at i.ix l) (some i.w.ref)
        { c with s := r.1 }.val l r.2 false false
    | .remote node a =>
      if (c.s.awayAt i.t i.l node a n).any (fun k => c.s.poisonedAt (globLocs k n)) then c.trap i l 0x0B 1 addr
      else
      let op : RemoteOp := .atomic l i.word.d7 i.word ((i.x.map Ex.word).getD 0) (BitVec.ofNat 64 (i.b.at i.ix l)) (BitVec.ofNat 64 (i.d.at i.ix l))
      let s := c.s.send (requestPacket i.t i.l i.w.ref (if ret then i.key else 0) node a op)
      { c with s := s, waits := c.waits + b2n ret }

/-- The sum of an address group of `.sadd` (R56, R178). -/
def groupSum (f : Atom) (vs : List Nat) : Nat :=
  match vs with
  | [] => 0
  | v :: t => t.foldl (fun a b => if f.ty == 8 then fadd fp32 f.rm false a b else ofInt (tyWidth f.ty) (intVal f.ty a + intVal f.ty b)) v

/-- One address group of `.sadd` (R178): one update, whose old value every item of the group receives. -/
def saddGroup (i : LxIn) (sp : Space) (c : Acc) (addr : Nat) : Acc :=
  let f := atomOf i.x
  let n := tyBytes f.ty
  let ls := (maskLanes i.act).filter (fun l => i.a.at i.ix l == addr)
  let all (cs d : Nat) : Acc := ls.foldl (fun c l => c.trap i l cs d addr) c
  if addr % n != 0 then all 2 8
  else
    match c.s.land i.l i.t sp addr n .rmw false with
    | .trap 0 _ => ls.foldl (fun c l => c.val l 0 true false) c
    | .trap cs d => all cs d
    | .at_ bs =>
      if c.s.poisonedAt bs then all 0x0B 1
      else
        let r := c.s.atomAt f bs (groupSum f (ls.map (fun l => i.b.at i.ix l))) 0 (some i.w.ref)
        ls.foldl (fun c l => c.val l r.2 false false) { c with s := r.1 }
    | _ => c

/-- An atomic on captured operands (R175 to R178): items in ascending lane order; the results are M. -/
def atomLx (sp : Space) (ret : Bool) (i : LxIn) : LxOut :=
  let c0 : Acc := { s := i.s, w := i.w }
  let c := if exFx i.x == 10 then ((maskLanes i.act).map (fun l => i.a.at i.ix l)).eraseDups.foldl (saddGroup i sp) c0
    else (maskLanes i.act).foldl (atomItem i sp ret) c0
  c.out i (if ret then lxWrites i.word.d7 (tyRegs (exTy i.x)) (.per (valList c.vals)) c.poison c.world else []) ret c.traps

/-- ATOMG (R175, R176). -/
def execAtomg (x : Option Ex) (l : BitVec 4) (d a b : R7) (s : State) : Host.Outcome State Fault Refusal :=
  settle (runLx (atomLx .global true) x (wordOf (.atomg x l d a b)) s)

/-- ATOMS (R175, R176). -/
def execAtoms (x : Option Ex) (l : BitVec 4) (d a b : R7) (s : State) : Host.Outcome State Fault Refusal :=
  settle (runLx (atomLx .scratch true) x (wordOf (.atoms x l d a b)) s)

/-- ATOMC (R175, R176). -/
def execAtomc (x : Option Ex) (l : BitVec 4) (d a b : R7) (s : State) : Host.Outcome State Fault Refusal :=
  settle (runLx (atomLx .cluster true) x (wordOf (.atomc x l d a b)) s)

/-- REDG (R175): ATOMG without a return value. -/
def execRedg (x : Option Ex) (l : BitVec 4) (a b : R7) (s : State) : Host.Outcome State Fault Refusal :=
  settle (runLx (atomLx .global false) x (wordOf (.redg x l a b)) s)

/-! ### Rings -/

/-- A ring at its home: the key of its descriptor, and the key of its slot-state array if its addresses resolve. -/
structure RingAt where
  desc : Nat
  states : Nat
  nlog : Nat
  deriving DecidableEq, Repr

/-- The states of a slot (R181; their codes in the state array are the model's). -/
def slotFree : Nat := 0
/-- Reserved. -/
def slotReserved : Nat := 1
/-- Published. -/
def slotPublished : Nat := 2
/-- Taken. -/
def slotTaken : Nat := 3

/-- A counter of a ring (R179). -/
def State.ringWord (s : State) (r : RingAt) (off : Nat) : Nat := s.mem.word (r.desc + off) 4

/-- Write a counter of a ring. -/
def State.setRing (s : State) (r : RingAt) (off v : Nat) : State :=
  (s.guardPhys r.desc 256).store (r.desc + off) (toBytes 4 v)

/-- The state of the slot of a sequence number (R179). -/
def State.slot (s : State) (r : RingAt) (q : Nat) : Nat :=
  let j := q % 2 ^ r.nlog
  (s.mem.read (r.states + j / 4)).toNat / 4 ^ (j % 4) % 4

/-- Set the state of the slot of a sequence number. -/
def State.setSlot (s : State) (r : RingAt) (q v : Nat) : State :=
  let j := q % 2 ^ r.nlog
  let b := (s.mem.read (r.states + j / 4)).toNat
  let b' := b - b / 4 ^ (j % 4) % 4 * 4 ^ (j % 4) + v * 4 ^ (j % 4)
  (s.guardPhys r.states (j / 4 + 1)).store (r.states + j / 4) [BitVec.ofNat 8 b']

/-- "s is in [x, y)" (R181). -/
def inRing (q x y : Nat) : Bool := decide ((q + 2 ^ 32 - x) % 2 ^ 32 < (y + 2 ^ 32 - x) % 2 ^ 32)

/-- Nothing changed (R181). -/
def ringNone : Nat := 0xFFFFFFFF

/-- Advance PUB while the slot there is published (R181). -/
def State.advancePub (s : State) (r : RingAt) : Nat → State
  | 0 => s
  | fuel + 1 =>
    let p := s.ringWord r 0x80
    if p != s.ringWord r 0x10 && s.slot r p == slotPublished then (s.setRing r 0x80 ((p + 1) % 2 ^ 32)).advancePub r fuel else s

/-- Advance RELD while the slot there is free (R181). -/
def State.advanceReld (s : State) (r : RingAt) : Nat → State
  | 0 => s
  | fuel + 1 =>
    let p := s.ringWord r 0x18
    if p != s.ringWord r 0x84 && s.slot r p == slotFree then
      ((s.setRing r 0x18 ((p + 1) % 2 ^ 32)).setRing r 0x14 ((s.ringWord r 0x14 + 1) % 2 ^ 32)).advanceReld r fuel
    else s

/-- Note a ring instruction's write of its descriptor line (R182). -/
def State.ringTouch (s : State) (r : RingAt) (line : Nat) (by_ : Option WaveRef) : State :=
  s.touchAll (linesOf (.glob (r.desc + 128 * line)) 128) by_

/-- RGRSV at the home slice (R181). -/
def State.ringRsv (s : State) (r : RingAt) (by_ : Option WaveRef) : State × Nat :=
  let free := s.ringWord r 0x14
  let q := s.ringWord r 0x10
  if free == 0 then (s, ringNone)
  else ((((s.setSlot r q slotReserved).setRing r 0x10 ((q + 1) % 2 ^ 32)).setRing r 0x14 (free - 1)).ringTouch r 0 by_, q)

/-- RGPUB at the home slice (R181). -/
def State.ringPub (s : State) (r : RingAt) (q : Nat) (by_ : Option WaveRef) : State × Nat :=
  if inRing q (s.ringWord r 0x18) (s.ringWord r 0x10) && s.slot r q == slotReserved then
    (((s.setSlot r q slotPublished).advancePub r (2 ^ r.nlog + 1)).ringTouch r 1 by_, 0)
  else (s, ringNone)

/-- RGTAKE at the home slice (R181). -/
def State.ringTake (s : State) (r : RingAt) (by_ : Option WaveRef) : State × Nat :=
  let q := s.ringWord r 0x84
  if q == s.ringWord r 0x80 then (s, ringNone)
  else (((s.setSlot r q slotTaken).setRing r 0x84 ((q + 1) % 2 ^ 32)).ringTouch r 1 by_, q)

/-- RGFREE at the home slice (R181). -/
def State.ringFree (s : State) (r : RingAt) (q : Nat) (by_ : Option WaveRef) : State × Nat :=
  if inRing q (s.ringWord r 0x18) (s.ringWord r 0x84) && s.slot r q == slotTaken then
    (((s.setSlot r q slotFree).advanceReld r (2 ^ r.nlog + 1)).ringTouch r 0 by_, 0)
  else (s, ringNone)

/-- A ring instruction by its number 0 to 3. -/
def State.ringOp (s : State) (r : RingAt) (op q : Nat) (by_ : Option WaveRef) : State × Nat :=
  match op with
  | 0 => s.ringRsv r by_
  | 1 => s.ringPub r q by_
  | 2 => s.ringTake r by_
  | _ => s.ringFree r q by_

/-- The ring of a descriptor key, `res` resolving global addresses; the trap where it has none (R181). -/
def State.ringAt (s : State) (res : Nat → Nat → Except (Nat × Nat) Nat) (key : Nat) : Except (Nat × Nat) RingAt :=
  let cfg := s.mem.word (key + 8) 4
  let nlog := bits cfg 12 8
  let slog := bits cfg 4 0
  if nlog == 0 then .error (2, 8)
  else match res ((s.mem.word key 8 + 2 ^ (nlog + slog)) % 2 ^ 64) (ceilDiv (2 ^ nlog) 4) with
    | .error e => .error e
    | .ok k => .ok ⟨key, k, nlog⟩

/-- Whether a byte of a ring's slot-state array is poisoned (R340). -/
def State.ringPoisoned (s : State) (r : RingAt) : Bool := s.poisonedAt (globLocs r.states (ceilDiv (2 ^ r.nlog) 4))

/-- The resolution of a global address at once for a team (R32). -/
def State.teamRes (s : State) (t : Team) (l : Launch) (a n : Nat) : Except (Nat × Nat) Nat :=
  match s.globalKey t.node t.die l.ccn t.segs t.world a n .rmw with
  | .ok k => .ok k
  | .error (c, d, _) => .error (c, d)

/-- The trap that an item of a ring instruction raises at a ring of another node: NLOG 0, or a poisoned descriptor or state (R163,
R181; log 26). -/
def State.awayRing (s : State) (t : Team) (l : Launch) (node addr : Nat) : Option (Nat × Nat) :=
  match s.awayAt t l node addr 256 with
  | none => none
  | some k =>
    if s.poisonedAt (globLocs k 256) then some (0x0B, 1)
    else if bits (s.mem.word (k + 8) 4) 12 8 == 0 then some (2, 8)
    else match s.ringAt (fun a n => s.remoteKey node l.ccn t.world a n .rmw) k with
      | .error _ => none
      | .ok r => if s.ringPoisoned r then some (0x0B, 1) else none

/-- One item of a ring instruction (R163, R181). -/
def ringItem (i : LxIn) (op : Nat) (c : Acc) (l : Nat) : Acc :=
  let addr := i.a.at i.ix l
  if addr % 256 != 0 then c.trap i l 2 8 addr
  else
    match c.s.land i.l i.t .global addr 256 .rmw false with
    | .trap cs d => c.trap i l cs d addr
    | .acm _ => c
    | .at_ ls =>
      if c.s.poisonedAt ls then c.trap i l 0x0B 1 addr
      else
        let key := match ls.head? with
          | some (.glob k) => k
          | _ => 0
        match c.s.ringAt (c.s.teamRes i.t i.l) key with
        | .error (0, _) => c.val l 0 true false
        | .error (cs, d) => c.trap i l cs d addr
        | .ok r =>
          if c.s.ringPoisoned r then c.trap i l 0x0B 1 addr
          else
            let q := c.s.ringOp r op (i.b.at i.ix l) (some i.w.ref)
            { c with s := q.1 }.val l q.2 false false
    | .remote node a =>
      match c.s.awayRing i.t i.l node a with
      | some (cs, d) => c.trap i l cs d addr
      | none =>
      let s := c.s.send (requestPacket i.t i.l i.w.ref i.key node a (.ring l i.word.d7 op (BitVec.ofNat 32 (i.b.at i.ix l))))
      { c with s := s, waits := c.waits + 1 }

/-- A ring instruction on captured operands (R181): items in ascending lane order. -/
def ringLx (op : Nat) (i : LxIn) : LxOut :=
  let c := (maskLanes i.act).foldl (ringItem i op) { s := i.s, w := i.w }
  c.out i (lxWrites i.word.d7 1 (.per (valList c.vals)) c.poison c.world) true c.traps

/-- RGRSV (R181). -/
def execRgrsv (x : Option Ex) (l : BitVec 4) (d a : R7) (s : State) : Host.Outcome State Fault Refusal :=
  settle (runLx (ringLx 0) x (wordOf (.rgrsv x l d a)) s)

/-- RGPUB (R181). -/
def execRgpub (x : Option Ex) (l : BitVec 4) (d a b : R7) (s : State) : Host.Outcome State Fault Refusal :=
  settle (runLx (ringLx 1) x (wordOf (.rgpub x l d a b)) s)

/-- RGTAKE (R181). -/
def execRgtake (x : Option Ex) (l : BitVec 4) (d a : R7) (s : State) : Host.Outcome State Fault Refusal :=
  settle (runLx (ringLx 2) x (wordOf (.rgtake x l d a)) s)

/-- RGFREE (R181). -/
def execRgfree (x : Option Ex) (l : BitVec 4) (d a b : R7) (s : State) : Host.Outcome State Fault Refusal :=
  settle (runLx (ringLx 3) x (wordOf (.rgfree x l d a b)) s)

end Sys2Proof.Machine
end

