-- ==== Sys2Proof/Machine/Crypto.lean ====
section
/-! DEFINITION. The algorithms that boot and attestation name by their standards: SHA-512 (R379, R380, R382) and Ed25519
verification (R379). Their constants are those of FIPS 180-4 and RFC 8032, which the spec cites. -/
namespace Sys2Proof.Machine
open Sys2Proof

/-! ### SHA-512 (FIPS 180-4) -/

/-- Round constants 0 to 19 (FIPS 180-4). -/
def shaK0 : List (BitVec 64) :=
  [0x428A2F98D728AE22, 0x7137449123EF65CD, 0xB5C0FBCFEC4D3B2F, 0xE9B5DBA58189DBBC,
   0x3956C25BF348B538, 0x59F111F1B605D019, 0x923F82A4AF194F9B, 0xAB1C5ED5DA6D8118,
   0xD807AA98A3030242, 0x12835B0145706FBE, 0x243185BE4EE4B28C, 0x550C7DC3D5FFB4E2,
   0x72BE5D74F27B896F, 0x80DEB1FE3B1696B1, 0x9BDC06A725C71235, 0xC19BF174CF692694,
   0xE49B69C19EF14AD2, 0xEFBE4786384F25E3, 0x0FC19DC68B8CD5B5, 0x240CA1CC77AC9C65]

/-- Round constants 20 to 39 (FIPS 180-4). -/
def shaK1 : List (BitVec 64) :=
  [0x2DE92C6F592B0275, 0x4A7484AA6EA6E483, 0x5CB0A9DCBD41FBD4, 0x76F988DA831153B5,
   0x983E5152EE66DFAB, 0xA831C66D2DB43210, 0xB00327C898FB213F, 0xBF597FC7BEEF0EE4,
   0xC6E00BF33DA88FC2, 0xD5A79147930AA725, 0x06CA6351E003826F, 0x142929670A0E6E70,
   0x27B70A8546D22FFC, 0x2E1B21385C26C926, 0x4D2C6DFC5AC42AED, 0x53380D139D95B3DF,
   0x650A73548BAF63DE, 0x766A0ABB3C77B2A8, 0x81C2C92E47EDAEE6, 0x92722C851482353B]

/-- Round constants 40 to 59 (FIPS 180-4). -/
def shaK2 : List (BitVec 64) :=
  [0xA2BFE8A14CF10364, 0xA81A664BBC423001, 0xC24B8B70D0F89791, 0xC76C51A30654BE30,
   0xD192E819D6EF5218, 0xD69906245565A910, 0xF40E35855771202A, 0x106AA07032BBD1B8,
   0x19A4C116B8D2D0C8, 0x1E376C085141AB53, 0x2748774CDF8EEB99, 0x34B0BCB5E19B48A8,
   0x391C0CB3C5C95A63, 0x4ED8AA4AE3418ACB, 0x5B9CCA4F7763E373, 0x682E6FF3D6B2B8A3,
   0x748F82EE5DEFB2FC, 0x78A5636F43172F60, 0x84C87814A1F0AB72, 0x8CC702081A6439EC]

/-- Round constants 60 to 79 (FIPS 180-4). -/
def shaK3 : List (BitVec 64) :=
  [0x90BEFFFA23631E28, 0xA4506CEBDE82BDE9, 0xBEF9A3F7B2C67915, 0xC67178F2E372532B,
   0xCA273ECEEA26619C, 0xD186B8C721C0C207, 0xEADA7DD6CDE0EB1E, 0xF57D4F7FEE6ED178,
   0x06F067AA72176FBA, 0x0A637DC5A2C898A6, 0x113F9804BEF90DAE, 0x1B710B35131C471B,
   0x28DB77F523047D84, 0x32CAAB7B40C72493, 0x3C9EBE0A15C9BEBC, 0x431D67C49C100D4C,
   0x4CC5D4BECB3E42B6, 0x597F299CFC657E2A, 0x5FCB6FAB3AD6FAEC, 0x6C44198C4A475817]

/-- The 80 round constants. -/
def shaK : List (BitVec 64) := shaK0 ++ shaK1 ++ shaK2 ++ shaK3

/-- The initial hash value. -/
def shaH0 : List (BitVec 64) :=
  [0x6A09E667F3BCC908, 0xBB67AE8584CAA73B, 0x3C6EF372FE94F82B, 0xA54FF53A5F1D36F1,
   0x510E527FADE682D1, 0x9B05688C2B3E6C1F, 0x1F83D9ABFB41BD6B, 0x5BE0CD19137E2179]

/-- A big-endian 64-bit word from 8 bytes. -/
def beWord (bs : List Byte) : BitVec 64 := BitVec.ofNat 64 (bs.foldl (fun n b => 256 * n + b.toNat) 0)

/-- The 8 bytes of a word, big-endian. -/
def beBytes (w : BitVec 64) : List Byte := (toBytes 8 w.toNat).reverse

/-- The first 16 words of a 128-byte block. -/
def shaWords (blk : List Byte) : List (BitVec 64) := (List.range 16).map (fun i => beWord ((blk.drop (8 * i)).take 8))

/-- Extend the message schedule, kept newest first, by `n` words. -/
def shaSchedule : Nat → List (BitVec 64) → List (BitVec 64)
  | 0, w => w
  | n + 1, w =>
    let g (i : Nat) : BitVec 64 := w.getD (i - 1) 0
    let s0 := (g 15).rotateRight 1 ^^^ (g 15).rotateRight 8 ^^^ (g 15 >>> 7)
    let s1 := (g 2).rotateRight 19 ^^^ (g 2).rotateRight 61 ^^^ (g 2 >>> 6)
    shaSchedule n ((g 16 + s0 + g 7 + s1) :: w)

/-- One round on the eight working variables. -/
def shaRound (v : List (BitVec 64)) (kw : BitVec 64 × BitVec 64) : List (BitVec 64) :=
  let g (i : Nat) : BitVec 64 := v.getD i 0
  let e := g 4
  let a := g 0
  let s1 := e.rotateRight 14 ^^^ e.rotateRight 18 ^^^ e.rotateRight 41
  let ch := (e &&& g 5) ^^^ (~~~e &&& g 6)
  let t1 := g 7 + s1 + ch + kw.1 + kw.2
  let s0 := a.rotateRight 28 ^^^ a.rotateRight 34 ^^^ a.rotateRight 39
  let maj := (a &&& g 1) ^^^ (a &&& g 2) ^^^ (g 1 &&& g 2)
  [t1 + s0 + maj, a, g 1, g 2, g 3 + t1, e, g 5, g 6]

/-- The compression of one block. -/
def shaBlock (h : List (BitVec 64)) (blk : List Byte) : List (BitVec 64) :=
  let w := (shaSchedule 64 (shaWords blk).reverse).reverse
  let v := (shaK.zip w).foldl shaRound h
  (h.zip v).map (fun p => p.1 + p.2)

/-- The compression of the blocks of a padded message, `n` of them. -/
def shaBlocks : Nat → List (BitVec 64) → List Byte → List (BitVec 64)
  | 0, h, _ => h
  | n + 1, h, m => shaBlocks n (shaBlock h (m.take 128)) (m.drop 128)

/-- A message with its padding. -/
def shaPad (m : List Byte) : List Byte :=
  let z := (239 - m.length % 128) % 128
  m ++ 0x80 :: List.replicate z 0 ++ (toBytes 16 (8 * m.length)).reverse

/-- SHA-512 of bytes: 64 bytes. -/
def sha512 (m : List Byte) : List Byte :=
  let p := shaPad m
  (shaBlocks (p.length / 128) shaH0 p).flatMap beBytes

/-! ### Ed25519 (RFC 8032) -/

/-- The field prime 2^255 − 19. -/
def edP : Nat := 2 ^ 255 - 19
/-- The group order. -/
def edL : Nat := 2 ^ 252 + 27742317777372353535851937790883648493

/-- x to the power whose low `n` bits are those of e, modulo p. -/
def powMod (p x e : Nat) : Nat → Nat
  | 0 => 1
  | n + 1 =>
    let r := powMod p x (e / 2) n
    if e % 2 == 1 then r * r % p * x % p else r * r % p

/-- The inverse modulo the field prime. -/
def edInv (x : Nat) : Nat := powMod edP x (edP - 2) 255

/-- The curve constant d = −121665 / 121666. -/
def edD : Nat := (edP - 121665) * edInv 121666 % edP

/-- A point in extended homogeneous coordinates (X, Y, Z, T). -/
structure EdPoint where
  x : Nat
  y : Nat
  z : Nat
  t : Nat
  deriving DecidableEq, Repr

/-- The sum of two points. -/
def EdPoint.add (a b : EdPoint) : EdPoint :=
  let sub (u v : Nat) : Nat := (u + edP - v % edP) % edP
  let aa := sub a.y a.x * sub b.y b.x % edP
  let bb := (a.y + a.x) * (b.y + b.x) % edP
  let cc := 2 * a.t * b.t % edP * edD % edP
  let dd := 2 * a.z * b.z % edP
  let e := sub bb aa
  let f := sub dd cc
  let g := (dd + cc) % edP
  let h := (bb + aa) % edP
  ⟨e * f % edP, g * h % edP, f * g % edP, e * h % edP⟩

/-- The neutral point. -/
def EdPoint.zero : EdPoint := ⟨0, 1, 1, 0⟩

/-- The multiple of a point by the low `n` bits of e. -/
def EdPoint.mul (p : EdPoint) (e : Nat) : Nat → EdPoint
  | 0 => EdPoint.zero
  | n + 1 =>
    let r := EdPoint.mul p (e / 2) n
    let d := r.add r
    if e % 2 == 1 then d.add p else d

/-- Whether two points are equal. -/
def EdPoint.same (a b : EdPoint) : Bool :=
  a.x * b.z % edP == b.x * a.z % edP && a.y * b.z % edP == b.y * a.z % edP

/-- A square root of u / v, if it has one (RFC 8032, 5.1.3). -/
def edRoot (u v : Nat) : Option Nat :=
  let x := u * powMod edP v 3 3 % edP * powMod edP (u * powMod edP v 7 3 % edP) ((edP - 5) / 8) 252 % edP
  if v * x % edP * x % edP == u then some x
  else if v * x % edP * x % edP == (edP - u) % edP then some (x * powMod edP 2 ((edP - 1) / 4) 254 % edP) else none

/-- The point that 32 bytes encode (RFC 8032, 5.1.3). -/
def edDecode (bs : List Byte) : Option EdPoint :=
  let n := ofBytes bs
  let y := n % 2 ^ 255
  let sign := n / 2 ^ 255
  if edP ≤ y then none
  else
    let u := (y * y + edP - 1) % edP
    let v := (edD * (y * y % edP) + 1) % edP
    match edRoot u v with
    | none => none
    | some x =>
      if x == 0 && sign == 1 then none
      else
        let x := if x % 2 == sign then x else edP - x
        some ⟨x, y, 1, x * y % edP⟩

/-- The base point, whose y is 4/5 and whose x is even. -/
def edBase : Option EdPoint := edDecode (toBytes 32 (4 * edInv 5 % edP))

/-- Pure Ed25519 verification of a 64-byte signature (RFC 8032, 5.1.7), with the cofactored group equation. -/
def edVerify (key sig msg : List Byte) : Bool :=
  let r := sig.take 32
  let s := ofBytes ((sig.drop 32).take 32)
  match edBase, edDecode key, edDecode r with
  | some b, some a, some rp =>
    let k := ofBytes (sha512 (r ++ key ++ msg)) % edL
    decide (s < edL) && ((b.mul s 253).mul 8 4).same ((rp.mul 8 4).add ((a.mul k 253).mul 8 4))
  | _, _, _ => false

end Sys2Proof.Machine
end

