-- ==== Sys2Proof/Machine/Tx.lean ====
section
/-! DEFINITION. Transactions (R183 to R195). The line sets and conflicts stand in Access.lean. -/
namespace Sys2Proof.Machine
open Sys2Proof

/-- An abort of the wave's own transaction, with the state as it is (R189). -/
def Env.abortWith (e : Env) (cause : Nat) : Effect := .done e.s (e.w.abortTx cause) [] true

/-- The transaction-misuse trap, the open transaction first aborting with cause MISUSE (R191). -/
def misuse (detail : Nat) : Effect := .trap 0x0A detail 6 []

/-- TXBEGIN in a wave (R183, R184). The outermost one waits until the wave's requests to other nodes have been performed: none
of them falls inside the transaction or behind its commit (R164, R190, R322). -/
def txbeginWave (e : Env) : Effect :=
  let pc := e.w.groupPc
  if e.w.tx.isNone && e.s.inFlight e.w.ref then .wait
  else if e.w.fallback then .trap 0x0A 3 9 []
  else
    match e.w.tx with
    | none =>
      e.ok { e.w with
        tx := some { abortPc := bxTarget pc e.word, beginPc := pc, begun := e.w.keptBegin.getD e.s.time, depth := 1, alts := [],
                     rlines := [], wlines := [], overlay := [], firstPend := e.s.nextNum, redux := [] } }
    | some t => if t.depth == 15 then e.abortWith 8 else e.ok { e.w with tx := some { t with depth := t.depth + 1 } }

/-- TXBEGIN (R183, R184). -/
def execTxbegin (o : BitVec 21) (s : State) : Host.Outcome State Fault Refusal :=
  settle (issue txbeginWave waveOnly none (wordOf (.txbegin o)) s)

/-- ORELSE in a wave (R191). -/
def orelseWave (e : Env) : Effect :=
  match e.w.tx with
  | none => misuse 2
  | some t =>
    if t.alts.length == 4 then e.abortWith 8
    else
      let a : Alt := ⟨bxTarget e.w.groupPc e.word, t.depth, t.overlay, t.wlines, t.redux⟩
      e.ok { e.w with tx := some { t with alts := a :: t.alts } }

/-- ORELSE (R191). -/
def execOrelse (o : BitVec 21) (s : State) : Host.Outcome State Fault Refusal :=
  settle (issue orelseWave waveOnly none (wordOf (.orelse o)) s)

/-- The latest write of each location of an overlay, oldest location first. -/
def overlayFinal (o : List (Loc × Byte)) : List (Loc × Byte) :=
  (o.map Prod.fst).eraseDups.reverse.filterMap (fun l => o.find? (fun p => p.1 == l))

/-- Commit an open transaction (R190): its writes become visible, and its held contributions join their round (R187). -/
def commitTx (s : State) (w : Wave) (t : Tx) : State × Wave :=
  let ws := overlayFinal t.overlay
  let s1 := s.writeAt (ws.map Prod.fst) (ws.map Prod.snd) (some w.ref)
  let s2 := t.redux.foldl (fun s r =>
    s.contribute w.ref.team w.ref.num r.off ⟨r.ty, r.op, r.rm, r.sat⟩ ((r.parts.head?).map Prod.snd)) s1
  (s2, { w with tx := none, keptBegin := none })

/-- TXEND in a wave (R190). -/
def txendWave (e : Env) : Effect :=
  match e.w.tx with
  | none => misuse 2
  | some t =>
    if 2 ≤ t.depth then
      e.ok { e.w with tx := some { t with depth := t.depth - 1, alts := t.alts.filter (fun a => decide (a.depth < t.depth)) } }
    else
      let r := commitTx e.s e.w t
      .done r.1 r.2 [] false

/-- TXEND (R190). -/
def execTxend (x : Option Ex) (s : State) : Host.Outcome State Fault Refusal :=
  settle (issue txendWave waveOnly x (wordOf (.txend x)) s)

/-- RETRY in a wave (R192): back to the latest alternative, or asleep on the read set. -/
def retryWave (e : Env) : Effect :=
  match e.w.tx with
  | none => misuse 2
  | some t =>
    match t.alts with
    | a :: rest =>
      let t' := { t with depth := a.depth, alts := rest, overlay := a.overlay, wlines := a.wlines, redux := a.redux }
      .done e.s ({ e.w with tx := some t' }.setPc (e.w.live &&& e.w.txLanes) a.target) [] true
    | [] =>
      if t.rlines.isEmpty then misuse 4
      else
        .done e.s { (e.w.setPc e.w.txLanes t.beginPc) with
          tx := none, keptBegin := none, status := .asleep, wake := t.rlines, sleepBegin := e.s.time } [] true

/-- RETRY (R192). -/
def execRetry (x : Option Ex) (s : State) : Host.Outcome State Fault Refusal :=
  settle (issue retryWave waveOnly x (wordOf (.retry x)) s)

/-- OREND in a wave (R191). -/
def orendWave (e : Env) : Effect :=
  match e.w.tx with
  | none => misuse 5
  | some t => match t.alts with
    | [] => misuse 5
    | _ :: rest => e.ok { e.w with tx := some { t with alts := rest } }

/-- OREND (R191). -/
def execOrend (x : Option Ex) (s : State) : Host.Outcome State Fault Refusal :=
  settle (issue orendWave waveOnly x (wordOf (.orend x)) s)

/-- TXABORT in a wave (R194). -/
def txabortWave (e : Env) : Effect := if e.w.tx.isNone then misuse 2 else e.abortWith 3

/-- TXABORT (R194). -/
def execTxabort (x : Option Ex) (s : State) : Host.Outcome State Fault Refusal :=
  settle (issue txabortWave waveOnly x (wordOf (.txabort x)) s)

/-- TXSTAT in a wave (R28, R194). -/
def txstatWave (e : Env) : Effect := e.ok (e.put (wordInfo e.x e.word) 1 (.uni e.w.txstat) e.act)

/-- TXSTAT (R194). -/
def execTxstat (x : Option Ex) (d : R7) (s : State) : Host.Outcome State Fault Refusal :=
  settle (issue txstatWave waveOnly x (wordOf (.txstat x d)) s)

/-- WAKE_WITHOUT_CAUSE (R195): a sleeping wave is woken without a write to its lines. -/
def execWakeWithoutCause (r : WaveRef) (s : State) : Host.Outcome State Fault Refusal :=
  settle { s with waves := s.waves.map (fun w => if w.ref == r then w.wakeUp else w) }

end Sys2Proof.Machine
end

