-- ==== Sys2Proof/Machine/Sync.lean ====
section
/-! DEFINITION. Sync objects, fences, barriers and ring definition (R180, R197 to R204, R384). -/
namespace Sys2Proof.Machine
open Sys2Proof

/-- A uniform register of the wave. -/
def Env.kreg (e : Env) (c : Nat) : Nat := (e.w.k.getD (c - 88) 0).toNat
/-- A uniform register pair. -/
def Env.kpair (e : Env) (c : Nat) : Nat := e.kreg c + 2 ^ 32 * e.kreg (c + 1)

/-- The outcome of an access of `n` bytes that the wave makes once, local or remote (R163, R361, R362). -/
inductive OnceAt
  | key (k : Nat)
  | trap (cause detail : Nat)
  | refused (cause : Nat)

/-- Check an access that the wave makes once. -/
def Env.once (e : Env) (addr n : Nat) (a : Access) : OnceAt :=
  match e.s.globalKey e.t.node e.t.die e.l.ccn e.t.segs e.t.world addr n a with
  | .ok k => .key k
  | .error (c, d, false) => .trap c d
  | .error (c, _, true) => .refused c

/-- The trap of an access that the wave makes once, for every acting item. -/
def Env.onceTrap (e : Env) (c d addr : Nat) : Effect := .trap c d 9 ((maskLanes e.act).map (fun l => (l, addr)))

/-- Write a refused return value: poisoned, or zero and marked by the world check (R362, R373); a uniform register cannot
hold a mark, so the poison is consumed. -/
def Env.putRefused (e0 : Env) (addr cause : Nat) : Effect :=
  let e := { e0 with s := e0.s.awayNotice e0.t e0.w e0.l (gNode addr) cause 0 }
  if isK e.word.d7 then (if cause == 7 then whole 7 1 else whole 0x0B 0)
  else if e.word.d7 == 116 then e.ok e.w
  else
    let w := e.w.landReg false e.act e.ix e.s.time (e.word.d7,
      { form := .u 0, poison := if cause == 7 then 0 else e.act, world := if cause == 7 then e.act else 0 })
    e.ok w

/-! ### ACQ, REL, BIND (R197 to R199) -/

/-- ACQ and REL in a wave (R199): SEQ is read, or incremented once the wave's writes have been performed. A poisoned SEQ is
delivered poisoned by ACQ, and is poison consumed by the update of REL (R340). -/
def seqWave (rel : Bool) (e : Env) : Effect :=
  let addr := e.kpair e.word.a7
  if addr % 16 != 0 then badValue 8
  else if rel && e.s.inFlight e.w.ref then .wait
  else
    match e.once addr 16 .rmw with
    | .trap c d => e.onceTrap c d addr
    | .refused c => e.putRefused addr c
    | .key k =>
      if e.s.poisonedAt (globLocs (k + 0xE) 2) then (if rel then e.onceTrap 0x0B 1 addr else e.putRefused addr 0)
      else
        let seq := (e.s.mem.word (k + 0xE) 2 + b2n rel) % 65536
        let s1 := if rel then e.s.wrPhys (k + 0xE) (toBytes 2 seq) (some e.w.ref) else e.s
        .done s1 (e.put (wordInfo e.x e.word) 1 (.uni seq) e.act) [] false

/-- ACQ (R199). -/
def execAcq (x : Option Ex) (d a : R7) (s : State) : Host.Outcome State Fault Refusal :=
  settle (issue (seqWave false) waveOnly x (wordOf (.acq x d a)) s)

/-- REL (R199). -/
def execRel (x : Option Ex) (d a : R7) (s : State) : Host.Outcome State Fault Refusal :=
  settle (issue (seqWave true) waveOnly x (wordOf (.rel x d a)) s)

/-- FENCE in a wave (R200): it waits for the wave's loads and for its accesses under way. -/
def fenceWave (e : Env) : Effect := if !e.w.pend.isEmpty || e.s.inFlight e.w.ref then .wait else e.ok e.w

/-- FENCE (R200). -/
def execFence (x : Option Ex) (s : State) : Host.Outcome State Fault Refusal :=
  settle (issue fenceWave waveOnly x (wordOf (.fence x)) s)

/-- Whether BIND's operands are legal (R198). -/
def bindOk (addr base len ctl : Nat) : Bool :=
  addr % 16 == 0 && base % 128 == 0 && len % 128 == 0 && bits ctl 9 8 != 3 && bits ctl 2 0 != 6 && bits ctl 2 0 != 7 &&
    bits ctl 31 10 == 0 && bits ctl 7 3 == 0

/-- BIND in a wave (R198): BASE, LEN, SPACE and SCOPE in one update, SEQ unchanged. -/
def bindWave (e : Env) : Effect :=
  let addr := e.kpair e.word.a7
  let base := e.kpair e.word.b7
  let len := e.kreg (e.word.b7 + 2)
  let ctl := e.kreg (e.word.b7 + 3)
  if !bindOk addr base len ctl then badValue 8
  else
    match e.once addr 16 .rmw with
    | .trap c d => e.onceTrap c d addr
    | .refused c => .done (e.s.awayNotice e.t e.w e.l (gNode addr) c 0) e.w [] false
    | .key k => .done (e.s.wrPhys k (toBytes 8 base ++ toBytes 4 len ++ toBytes 2 ctl) (some e.w.ref)) e.w [] false

/-- BIND (R198). -/
def execBind (x : Option Ex) (a b : R7) (s : State) : Host.Outcome State Fault Refusal :=
  settle (issue bindWave waveOnly x (wordOf (.bind x a b)) s)

/-! ### Barriers (R201 to R204) -/

/-- BARINIT in a wave (R202). -/
def barinitWave (e : Env) : Effect :=
  let off := e.kreg e.word.a7
  let v := e.kreg e.word.b7
  let k := e.l.kernel
  if off % 8 != 0 || off < k.scr || k.alloc < off + 8 || barExpect v < 1 || 32 < barExpect v || 4 < barLevel v ||
      bits v 23 22 != 0 || bits v 15 6 != 0 then badValue 8
  else
    let t := (e.s.team? e.t.ref).getD e.t
    let s1 := e.s.modTeam t.ref (fun m => m.setBarrier ⟨off, 0, m.ended⟩)
    .done (s1.setBarWord t off 0 (v / 64 * 64)) e.w [] false

/-- BARINIT (R202). -/
def execBarinit (x : Option Ex) (a b : R7) (s : State) : Host.Outcome State Fault Refusal :=
  settle (issue barinitWave waveOnly x (wordOf (.barinit x a b)) s)

/-- ARRIVE in a wave (R203). -/
def arriveWave (e : Env) : Effect :=
  let off := e.kreg e.word.a7
  let k := e.l.kernel
  let t := (e.s.team? e.t.ref).getD e.t
  let b := t.barrier off
  if k.scr ≤ off && off < k.alloc && off % 8 != 0 then badValue 8
  else if e.s.inFlight e.w.ref then .wait
  else if off < k.scr || k.alloc < off + 8 then e.onceTrap 4 0 off
  else if b.arrived.getLsbD e.w.ref.num then whole 2 8
  else
    let phase := e.s.barWord t off 1
    let s1 := e.s.modTeam t.ref (fun m => m.setBarrier { b with arrived := b.arrived ||| laneBit e.w.ref.num })
    .done (s1.testBarrier t.ref off) (e.put (wordInfo e.x e.word) 1 (.uni phase) e.act) [] false

/-- ARRIVE (R203). -/
def execArrive (x : Option Ex) (d a : R7) (s : State) : Host.Outcome State Fault Refusal :=
  settle (issue arriveWave waveOnly x (wordOf (.arrive x d a)) s)

/-! ### RGDEF (R180) -/

/-- Whether a ring configuration word is within its limits (R179). -/
def ringCfgOk (cfg : Nat) : Bool :=
  bits cfg 31 13 == 0 && bits cfg 7 5 == 0 && decide (1 ≤ bits cfg 12 8) && decide (bits cfg 12 8 ≤ 16) &&
    decide (7 ≤ bits cfg 4 0) && decide (bits cfg 4 0 ≤ 16)

/-- Write a fresh descriptor and mark every slot free (R180). -/
def State.defineRing (s : State) (key states dbase cfg : Nat) : State :=
  let n := 2 ^ bits cfg 12 8
  let words := toBytes 8 dbase ++ toBytes 4 cfg ++ toBytes 4 0 ++ toBytes 4 0 ++ toBytes 4 n ++ toBytes 4 0
  let s0 := (((s.wipe states (ceilDiv n 4)).guardPhys key 256).store key words).store (key + 0x80) (toBytes 8 0)
  let s1 := ((s0.unpoison states (ceilDiv n 4)).unpoison key words.length).unpoison (key + 0x80) 8
  s1.touchAll (linesOf (.glob key) 256) none

/-- RGDEF in a wave (R180). -/
def rgdefWave (e : Env) : Effect :=
  let addr := e.kpair e.word.a7
  let dbase := e.kpair e.word.b7
  let cfg := e.kreg (e.word.b7 + 2)
  if addr % 256 != 0 || dbase % 128 != 0 || !ringCfgOk cfg then badValue 8
  else
    let n := 2 ^ bits cfg 12 8
    let size := n * 2 ^ bits cfg 4 0
    match e.once addr 256 .rmw, e.once dbase size .rmw, e.once ((dbase + size) % 2 ^ 64) (roundUp (ceilDiv n 4) 128) .rmw with
    | .trap c d, _, _ => e.onceTrap c d addr
    | _, .trap c d, _ => e.onceTrap c d dbase
    | _, _, .trap c d => e.onceTrap c d ((dbase + size) % 2 ^ 64)
    | .key k, .key _, .key st => .done (e.s.defineRing k st dbase cfg) e.w [] false
    | .refused c, _, _ => .done (e.s.awayNotice e.t e.w e.l (gNode addr) c 0) e.w [] false
    | _, .refused c, _ => .done (e.s.awayNotice e.t e.w e.l (gNode dbase) c 0) e.w [] false
    | _, _, .refused c => .done (e.s.awayNotice e.t e.w e.l (gNode dbase) c 0) e.w [] false

/-- RGDEF (R180). -/
def execRgdef (x : Option Ex) (a b : R7) (s : State) : Host.Outcome State Fault Refusal :=
  settle (issue rgdefWave waveOnly x (wordOf (.rgdef x a b)) s)

end Sys2Proof.Machine
end

