-- ==== Sys2Proof/Machine/Lists.lean ====
section
/-! DEFINITION. Ranked lists and threshold slots (R27, R30, R208 to R216). -/
namespace Sys2Proof.Machine
open Sys2Proof

/-! ### Lists (R208, R209) -/

/-- A ranked list: its key type (0 .f32, 1 .s32, 2 .n32), its capacity K, and its pairs, the best first. -/
structure Ranked where
  kt : Nat
  cap : Nat
  pairs : List (Nat × Nat)
  deriving DecidableEq, Repr

/-- The least key of a key type (R208). -/
def leastKey (kt : Nat) : Nat :=
  match kt with
  | 0 => 0xFF800000
  | 1 => 0x80000000
  | _ => 0

/-- A key as a number in the order of its key type (R209): for .f32, −0 is below +0. -/
def keyRank (kt k : Nat) : Int :=
  match kt with
  | 0 => fkey fp32 k
  | 1 => toSigned 32 k
  | _ => ((k % 2 ^ 32 : Nat) : Int)

/-- Whether a key is a NaN of its key type. -/
def keyNan (kt k : Nat) : Bool := kt == 0 && (fp32.decode k).isNan

/-- Whether pair p is better than pair q (R209). -/
def better (kt : Nat) (p q : Nat × Nat) : Bool :=
  let x := keyRank kt p.1
  let y := keyRank kt q.1
  decide (y < x) || (x == y && decide (p.2 < q.2))

/-- Push one pair (R214). -/
def Ranked.push (r : Ranked) (p : Nat × Nat) : Ranked :=
  if keyNan r.kt p.1 then r else { r with pairs := (insertBy (better r.kt) p r.pairs).take r.cap }

/-- KTHKEY (R208). -/
def Ranked.kth (r : Ranked) : Nat := if r.pairs.length == r.cap then (r.pairs.getLastD (leastKey r.kt, 0)).1 else leastKey r.kt

/-- The words of a list from COUNT to its last rank, CFG aside (R208). -/
def Ranked.words (r : Ranked) : List Nat :=
  r.pairs.length :: r.kth :: 0 ::
    (r.pairs ++ List.replicate (r.cap - r.pairs.length) (leastKey r.kt, 0xFFFFFFFF)).flatMap (fun (p : Nat × Nat) => [p.1, p.2])

/-- K of a CFG (R208). -/
def cfgK (c : Nat) : Nat := bits c 10 0
/-- KT of a CFG (R208). -/
def cfgKt (c : Nat) : Nat := bits c 13 12

/-- The checks of a list at word L with configuration `cfg` in an allocation of `size` words (R210): cause and DETAIL. -/
def listCheck (size l cfg : Nat) : Option (Nat × Nat) :=
  if l % 4 != 0 then some (2, 8)
  else if size < l + 4 then some (4, 1)
  else if cfgK cfg == 0 || 1024 < cfgK cfg || cfgKt cfg == 3 then some (2, 8)
  else if size < l + 4 + 2 * cfgK cfg then some (4, 1)
  else none

/-- The CFG word of a list. -/
def State.listCfg (s : State) (t : TeamRef) (l : Nat) : Nat := s.acmRead t l 4

/-- The check of a list that exists (R210). -/
def State.listTrap (s : State) (t : TeamRef) (size l : Nat) : Option (Nat × Nat) := listCheck size l (s.listCfg t l)

/-- The list at word L of a team. -/
def State.listAt (s : State) (t : TeamRef) (l : Nat) : Ranked :=
  let cfg := s.listCfg t l
  let n := min (s.acmRead t (l + 1) 4) (cfgK cfg)
  ⟨cfgKt cfg, cfgK cfg, (List.range n).map (fun j => (s.acmRead t (l + 4 + 2 * j) 4, s.acmRead t (l + 5 + 2 * j) 4))⟩

/-- Write a list's words behind its CFG. -/
def State.putList (s : State) (t : TeamRef) (l : Nat) (r : Ranked) : State :=
  s.acmWrite t (l + 1) (4 * r.words.length) (ofBytes (r.words.flatMap (toBytes 4)))

/-! ### Threshold slots (R30, R212) -/

/-- The words of CFG other than the binding. -/
def cfgBase (c : Nat) : Nat := c % 2 ^ 16

/-- Unbind what is bound to a slot, and clear its list's TBND and TSLOT. -/
def State.unbindSlot (s : State) (t : TeamRef) (slot : Nat) : State :=
  match (s.team? t).bind (fun m => m.thr.getD slot none) with
  | none => s
  | some l => (s.acmWrite t l 4 (cfgBase (s.listCfg t l))).modTeam t (fun m => { m with thr := setAt m.thr slot none })

/-- Unbind a list from every slot. -/
def State.unbindList (s : State) (t : TeamRef) (l : Nat) : State :=
  [0, 1, 2, 3].foldl (fun s j => if ((s.team? t).bind (fun m => m.thr.getD j none)) == some l then s.unbindSlot t j else s) s

/-- KTHs of a slot (R30): KTHKEY of the bound list, or 0xFF800000. -/
def State.kthOf (s : State) (t : TeamRef) (slot : Nat) : Nat :=
  match (s.team? t).bind (fun m => m.thr.getD slot none) with
  | none => 0xFF800000
  | some l => s.acmRead t (l + 2) 4

/-! ### The instructions -/

/-- A scratch-bounds or operand trap of a list for every acting item, with its address (R335). -/
def listEffect (e : Env) (p : Nat × Nat) (l : Nat) : Effect := e.onceTrap p.1 p.2 l

/-- The check of the address of a list, which stands in a uniform register (check 5 of R385, R210). -/
def badList (e : Env) (l : Nat) : Effect := .check 8 ((maskLanes e.act).map (fun i => (i, l)))

/-- Whether a CFG value of RKINIT is legal (R208, R211): K, KT and nothing else. -/
def cfgOk (cfg : Nat) : Bool :=
  bits cfg 31 14 == 0 && bits cfg 11 11 == 0 && cfgK cfg != 0 && decide (cfgK cfg ≤ 1024) && cfgKt cfg != 3

/-- RKINIT in a wave (R211). -/
def rkinitWave (e : Env) : Effect :=
  let l := e.kreg e.word.a7
  let cfg := e.kreg e.word.b7
  let t := e.t.ref
  if l % 4 != 0 then badList e l
  else if !cfgOk cfg then badValue 8
  else match listCheck e.l.kernel.acm l cfg with
  | some p => listEffect e p l
  | none =>
    .done (((e.s.unbindList t l).acmWrite t l 4 cfg).putList t l ⟨cfgKt cfg, cfgK cfg, []⟩) e.w [] false

/-- RKINIT (R211). -/
def execRkinit (x : Option Ex) (a b : R7) (s : State) : Host.Outcome State Fault Refusal :=
  settle (issue rkinitWave waveOnly x (wordOf (.rkinit x a b)) s)

/-- RKTHR in a wave (R212). -/
def rkthrWave (e : Env) : Effect :=
  let slot := e.word.b7
  let t := e.t.ref
  if e.word.a7 == 116 then .done (e.s.unbindSlot t slot) e.w [] false
  else
    let l := e.kreg e.word.a7
    if l % 4 != 0 then badList e l
    else match e.s.listTrap t e.l.kernel.acm l with
    | some p => listEffect e p l
    | none =>
      let s1 := (e.s.unbindList t l).unbindSlot t slot
      let s2 := s1.acmWrite t l 4 (cfgBase (s1.listCfg t l) + slot * 2 ^ 16 + 2 ^ 18)
      .done (s2.modTeam t (fun m => { m with thr := setAt m.thr slot (some l) })) e.w [] false

/-- RKTHR (R212). -/
def execRkthr (x : Option Ex) (a sl : R7) (s : State) : Host.Outcome State Fault Refusal :=
  settle (issue rkthrWave waveOnly x (wordOf (.rkthr x a sl)) s)

/-- PTHR in a wave (R213). -/
def pthrWave (e : Env) : Effect :=
  let slot := e.word.b7
  let t := e.t.ref
  let a := e.src (wordInfo e.x e.word) .a 1 32
  match (e.s.team? t).bind (fun m => m.thr.getD slot none) with
  | none => e.ok (e.w.setPred e.word.d7 e.act 0xFFFFFFFF)
  | some l =>
    let kt := cfgKt (e.s.listCfg t l)
    let kth := keyRank kt (e.s.kthOf t slot)
    let passes (k : Nat) : Bool := !keyNan kt k && decide (kth ≤ keyRank kt k)
    e.ok (e.w.setPred e.word.d7 e.act (maskOf (fun i => passes (a.at e.ix i))))

/-- PTHR (R213). -/
def execPthr (x : Option Ex) (d a sl : R7) (s : State) : Host.Outcome State Fault Refusal :=
  settle (issue pthrWave waveOnly x (wordOf (.pthr x d a sl)) s)

/-- RKPUSH on captured operands (R214): the pairs of the active items, in ascending lane order, as one unit. -/
def rkpushLx (i : LxIn) : LxOut :=
  let l := i.d.at i.ix 0
  let t := i.t.ref
  if l % 4 != 0 then .check 8 ((maskLanes i.act).map (fun j => (j, l)))
  else match i.s.listTrap t i.l.kernel.acm l with
  | some p => .trap p.1 p.2 ((maskLanes i.act).map (fun j => (j, l)))
  | none =>
    let r := (maskLanes i.act).foldl (fun (r : Ranked) j => r.push (i.a.at i.ix j, i.b.at i.ix j)) (i.s.listAt t l)
    .done (i.s.putList t l r) i.w [] false 0 []

/-- RKPUSH (R214). -/
def execRkpush (x : Option Ex) (l : BitVec 4) (d a b : R7) (s : State) : Host.Outcome State Fault Refusal :=
  settle (runLx rkpushLx x (wordOf (.rkpush x l d a b)) s)

/-- The team whose accumulator memory holds the source of RKMERGE (R215). -/
def mergeTeam (e : Env) (word : Nat) : Option Team :=
  let t := (e.s.team? e.t.ref).getD e.t
  if word == 0xFFFFFFFF then some t else e.s.clusterTeam t word

/-- RKMERGE in a wave (R215). -/
def rkmergeWave (e : Env) : Effect :=
  let l := e.kreg e.word.a7
  let src := e.kreg e.word.b7
  let t := e.t.ref
  if l % 4 != 0 then badList e l
  else if src % 4 != 0 then badList e src
  else match e.s.listTrap t e.l.kernel.acm l with
  | some p => listEffect e p l
  | none =>
    match mergeTeam e (e.kreg (e.word.b7 + 1)) with
    | none => listEffect e (4, 2) (e.kreg (e.word.b7 + 1))
    | some u =>
      match e.s.listTrap u.ref e.l.kernel.acm src with
      | some p => listEffect e p src
      | none =>
        let r := e.s.listAt t l
        let q := e.s.listAt u.ref src
        if r.kt != q.kt then whole 2 8 else .done (e.s.putList t l (q.pairs.foldl Ranked.push r)) e.w [] false

/-- RKMERGE (R215). -/
def execRkmerge (x : Option Ex) (a b : R7) (s : State) : Host.Outcome State Fault Refusal :=
  settle (issue rkmergeWave waveOnly x (wordOf (.rkmerge x a b)) s)

/-- RKREAD in a wave (R216). -/
def rkreadWave (e : Env) : Effect :=
  let i := wordInfo e.x e.word
  let l := e.kreg e.word.a7
  let b := e.src i .b 1 32
  if l % 4 != 0 then badList e l
  else match e.s.listTrap e.t.ref e.l.kernel.acm l with
  | some p => listEffect e p l
  | none =>
    let r := e.s.listAt e.t.ref l
    let rank (v : List Nat) : Nat :=
      let p := r.pairs.getD (arg v 0) (leastKey r.kt, 0xFFFFFFFF)
      p.1 + 2 ^ 32 * p.2
    e.ok (e.put i 2 (outOf .none 64 [b] rank e.act e.ix) e.act)

/-- RKREAD (R216). -/
def execRkread (x : Option Ex) (d a b : R7) (s : State) : Host.Outcome State Fault Refusal :=
  settle (issue rkreadWave waveOnly x (wordOf (.rkread x d a b)) s)

end Sys2Proof.Machine
end

