-- ==== Sys2Proof/Machine/Replay.lean ====
section
/-! DEFINITION. The replay queue: entries read back from a frame, their re-issue, and leaving a handler (R73, R165, R262,
R336 to R338). -/
namespace Sys2Proof.Machine
open Sys2Proof

/-! ### The function of an LX instruction -/

/-- What an LX instruction does with captured operands, by its major. -/
def lxFn (maj : Nat) (x : Option Ex) : LxIn → LxOut :=
  match maj with
  | 0x40 => shflLx
  | 0x41 => shflxLx
  | 0x42 => voteLx
  | 0x43 => reduxLx
  | 0x44 => scanLx
  | 0x45 => rbalLx
  | 0x46 => binLx
  | 0x47 => mrgLx
  | 0x48 => sortkLx
  | 0x53 => workLx
  | 0x58 => loadLx .global
  | 0x59 => storeLx .global
  | 0x5A => loadLx .scratch
  | 0x5B => storeLx .scratch
  | 0x5C => loadLx .cluster
  | 0x5D => storeLx .cluster
  | 0x5E => ldtLx
  | 0x5F => sttLx
  | 0x60 => lduLx
  | 0x61 => loadLx .acm
  | 0x62 => storeLx .acm
  | 0x63 => stwLx
  | 0x64 => stwbLx
  | 0x65 => prefLx
  | 0x68 => atomLx .global true
  | 0x69 => atomLx .scratch true
  | 0x6A => atomLx .cluster true
  | 0x6B => atomLx .global false
  | 0x6C => ringLx 0
  | 0x6D => ringLx 1
  | 0x6E => ringLx 2
  | 0x6F => ringLx 3
  | 0x76 => rkpushLx
  | m => sfuLx (sfuFn m x)

/-- The EX of an entry. -/
def Pend.ex (p : Pend) : Option Ex := if p.exw == 0 then none else some (Ex.ofWord p.exw)

/-! ### Entries of a frame (R336) -/

/-- The words that a field of `n` registers takes among the uniform values, and among a lane's words. -/
def capSize (n c : Nat) : Nat × Nat := if n == 0 || c == 116 then (0, 0) else if isK c then (n, 0) else (0, n)

/-- The captured operand that stands at an offset among the uniform values, or among the words of the lanes. -/
def capAt (sz : Nat × Nat) (uo lo : Nat) (uops : Nat → Word) (ops : Nat → Nat → Word) : Cap :=
  if sz.1 != 0 then .uni ((List.range sz.1).map (fun i => uops (uo + i)))
  else if sz.2 != 0 then .lane (lanes.map (fun l => (List.range sz.2).map (fun i => ops l (lo + i)))) else .none

/-- The registers that an entry's result fills, with the value that a performed entry captured (R336, R337). -/
def returnedWrites (x : Option Ex) (word : Word) (mask : Mask) (ops : Nat → Nat → Word) : List (Nat × Reg) :=
  let c := word.d7
  let one (i : Nat) : Nat × Reg :=
    if isK c || word.maj == 0x43 then (c + i, { form := .u (ops ((maskLanes mask).headD 0) (6 + i)) })
    else (c + i, { form := .m (lanes.map (fun l => ops l (6 + i))) })
  if c == 116 then [] else (List.range (wordInfo x word).d.regs).map one

/-- A replay entry from its descriptor words and the words of its lanes; `rank` gives the index registers of a handle. -/
def entryPend (d : Nat → Word) (ops : Nat → Nat → Word) (rank : Nat → Nat) (pc : Nat) : Pend :=
  let word := d 0
  let exw := d 1
  let x : Option Ex := if exw == 0 then none else some (Ex.ofWord exw)
  let i := wordInfo x word
  let mask := d 2
  let stat := (d 3).toNat
  let uops (j : Nat) : Word := d (4 + j)
  let sd := capSize (lxD i x word) word.d7
  let sa := capSize i.a.captured word.a7
  let last := capDLast word exw
  let ca := capAt sa sd.1 (if last then 0 else sd.2) uops ops
  let sb := if isTensorOp word then (0, rank (ca.at 0)) else capSize (lxB i x) word.b7
  let cd := capAt sd 0 (if last then sa.2 + sb.2 else 0) uops ops
  let cb := capAt sb (sd.1 + sa.1) (if last then sa.2 else sd.2 + sa.2) uops ops
  { key := 0, word := word, exw := exw, mask := mask, performed := bitAt stat 1, win := lanes.map (fun _ => bits stat 11 8),
    cd := cd, ca := ca, cb := cb, writes := if bitAt stat 1 then returnedWrites x word mask ops else [], waits := 0, pc := pc }

/-! ### Re-issue (R165, R337) -/

/-- Whether an instruction requires its source a to be uniform: LDU and WORK. -/
def needsUniA (maj : Nat) : Bool := maj == 0x60 || maj == 0x53

/-- Whether an instruction requires its source b to be uniform: LDU, RBAL and WORK. -/
def needsUniB (maj : Nat) : Bool := maj == 0x60 || maj == 0x45 || maj == 0x53

/-- A captured operand as a source: a value captured per lane is not uniform, but where the instruction requires it. -/
def Cap.src (c : Cap) (uni : Bool) (first : Nat) : Src :=
  match c with
  | .none => .uni 0
  | .uni _ => .uni (c.at 0)
  | .lane _ => if uni then .uni (c.at first) else .per (lanes.map c.at)

/-- The index registers of LDT and STT from their captured words. -/
def Cap.idx (c : Cap) : List Src :=
  match c with
  | .lane ws =>
    let r := ws.foldl (fun n l => max n l.length) 0
    (List.range r).map (fun j => .per (lanes.map (fun l => ((ws.getD l []).getD j 0).toNat)))
  | _ => []

/-- The input of an entry's LX function. -/
def Pend.input (p : Pend) (s : State) (w : Wave) (t : Team) (l : Launch) (key : Nat) : LxIn :=
  let x := p.ex
  let i := wordInfo x p.word
  let mask := p.mask &&& w.live
  let first := (maskLanes mask).headD 0
  let b : Src := if exMode1 x && i.immB then .uni (ofInt 32 (immOf x p.word.b7)) else p.cb.src (needsUniB p.word.maj) first
  { s := s, w := w, t := t, l := l, x := x, word := p.word, act := mask, pc := p.pc, key := key, d := p.cd.src false first,
    a := p.ca.src (needsUniA p.word.maj) first, b := if isTensorOp p.word then .uni 0 else b,
    idx := if isTensorOp p.word then p.cb.idx else [], marks := (0, 0) }

/-- Re-issue an entry: the state, the wave and the entry with the results still to be written; `none` where its word is no
LX instruction, or an item of it raises a trap. -/
def Pend.rerun (p : Pend) (s : State) (w : Wave) (t : Team) (l : Launch) : Option (State × Wave × Pend) :=
  let key := s.nextNum
  let s1 : State := { s with nextNum := key + 1 }
  if !isLx p.word.maj || (checkWord p.ex p.word).isSome then none
  else if p.performed then some (s1, w, { p with key := key })
  else match lxFn p.word.maj p.ex (p.input s1 w t l key) with
    | .done s2 w2 writes performed waits traps =>
      if traps.isEmpty then
        some (s2, w2, { p with key := key, mask := p.mask &&& w.live, writes := writes, performed := performed, waits := waits })
      else none
    | _ => none

/-- Re-inject entries, the oldest first, each with its window (R337). -/
def State.reinject (s : State) (w : Wave) (t : Team) (l : Launch) : List Pend → Option (State × Wave)
  | [] => some (s, w)
  | p :: ps =>
    match p.rerun s w t l with
    | none => none
    | some (s1, w1, q) =>
      let keep := !(q.writes.isEmpty && q.waits == 0)
      State.reinject s1 (if keep then { w1 with pend := w1.pend ++ [q] } else w1) t l ps

/-! ### The frame of a handler (R335) -/

/-- The key of the frame of the handler that a wave runs, for an access class. -/
def State.frameKey (s : State) (t : Team) (h : Handler) (a : Access) : Option Nat :=
  (s.globalKey t.node t.die (s.ccnOf t.ref.launch) t.segs t.world h.frame.toNat 0x4400 a).toOption

/-- Valid entries form a prefix (R336): their number. -/
def validCount (rq : Nat) : Nat := ((List.range 16).takeWhile (fun e => bitAt rq e)).length

/-- Entry `e` of the frame at a key. -/
def State.frameEntry (s : State) (k e : Nat) (rank : Nat → Nat) (pc : Nat) : Pend :=
  entryPend (fun j => BitVec.ofNat 32 (s.mem.word (k + 0x200 + 32 * e + 4 * j) 4))
    (fun l j => BitVec.ofNat 32 (s.mem.word (k + 0x400 + 1024 * e + 32 * l + 4 * j) 4)) rank pc

/-- The valid entries of the frame at a key. -/
def State.frameEntries (s : State) (k : Nat) (rank : Nat → Nat) : List Pend :=
  (List.range (validCount (s.mem.word (k + 0x28) 4))).map (fun e => s.frameEntry k e rank (s.mem.word (k + 0xC) 4))

/-- Remove entry `e` from the frame at a key: later entries move down (R337). -/
def State.dropEntry (s : State) (k e : Nat) : State :=
  let n := validCount (s.mem.word (k + 0x28) 4)
  let d := s.mem.readN (k + 0x200 + 32 * (e + 1)) (32 * (n - 1 - e))
  let o := s.mem.readN (k + 0x400 + 1024 * (e + 1)) (1024 * (n - 1 - e))
  let s1 := s.wrPhys (k + 0x200 + 32 * e) (d ++ toBytes 32 0) none
  let s2 := s1.wrPhys (k + 0x400 + 1024 * e) (o ++ toBytes 1024 0) none
  s2.wrPhys (k + 0x28) (toBytes 4 (2 ^ (n - 1) - 1)) none

/-! ### Leaving a handler (R262, R337) -/

/-- Resume a group from a frame: k22 and k23 restored, the group at the resume point, the entries re-injected. -/
def State.resumeGroup (s : State) (w : Wave) (t : Team) (l : Launch) (group : Mask) (k22 k23 : Word) (resume : Nat)
    (es : List Pend) : Option (State × Wave) :=
  s.reinject ({ w with k := setFile 0 (setFile 0 w.k 22 k22) 23 k23, pend := [], group := none }.setPc (group &&& w.live) resume) t l es

/-- Once the last item of a handler group has run TRET or ended, the core acts for the group (R262): it reads the frame,
restores k22 and k23, re-injects the entries, and every held item resumes. `g0` are the items that ran TRET last, which a
handler fault holds, `pc0` its address; with none, the fault holds the group. -/
def State.closeHandler (s : State) (r : WaveRef) (g0 : Mask) (pc0 : Nat) : State :=
  match s.wave? r, s.team? r.team, s.launch? r.team.launch with
  | some w, some t, some l =>
    match w.handler with
    | none => s
    | some h =>
      if h.running &&& w.live != 0 || w.live == 0 then s
      else
        let g := if g0 == 0 then h.group &&& w.live else g0
        let pc := if g0 == 0 then w.lowPc g else pc0
        let bad (es : List Pend) : State :=
          let w1 := { w with pend := es, handler := some { h with running := g ||| h.running } }
          (s.setWave w1).takeTrap r { cause := 0x11, detail := 0, group := g, pc := pc } 4
        match s.frameKey t h .read with
        | none => bad []
        | some k =>
          let es := s.frameEntries k (s.handleRank t l)
          let resume := s.mem.word (k + 0x10) 4
          if resume % 4 != 0 then bad es
          else
            match s.resumeGroup { w with handler := none } t l h.group (BitVec.ofNat 32 (s.mem.word k 4))
                (BitVec.ofNat 32 (s.mem.word (k + 4) 4)) resume es with
            | none => bad es
            | some (s1, w1) => s1.setWave w1
  | _, _, _ => s

end Sys2Proof.Machine
end

