-- ==== Sys2Proof/Machine/Preempt.lean ====
section
/-! DEFINITION. Pre-emption, save images and resumption of teams and contexts (R35, R165, R174, R285, R292, R343 to R349). -/
namespace Sys2Proof.Machine
open Sys2Proof

/-! ### Stopping (R343) -/

/-- An entry in the replay queue of a stopped wave (R165): a performed one keeps its value, any other is issued again. -/
def Pend.withdrawn (p : Pend) : Pend := { p with writes := if p.performed then p.writes else [], waits := 0 }

/-- A wave stopped at an instruction boundary: its transaction aborts with cause PREEMPT, its unfinished LX instructions
stand in its replay queue (R343). -/
def Wave.stop (w : Wave) : Wave :=
  let v := w.abortTx 5
  { v with pend := v.pend.map Pend.withdrawn, group := none, yielded := none, boosted := false }

/-- Whether a command that is stopped is performed again from its start (R228): COPY or COPYX as a load, and GATH. -/
def Cmd.again (c : Cmd) : Bool :=
  let mem := exTy (if c.exw == 0 then none else some (Ex.ofWord c.exw))
  c.word.maj == 0x78 && (mem == 2 || (decide (mem < 2) && !bitAt (c.ops.getD 0 0).toNat 16))

/-- A command of a stopped team (R228, R308): its pins are released, and a load into scratchpad is performed again from its start. -/
def Cmd.stop (c : Cmd) : Cmd :=
  { c with pins := [], state := match c.state with
      | .started n => if c.again then .queued else .started n
      | st => st }

/-- Whether a stream belongs to a team. -/
def streamOfTeam (q : StreamRef) (t : TeamRef) : Bool :=
  match q with
  | .team u _ => u == t
  | .ctx _ _ => false

/-- Whether every wave of a team may stop: none of its updates at other nodes is under way (R165). -/
def State.canStop (s : State) (t : TeamRef) : Bool := s.waves.all (fun w => w.ref.team != t || !s.updating w.ref)

/-- What a team's save image holds of MTDONE (R28, R343): the SEQ and COUNT of its core. -/
def State.mtOf (s : State) (t : Team) : Nat × Nat :=
  match t.core with
  | none => t.mt
  | some c => ((s.core? t.node t.die c).map (fun k => (k.mtSeq, k.mtCount))).getD (0, 0)

/-- Save a placed team (R343, R346): its waves and streams stop, its core is left, and it waits for placement. -/
def State.saveTeam (s : State) (t : TeamRef) : State :=
  let s1 := (s.waves.filter (fun w => w.ref.team == t)).foldl (fun s w => s.dropLoads w.ref) s
  let s2 : State :=
    { s1 with
      waves := s1.waves.map (fun w => if w.ref.team == t then w.stop else w)
      streams := s1.streams.map (fun q => if streamOfTeam q.ref t then { q with cmds := q.cmds.map Cmd.stop } else q) }
  s2.modTeam t (fun m => { m with core := none, saved := true, waitSince := s.time, mt := s.mtOf m })

/-- Write a save image's header (R345): a new slot of the node's save pool. -/
def State.newImage (s : State) (node reason rcb : Nat) : State × Nat :=
  let n := s.nextNum
  ({ s with nextNum := n + 1, saves := s.saves ++ [⟨n, node, none, some (reason, rcb, s.time), [], [], []⟩] }, n)

/-- Pre-empt one placed team (R279, R291, R292). A descheduled wave keeps its frame. -/
def State.preemptTeam (s : State) (reason : Nat) (t : TeamRef) : State :=
  match s.team? t, s.launch? t.launch with
  | some m, some l =>
    if m.saved || m.core.isNone || !s.canStop t then s
    else ((s.saveTeam t).newImage m.node reason l.region.ctxRcb).1
  | _, _ => s

/-- The launches of a context on a node. -/
def Launch.ofCtx (l : Launch) (node ccn : Nat) : Bool := l.node == node && l.ccn == ccn

/-- The placed teams of some launches on a node. -/
def State.placedOf (s : State) (p : Launch → Bool) : List Team :=
  s.teams.filter (fun t => t.core.isSome && (s.launch? t.ref.launch).any p)

/-- Whether a context may stop (R264, R165). -/
def State.ctxCanStop (s : State) (p : Launch → Bool) : Bool := (s.placedOf p).all (fun t => s.canStop t.ref)

/-- Save the placed teams of some launches, and stop the launches that are in their prelude (R285, R343). -/
def State.saveLaunches (s : State) (p : Launch → Bool) : State :=
  let s1 := (s.placedOf p).foldl (fun s t => s.saveTeam t.ref) s
  { s1 with launches := s1.launches.map (fun l => if p l then { l with held := true } else l) }

/-- Hold a context under a save image until the host resumes or destroys it (R263, R352). -/
def State.holdCtx (s : State) (node ccn save : Nat) : State :=
  { s with ctxs := s.ctxs.map (fun c => if c.node == node && c.ccn == ccn then { c with held := some save } else c) }

/-- Pre-empt a context as a whole (R343): the state and the number of its image. -/
def State.preemptCtx (s : State) (node ccn reason : Nat) : State × Nat :=
  let rcb := ((s.ctxs.find? (fun c => c.node == node && c.ccn == ccn)).map (·.rcb)).getD 0
  let q := (s.saveLaunches (fun l => l.ofCtx node ccn)).newImage node reason rcb
  (q.1.holdCtx node ccn q.2, q.2)

/-! ### Resuming (R344, R349) -/

/-- Resume one wave of a resumed team: a sleeper is woken once, and the replay entries are issued again before any of its
items issues (R165, R344). A re-issue that traps leaves the wave's entries out and is raised as a handler fault. A wave that the debugger has stopped stays as it is. -/
def State.resumeWave (s : State) (t : Team) (l : Launch) (r : WaveRef) : State :=
  match s.wave? r with
  | none => s
  | some w0 =>
    let w := w0.wakeUp
    if w0.status == .stopped then s
    else match s.reinject { w with pend := [] } t l w.pend with
    | some (s1, w1) => s1.setWave w1
    | none => (s.setWave w).takeTrap r { cause := 0x11, detail := 0, group := w.exec, pc := w.groupPc } 4

/-- Resume the waves of a team that has been placed again. -/
def State.resumeTeam (s : State) (tr : TeamRef) : State :=
  match s.team? tr, s.launch? tr.launch with
  | some t, some l => (s.waves.filter (fun w => w.ref.team == tr)).foldl (fun s w => s.resumeWave t l w.ref) s
  | _, _ => s

/-- Let a held context go on: its launches run and its teams wait for placement (R349). -/
def State.releaseCtx (s : State) (node ccn : Nat) : State :=
  { s with
    ctxs := s.ctxs.map (fun c => if c.node == node && c.ccn == ccn then { c with held := none } else c)
    launches := s.launches.map (fun l => if l.ofCtx node ccn then { l with held := false } else l) }

end Sys2Proof.Machine
end

