-- ==== Sys2Proof/Machine/Handler.lean ====
section
/-! DEFINITION. Ending items, the trap handler's instructions, CSRs and the domain clock (R28 to R31, R151, R258 to R263,
R265, R337). -/
namespace Sys2Proof.Machine
open Sys2Proof

/-! ### EXIT (R151) -/

/-- EXIT in a wave: its active items end. -/
def exitWave (e : Env) : Effect := e.ok { e.w with live := e.w.live &&& ~~~e.act }

/-- EXIT in a span: the items of the sub-span end (R282). -/
def exitSpan (e : SpanEnv) : SpanRes := .ok e.s e.k []

/-- What follows the end of items: the end of a handler group, of a wave, of a team, or of a launch. -/
def State.afterExit (s : State) (p : Party) (g : Mask) (pc : Nat) : State :=
  match p with
  | .none => s
  | .wave r => (s.closeHandler r g pc).endIfDone r
  | .launch n _ => s.checkLaunch n
  | .team t _ => s.checkRetire t

/-- EXIT (R151). -/
def execExit (x : Option Ex) (s : State) : Host.Outcome State Fault Refusal :=
  settle ((issue exitWave exitSpan x (wordOf (.exit x)) s).afterExit s.cur 0 0)

/-! ### TRET, REPLAY, RQDROP (R259, R262, R337) -/

/-- The trap of a handler-only instruction outside a handler (R259). -/
def notHandler : Effect := whole 1 5

/-- TRET in a wave: the items that run it are held at their resume point. -/
def tretWave (e : Env) : Effect :=
  match e.w.handler with
  | none => notHandler
  | some h =>
    let w := e.w.setPc (e.w.exec &&& ~~~e.act) ((e.w.groupPc + insLen e.x) % 2 ^ 32)
    .done e.s { w with handler := some { h with running := h.running &&& ~~~e.act }, group := none } [] true

/-- The items and the address of the instruction that a party issues. -/
def State.issuing (s : State) (x : Option Ex) : Mask × Nat :=
  match s.cur with
  | .wave r => match s.wave? r with
    | none => (0, 0)
    | some w => (w.active x, w.groupPc)
  | _ => (0, 0)

/-- TRET (R262, R337): the last item of the group to run it ends the handler. -/
def execTret (x : Option Ex) (s : State) : Host.Outcome State Fault Refusal :=
  let q := s.issuing x
  settle ((issue tretWave waveOnly x (wordOf (.tret x)) s).afterExit s.cur q.1 q.2)

/-- The frame of the handler that a wave runs, with the number of its valid entries. -/
def Env.frame (e : Env) (h : Handler) : Option (Nat × Nat) :=
  match e.s.frameKey e.t h .rmw with
  | none => none
  | some k => some (k, validCount (e.s.mem.word (k + 0x28) 4))

/-- REPLAY in a wave (R337): the entry is issued again, and its result is written before the next instruction issues. -/
def replayWave (e : Env) : Effect :=
  match e.w.handler with
  | none => notHandler
  | some h => match e.frame h with
    | none => whole 0x11 0
    | some (k, n) =>
      let i := e.word.b7
      if n ≤ i then badValue 4
      else
        match (e.s.frameEntry k i (e.s.handleRank e.t e.l) (e.s.mem.word (k + 0xC) 4)).rerun e.s e.w e.t e.l with
        | none => whole 0x11 0
        | some (s1, w1, q) =>
          let s2 := s1.dropEntry k i
          if q.waits == 0 then .done s2 (w1.landAll q e.ix e.s.time) [] false
          else .done s2 { w1 with pend := w1.pend ++ [{ q with win := lanes.map (fun _ => 0) }] } [] false

/-- REPLAY (R337). -/
def execReplay (x : Option Ex) (i : R7) (s : State) : Host.Outcome State Fault Refusal :=
  settle (issue replayWave waveOnly x (wordOf (.replay x i)) s)

/-- RQDROP in a wave (R262): one entry, or every entry. -/
def rqdropWave (e : Env) : Effect :=
  match e.w.handler with
  | none => notHandler
  | some h => match e.frame h with
    | none => whole 0x11 0
    | some (k, n) =>
      let i := e.word.b7
      if i == 127 then .done (e.s.wrPhys (k + 0x28) (toBytes 4 0) none) e.w [] false
      else if n ≤ i then badValue 4
      else .done (e.s.dropEntry k i) e.w [] false

/-- RQDROP (R262). -/
def execRqdrop (x : Option Ex) (i : R7) (s : State) : Host.Outcome State Fault Refusal :=
  settle (issue rqdropWave waveOnly x (wordOf (.rqdrop x i)) s)

/-! ### HALT and BKPT (R263) -/

/-- HALT in a wave: once every wave of the context can stop, the context is pre-empted and a halt record published. The
pre-emption itself follows the issue. -/
def haltWave (e : Env) : Effect := if e.s.ctxCanStop (fun l => l.ofCtx e.t.node e.l.ccn) then e.ok e.w else .wait

/-- The halt of the context of a wave's launch (R263). -/
def State.haltCtx (s : State) (r : WaveRef) (code : Nat) : State :=
  match s.wave? r, s.team? r.team, s.launch? r.team.launch with
  | some w, some t, some l =>
    let q := s.preemptCtx t.node l.ccn 3
    q.1.publish t.node l.region.fdom
      ⟨7, code, l.region.rcb, q.2, whereWord t.node t.die (t.core.getD 0) w.part w.slot 0, 0, 0, 0, 0, s.time⟩
  | _, _, _ => s

/-- Whether HALT takes effect for the wave that issues it: it has active items, and each of them stands behind the instruction. -/
def State.halts (s s' : State) (x : Option Ex) (r : WaveRef) : Bool :=
  match s.wave? r, s'.wave? r with
  | some w, some v => w.active x != 0 && w.tx.isNone && v.handler.isSome == w.handler.isSome &&
      (maskLanes (w.active x)).all (fun l => v.pcOf l == (w.groupPc + insLen x) % 2 ^ 32)
  | _, _ => false

/-- HALT (R263). -/
def execHalt (x : Option Ex) (i : R7) (s : State) : Host.Outcome State Fault Refusal :=
  let s1 := issue haltWave waveOnly x (wordOf (.halt x i)) s
  settle (match s.cur with
    | .wave r => if s.halts s1 x r then s1.haltCtx r i.toNat else s1
    | _ => s1)

/-- BKPT (R263): the breakpoint trap of each active item. -/
def execBkpt (x : Option Ex) (i : R7) (s : State) : Host.Outcome State Fault Refusal :=
  settle (issue (codeTrap 0x0E) waveOnly x (wordOf (.bkpt x i)) s)

/-! ### CSRs (R28 to R31, R260, R261) -/

/-- MTDONE of a team's core (R28, R237). -/
def State.mtdone (s : State) (t : Team) : Nat :=
  match s.core? t.node t.die (t.core.getD 0) with
  | none => 0
  | some c => c.mtSeq % 65536 * 65536 + c.mtCount

/-- A CSR of team or core scope (R272): KTH0 to KTH3 and MTDONE. -/
def State.teamCsr (s : State) (t : Team) (n : Nat) : Option Nat :=
  if n == 7 then some (s.mtdone t) else if 8 ≤ n && n ≤ 0xB then some (s.kthOf t.ref (n - 8)) else none

/-- A CSR as a result (R28, R260): of item scope M, of any other U. -/
def csrOut (s : State) (w : Wave) (t : Team) (n : Nat) : Out :=
  match n with
  | 0 => .per (w.trapCause.map BitVec.toNat)
  | 1 => .per (w.trapPc.map BitVec.toNat)
  | 2 => .uni w.exec.toNat
  | 3 => .uni (b2n w.ord)
  | 4 => .uni (bndWord w)
  | 5 => .uni (wbqWord w)
  | 6 => .uni w.txstat
  | _ => match s.teamCsr t n with
    | some v => .uni v
    | none => if n ≤ 0xE then .uni (flgc w.flags (n - 0xC)) else .uni (formtab w (n - 0x10))

/-- CSRR in a wave. -/
def csrrWave (e : Env) : Effect := e.ok (e.put (wordInfo e.x e.word) 1 (csrOut e.s e.w e.t e.word.b7) e.act)

/-- CSRR in a span: a CSR of team or core scope, in a team span (R272). -/
def csrrSpan (e : SpanEnv) : SpanRes :=
  let i := wordInfo e.x e.word
  match e.t.bind (fun t => e.s.teamCsr t e.word.b7) with
  | none => .mat
  | some v =>
    if readsWave i e.x e.word true || !windowOk i e.x e.word e.view then .mat
    else
      let r := e.put 1 (.uni v)
      .ok e.s r.1 [e.step r.2]

/-- CSRR (R260). -/
def execCsrr (x : Option Ex) (d i : R7) (s : State) : Host.Outcome State Fault Refusal :=
  settle (issue csrrWave csrrSpan x (wordOf (.csrr x d i)) s)

/-- A CSRW of a CSR that only reads, or of no CSR: the checks of its word raise its trap (R28, R261). -/
def execCsrw (x : Option Ex) (a i : R7) (s : State) : Host.Outcome State Fault Refusal :=
  settle (issue nopWave waveOnly x (wordOf (.csrw x a i)) s)

/-- CSRW of SSTAT in a wave (R28, R261): ORD receives bit 0, and writes of the other bits are ignored. -/
def sstatWave (e : Env) : Effect :=
  let a := e.src (wordInfo e.x e.word) .a 1 32
  if !a.isUni then badValue 2 else e.ok { e.w with ord := bitAt (a.at e.ix 0) 0 }

/-- CSRW_SSTAT (R28). -/
def execCsrwSstat (x : Option Ex) (a : R7) (s : State) : Host.Outcome State Fault Refusal :=
  settle (issue sstatWave waveOnly x (wordOf (.csrwSstat x a)) s)

/-- CSRW of BND in a wave (R29). -/
def bndWave (e : Env) : Effect :=
  let a := e.src (wordInfo e.x e.word) .a 1 32
  let v := a.at e.ix 0
  if !a.isUni then badValue 2
  else if 2 ^ 16 ≤ v || v / 256 < v % 256 || 88 < v / 256 then badValue 8
  else e.ok { e.w with bndLo := v % 256, bndHi := v / 256 }

/-- CSRW_BND (R29). -/
def execCsrwBnd (x : Option Ex) (a : R7) (s : State) : Host.Outcome State Fault Refusal :=
  settle (issue bndWave waveOnly x (wordOf (.csrwBnd x a)) s)

/-! ### TIME (R265) -/

/-- TIME in a wave. -/
def timeWave (e : Env) : Effect := e.ok (e.put (wordInfo e.x e.word) 2 (.uni (e.s.time % 2 ^ 64)) e.act)

/-- TIME in a span (R272). -/
def timeSpan (e : SpanEnv) : SpanRes :=
  let i := wordInfo e.x e.word
  if readsWave i e.x e.word e.t.isSome || !windowOk i e.x e.word e.view then .mat
  else
    let r := e.put 2 (.uni (e.s.time % 2 ^ 64))
    .ok e.s r.1 [e.step r.2]

/-- TIME (R265). -/
def execTime (x : Option Ex) (d : R7) (s : State) : Host.Outcome State Fault Refusal :=
  settle (issue timeWave timeSpan x (wordOf (.time x d)) s)

end Sys2Proof.Machine
end

