-- ==== Sys2Proof/Machine/Secure.lean ====
section
/-! DEFINITION. Secure services (R264, R372 to R377, R380, R383) and measurement slots. -/
namespace Sys2Proof.Machine
open Sys2Proof

/-- The status of a call that is done (R376). -/
def swcDone : Nat := 0
/-- An unknown service. -/
def swcUnknown : Nat := 0xFFFFFFFF
/-- The caller's world is not permitted. -/
def swcWorld : Nat := 0xFFFFFFFE
/-- A bad argument. -/
def swcBad : Nat := 0xFFFFFFFD

/-- What a service answers: its status, and its results for k(a+1) onward when the status is 0. -/
structure SwcReply where
  status : Nat
  results : List Nat

/-- A failed call. -/
def swcFail (st : Nat) : SwcReply := ⟨st, []⟩

/-- Write a reply to k(a) onward (R376). -/
def Wave.swcReply (w : Wave) (a : Nat) (r : SwcReply) : Wave :=
  let vs := r.status :: (if r.status == 0 then r.results else [])
  { w with k := (vs.zip (List.range 4)).foldl (fun k p => setFile 0 k (a - 88 + p.2) (BitVec.ofNat 32 p.1)) w.k }

/-- A service as an instruction of a wave: the arguments of the calling wave, then its reply. -/
def swcWave (f : State → Team → Nat → Nat → Nat → State × SwcReply) (e : Env) : Effect :=
  let r := f e.s e.t (e.kreg (e.word.a7 + 1)) (e.kreg (e.word.a7 + 2)) (e.kreg (e.word.a7 + 3))
  .done r.1 (e.w.swcReply e.word.a7 r.2) [] false

/-- Run a service. -/
def runSwc (f : State → Team → Nat → Nat → Nat → State × SwcReply) (x : Option Ex) (word : Word) (s : State) : State :=
  issue (swcWave f) waveOnly x word s

/-- VERSION: the firmware's security version, and the highest service number. -/
def svcVersion (s : State) (t : Team) (_ _ _ : Nat) : State × SwcReply :=
  (s, ⟨swcDone, [((s.node? t.node).map (·.svn)).getD 0, 7]⟩)

/-- VERSION (R376). -/
def execVersion (x : Option Ex) (a : R7) (s : State) : Host.Outcome State Fault Refusal :=
  settle (runSwc svcVersion x (wordOf (.version x a)) s)

/-- The regions of a node (R372). -/
def regionCount : Nat := 393216

/-- Whether a region of a node is secure. -/
def State.regionSecure (s : State) (node r : Nat) : Bool := (s.node? node).any (fun d => d.secure.contains r)

/-- The watched lines, and the lines of open transactions, that lie in a key range. -/
def State.watched (s : State) (key n : Nat) : List Loc :=
  (s.waves.flatMap (fun w => w.wake ++ (match w.tx with
    | none => []
    | some t => t.rlines ++ t.wlines))).filter (fun l => match l with
      | .glob a => decide (key ≤ a) && decide (a < key + n)
      | .scr _ _ => false)

/-- Change a region's world (R377): the lines of the region are invalidated, so that an open transaction that holds one aborts and
commits nothing under the new world, and a region that becomes non-secure is zeroed. -/
def State.setRegion (s : State) (node r : Nat) (secure : Bool) : State :=
  let key := physKey node (r * 2 ^ 21)
  let s0 : State := if secure then s else (s.wipe key (2 ^ 21)).unpoison key (2 ^ 21)
  let s1 := s0.touchAll (s.watched key (2 ^ 21)) none
  s1.modNode node (fun d => { d with secure := if secure then r :: d.secure else d.secure.filter (fun q => q != r) })

/-- REGION_SET: k(a+1) region, k(a+2) world. -/
def svcRegionSet (s : State) (t : Team) (r w _ : Nat) : State × SwcReply :=
  if !t.world then (s, swcFail swcWorld)
  else if regionCount ≤ r || 1 < w then (s, swcFail swcBad)
  else if s.regionSecure t.node r == (w == 1) then (s, ⟨swcDone, []⟩)
  else (s.setRegion t.node r (w == 1), ⟨swcDone, []⟩)

/-- REGION_SET (R376, R377). -/
def execRegionSet (x : Option Ex) (a : R7) (s : State) : Host.Outcome State Fault Refusal :=
  settle (runSwc svcRegionSet x (wordOf (.regionSet x a)) s)

/-- REGION_GET: k(a+1) region. -/
def svcRegionGet (s : State) (t : Team) (r _ _ : Nat) : State × SwcReply :=
  if regionCount ≤ r then (s, swcFail swcBad) else (s, ⟨swcDone, [b2n (s.regionSecure t.node r)]⟩)

/-- REGION_GET (R376). -/
def execRegionGet (x : Option Ex) (a : R7) (s : State) : Host.Outcome State Fault Refusal :=
  settle (runSwc svcRegionGet x (wordOf (.regionGet x a)) s)

/-- SFDOM_SET: k(a+1) fault domain. -/
def svcSfdomSet (s : State) (t : Team) (f _ _ : Nat) : State × SwcReply :=
  if !t.world then (s, swcFail swcWorld)
  else if 255 < f then (s, swcFail swcBad)
  else (s.modNode t.node (fun d => { d with sfdom := some f }), ⟨swcDone, []⟩)

/-- SFDOM_SET (R374, R376). -/
def execSfdomSet (x : Option Ex) (a : R7) (s : State) : Host.Outcome State Fault Refusal :=
  settle (runSwc svcSfdomSet x (wordOf (.sfdomSet x a)) s)

/-- A measurement slot of a node, as a number of 64 little-endian bytes. -/
def State.slotOf (s : State) (node m : Nat) : Nat := ((s.node? node).map (fun d => d.ms.getD m 0)).getD 0

/-- MEASURE: k(a+1) slot, k(a+2) chunk. -/
def svcMeasure (s : State) (t : Team) (m c _ : Nat) : State × SwcReply :=
  if 7 < m || 5 < c then (s, swcFail swcBad)
  else
    let v := s.slotOf t.node m / 2 ^ (96 * c)
    (s, ⟨swcDone, [v % 2 ^ 32, v / 2 ^ 32 % 2 ^ 32, v / 2 ^ 64 % 2 ^ 32]⟩)

/-- MEASURE (R376). -/
def execMeasure (x : Option Ex) (a : R7) (s : State) : Host.Outcome State Fault Refusal :=
  settle (runSwc svcMeasure x (wordOf (.measure x a)) s)

/-- Extend a measurement slot with a digest (R380). -/
def Node.extend (d : Node) (m : Nat) (digest : List Byte) : Node :=
  { d with ms := setAt d.ms m (ofBytes (sha512 (toBytes 64 (d.ms.getD m 0) ++ digest))) }

/-- EXTEND: k(a+1) slot 4 to 7, k(a+2) and k(a+3) the address of the digest. -/
def svcExtend (s : State) (t : Team) (m lo hi : Nat) : State × SwcReply :=
  if !t.world then (s, swcFail swcWorld)
  else if m < 4 || 7 < m then (s, swcFail swcBad)
  else match s.globalKey t.node t.die (s.ccnOf t.ref.launch) t.segs t.world (lo + 2 ^ 32 * hi) 64 .read with
    | .error _ => (s, swcFail swcBad)
    | .ok k => ((s.guardPhys k 64).modNode t.node (fun d => d.extend m (s.mem.readN k 64)), ⟨swcDone, []⟩)

/-- EXTEND (R380). -/
def execExtend (x : Option Ex) (a : R7) (s : State) : Host.Outcome State Fault Refusal :=
  settle (runSwc svcExtend x (wordOf (.extend x a)) s)

/-- RANDOM: three words of the generator (log 3). -/
def svcRandom (s : State) (_ : Team) (_ _ _ : Nat) : State × SwcReply :=
  let w (i : Nat) : Nat := (Config.randomWord (s.freeCtr + i)).toNat
  ({ s with freeCtr := s.freeCtr + 3 }, ⟨swcDone, [w 0, w 1, w 2]⟩)

/-- RANDOM (R376). -/
def execRandom (x : Option Ex) (a : R7) (s : State) : Host.Outcome State Fault Refusal :=
  settle (runSwc svcRandom x (wordOf (.random x a)) s)

/-- Blocks of each kind (R383). -/
def blockCount (kind : Nat) : Nat :=
  match kind with
  | 0 => 160 | 1 => 64 | 2 => 3 | 3 => 9 | 4 => 3 | 5 => 1 | 6 => 1 | 7 => 1 | _ => 0

/-- POWER_READ: k(a+1) block number; what the counters hold is the block's own (log 3). -/
def svcPower (s : State) (_ : Team) (b _ _ : Nat) : State × SwcReply :=
  if 2 ^ 16 ≤ b || blockCount (b / 2 ^ 12) ≤ b % 2 ^ 10 then (s, swcFail swcBad)
  else
    let v := (Config.powerReading b s.freeCtr).toNat
    ({ s with freeCtr := s.freeCtr + 1 }, ⟨swcDone, [v % 2 ^ 32, v / 2 ^ 32 % 2 ^ 32, v / 2 ^ 64]⟩)

/-- POWER_READ (R383). -/
def execPowerRead (x : Option Ex) (a : R7) (s : State) : Host.Outcome State Fault Refusal :=
  settle (runSwc svcPower x (wordOf (.powerRead x a)) s)

/-- An unknown service (R264). -/
def execSwcUnknownService (x : Option Ex) (a n : R7) (s : State) : Host.Outcome State Fault Refusal :=
  settle (runSwc (fun s _ _ _ _ => (s, swcFail swcUnknown)) x (wordOf (.swcUnknownService x a n)) s)

end Sys2Proof.Machine
end

