-- ==== Sys2Proof/Machine/EngineIssue.lean ====
section
/-! DEFINITION. Issuing engine commands: queues and streams, descriptors, completion operands and their checks (R74 to R78,
R217 to R222, R225, R229), WAITF and QFENCE (R206, R207). -/
namespace Sys2Proof.Machine
open Sys2Proof

/-! ### Queues and streams (R217 to R219) -/

/-- The queue of a command (R217). -/
def cmdQueue (maj mem : Nat) : Queue :=
  match maj with
  | 0x78 => .copy
  | 0x79 => .matrix
  | 0x7A => .attn
  | _ => if mem == 1 || mem == 2 then .axis else .disp

/-- The depth of a queue (R217). -/
def queueDepth : Queue → Nat
  | .copy => 32 | .attn => 8 | .matrix => 16 | .axis => 64 | .disp => 16

/-- The number of a queue, in the order of R217. -/
def queueIx : Queue → Nat
  | .copy => 0 | .attn => 1 | .matrix => 2 | .axis => 3 | .disp => 4

/-- The queues in the order of QFENCE's bits (R207). -/
def queues : List Queue := [.copy, .attn, .matrix, .axis, .disp]

/-- The stream of a team in a queue; the axis edit stream is its context's (R219). -/
def streamRef (t : TeamRef) (node ccn : Nat) (q : Queue) : StreamRef :=
  if q == .axis then .ctx node ccn else .team t q

/-- A stream; one that has accepted nothing is empty (R218). -/
def State.streamOf (s : State) (r : StreamRef) : Stream := (s.stream? r).getD ⟨r, 0, [], false, none, []⟩

/-- Set a stream. -/
def State.putStream (s : State) (q : Stream) : State :=
  if s.streams.any (fun p => p.ref == q.ref) then s.setStream q else { s with streams := s.streams ++ [q] }

/-- Whether a stream has a free entry (R77). -/
def State.streamRoom (s : State) (r : StreamRef) (q : Queue) : Bool := decide ((s.streamOf r).cmds.length < queueDepth q)

/-! ### Slabs (R46, R230) -/

/-- Side-band bytes of a row of a canonical type (R46). -/
def sideBytes (c : Nat) : Nat := if c == 0 then 32 else if c == 1 || c == 2 then 8 else 0

/-- Elements of a row of a sub-tile of a canonical type (R46). -/
def rowElems (c : Nat) : Nat :=
  match c with
  | 0 => 256 | 1 => 128 | 2 => 128 | 3 => 64 | 4 => 64 | _ => 128

/-- Bytes of a sub-tile of R rows (R230). -/
def tileBytes (c r : Nat) : Nat := 128 * (r + ceilDiv (sideBytes c * r) 128)

/-- The canonical type of a storage format (R232). -/
def fmtCanon (f : Nat) : Nat := [3, 4, 5, 0, 1, 2, 0, 1, 2, 5, 5].getD f 5

/-- Bytes of a storage unit (R232). -/
def unitBytes (f : Nat) : Nat := [2, 2, 1, 10, 17, 17, 17, 33, 33, 17, 17].getD f 0

/-- Storage units per slice (R232). -/
def unitsPerSlice (f : Nat) : Nat := [64, 64, 128, 16, 8, 8, 8, 4, 4, 4, 4].getD f 0

/-! ### Checks of a descriptor (R221) -/

/-- A range that a descriptor names: of the ordinary scratchpad, or of accumulator words. -/
inductive CmdRange
  | scr (off n : Nat)
  | acm (word n : Nat)
  deriving DecidableEq, Repr

/-- Whether a range lies where R221 asks. -/
def CmdRange.lies (r : CmdRange) (k : Kernel) : Bool :=
  match r with
  | .scr o n => decide (o + n ≤ k.scr)
  | .acm w n => decide (w + n ≤ k.acm)

/-- The DETAIL of the scratch-bounds trap of a range. -/
def CmdRange.detail : CmdRange → Nat
  | .scr _ _ => 0
  | .acm _ _ => 1

/-- A descriptor's checks: whether its fields are within their limits, and the ranges it names. -/
structure DescCheck where
  ok : Bool
  ranges : List CmdRange
  deriving DecidableEq, Repr

/-- A slab as a range, with the alignment of its base. -/
def slabRange (off c r n : Nat) : CmdRange := .scr off (n * tileBytes c r)

/-- Whether the types of a product agree (R236). -/
def typesOk (a b : Nat) : Bool := (decide (a ≤ 5) && a == b) || (a == 1 && b == 2) || (a == 2 && b == 1)

/-- Whether n lies from lo to hi. -/
def within (n lo hi : Nat) : Bool := decide (lo ≤ n) && decide (n ≤ hi)

/-- COPY and COPYX (R231 to R234). -/
def copyCheck (d : Nat → Nat) : DescCheck :=
  let f := bits (d 0) 26 23
  let col := bits (d 0) 22 20
  let row := bits (d 0) 19 17
  let n := bits (d 2) 15 8
  let r := bits (d 2) 7 0
  ⟨bits (d 0) 31 27 == 0 && decide (f ≤ if bitAt (d 0) 16 then 5 else 10) && decide (col ≤ 5) && decide (row ≤ 5) && row != col &&
     d 1 % 128 == 0 && bits (d 2) 31 16 == 0 && within n 1 64 && within r 1 128,
   [slabRange (d 1) (fmtCanon f) r n]⟩

/-- The tile row of each active lane (R234): the lane, or its rank under `.pack`. -/
def tileRow (pack : Bool) (act : Mask) (l : Nat) : Nat :=
  if pack then ((maskLanes act).filter (fun j => decide (j < l))).length else l

/-- Rows of a tile that the active lanes fill. -/
def tileRows (pack : Bool) (act : Mask) : Nat := (maskLanes act).foldl (fun n l => max n (tileRow pack act l + 1)) 0

/-- COPYX: every active lane's row lies in the tile (R234). -/
def copyxCheck (d : Nat → Nat) (pack : Bool) (act : Mask) : DescCheck :=
  let c := copyCheck d
  ⟨c.ok && decide (tileRows pack act ≤ bits (d 2) 7 0), c.ranges⟩

/-- GATH and SCATX (R235). -/
def gathCheck (d : Nat → Nat) (scatter pack : Bool) (act : Mask) : DescCheck :=
  let rb := bits (d 4) 7 0
  ⟨d 2 % 128 == 0 && d 3 % 128 == 0 && bits (d 4) 31 16 == 0 && decide (bits (d 4) 15 14 ≤ if scatter then 2 else 0) &&
     !bitAt (d 4) 13 && within (bits (d 4) 12 8) 8 31 && within rb 1 32,
   [.scr (d 3) (tileRows pack act * 128 * rb)]⟩

/-- M of a matrix configuration (R236). -/
def cfgM (c : Nat) : Nat := 8 * (bits c 9 6 + 1)
/-- N of a matrix configuration. -/
def cfgN (c : Nat) : Nat := 8 * (bits c 13 10 + 1)
/-- KS of a matrix configuration. -/
def cfgKs (c : Nat) : Nat := bits c 21 14

/-- The common checks of MMA and MMAS, with LIST and IBASE in two words (R236, R239). -/
def matrixCheck (d : Nat → Nat) (rank : Bool) (list ibase : Nat) : Bool × List CmdRange :=
  let c := d 0
  (bits c 31 23 == 0 && within (cfgKs c) 1 255 && typesOk (bits c 2 0) (bits c 5 3) && d 2 % 128 == 0 &&
     (if rank then list % 4 == 0 && decide (ibase + cfgN c * (cfgM c - 1) + cfgN c - 1 < 2 ^ 32) else list == 0 && ibase == 0),
   [slabRange (d 2) (bits c 5 3) (cfgN c) (cfgKs c), .acm (d 3) (cfgM c * cfgN c)] ++ (if rank then [.acm list 4] else []))

/-- MMA (R236, R239, R240). -/
def mmaCheck (d : Nat → Nat) (rank virt : Bool) : DescCheck :=
  let m := matrixCheck d rank (d 4) (d 5)
  let a : CmdRange := if virt then .scr (d 1) 32 else slabRange (d 1) (bits (d 0) 2 0) (cfgM (d 0)) (cfgKs (d 0))
  ⟨m.1 && d 1 % (if virt then 16 else 128) == 0, a :: m.2⟩

/-- Bytes of an operand bitmap (R242). -/
def bitmapBytes (c r ks : Nat) : Nat := ks * r * (rowElems c / 8)

/-- MMAS (R236, R242). -/
def mmasCheck (d : Nat → Nat) (rank : Bool) : DescCheck :=
  let m := matrixCheck d rank (d 6) (d 7)
  let c := d 0
  ⟨m.1 && d 1 % 128 == 0,
   slabRange (d 1) (bits c 2 0) (cfgM c) (cfgKs c) :: m.2 ++
     [.scr (d 4) (bitmapBytes (bits c 2 0) (cfgM c) (cfgKs c)), .scr (d 5) (bitmapBytes (bits c 5 3) (cfgN c) (cfgKs c))]⟩

/-- MMAB (R241). -/
def mmabCheck (d : Nat → Nat) : DescCheck :=
  ⟨typesOk (bits (d 0) 2 0) (bits (d 0) 5 3) && within (bits (d 0) 10 6) 1 16 && bits (d 0) 13 11 == 0 && bits (d 0) 31 22 == 0 &&
     within (bits (d 0) 21 14) 1 255 && d 1 % 16 == 0, [.scr (d 1) (16 * bits (d 0) 10 6)]⟩

/-- ATTN (R243, R244). -/
def attnCheck (d : Nat → Nat) (sin : Bool) : DescCheck :=
  let win := bits (d 1) 31 18
  let mask := bits (d 1) 17 16
  let dvs := bits (d 1) 15 13
  let dks := bits (d 1) 12 10
  let qt := bits (d 1) 9 7
  let rows := bits (d 1) 6 0
  ⟨(if mask == 2 then decide (1 ≤ win) else win == 0) && mask != 3 && within dvs 1 4 && within qt 1 3 &&
     within dks 1 (if qt == 3 then 4 else 2) && within rows 1 64 && within (d 4) (d 3) (d 3 + 16384) && d 0 % 128 == 0 && (!sin || qt == 3),
   [slabRange (d 0) qt rows dks] ++ (if mask == 0 then [] else [.scr (d 6) (4 * rows)]) ++ [.acm (d 7) (24 + rows * (2 + 64 * dvs))]⟩

/-- ATTNFIN (R251). -/
def attnfinCheck (d : Nat → Nat) : DescCheck :=
  let rows := bits (d 1) 6 0
  let dvs := bits (d 1) 9 7
  let ot := bits (d 1) 13 11
  let dest := bitAt (d 1) 10
  ⟨within rows 1 64 && within dvs 1 4 && bits (d 1) 31 14 == 0 &&
     (if dest then (ot == 3 || ot == 4) && d 2 % 128 == 0 else ot == 0 && d 2 == 0),
   (if dest then [slabRange (d 2) ot rows dvs] else []) ++ [.acm (d 0) (24 + rows * (2 + 64 * dvs))]⟩

/-- Words of a Sinter state (R253). -/
def sinWords (dv : Nat) : Nat := 64 * dv + 65

/-- FOLD (R253). -/
def foldCheck (d : Nat → Nat) : DescCheck :=
  let n := bits (d 2) 6 0
  let dks := bits (d 2) 9 7
  let dvs := bits (d 2) 12 10
  ⟨within n 1 64 && within dks 1 4 && within dvs 1 4 && bits (d 2) 31 13 == 0 && d 0 % 128 == 0 && d 1 % 128 == 0 && d 3 % 128 == 0,
   [slabRange (d 0) 3 n dks, slabRange (d 1) 3 n dvs, slabRange (d 3) 3 64 dks, .acm (d 4) (sinWords (64 * dvs))]⟩

/-- DISP (R254); its lanes are checked per item. -/
def dispCheck (d : Nat → Nat) : DescCheck :=
  ⟨bits (d 0) 31 4 == 0 && d 1 % 64 == 0 && within (d 1) 64 4096 && bits (d 2) 31 16 == 0, []⟩

/-- AXEDIT (R255). -/
def axeditCheck (d : Nat → Nat) : DescCheck :=
  let op := bits (d 0) 22 20
  let target := d 3 == 0 && d 4 == 0
  ⟨bits (d 0) 31 23 == 0 && !bitAt (d 0) 19 && decide (bits (d 0) 18 16 ≤ 5) && decide (op ≤ 4) && bits (d 4) 31 19 == 0 &&
     (op == 0 || op == 3 || target) && (op == 0 || op == 1 || op == 3 || d 2 == 0), []⟩

/-- The checks of a command's descriptor (R221), by its word's major, member and modifiers. -/
def descCheck (maj mem fx : Nat) (d : Nat → Nat) (act : Mask) : DescCheck :=
  match maj, mem with
  | 0x78, 0 => copyCheck d
  | 0x78, 1 => copyxCheck d (bitAt fx 0) act
  | 0x78, m => gathCheck d (m == 3) (bitAt fx 0) act
  | 0x79, 0 => mmaCheck d (bitAt fx 0) (bitAt fx 1)
  | 0x79, 1 => mmabCheck d
  | 0x79, _ => mmasCheck d (bitAt fx 0)
  | 0x7A, 0 => attnCheck d (bitAt fx 1)
  | 0x7A, 1 => attnfinCheck d
  | 0x7A, _ => foldCheck d
  | _, 0 => dispCheck d
  | _, 1 => axeditCheck d
  | _, 2 => ⟨d 0 == 0, []⟩
  | _, _ => ⟨true, []⟩

/-! ### Completion operands (R75, R76) -/

/-- How a command signals its completion, from fl4 and the words behind its descriptor. -/
def doneOf (fl : Nat) (c : Nat → Nat) : Done :=
  let v (i : Nat) : Word := BitVec.ofNat 32 (c i)
  match fl with
  | 12 => .ws (c 0) (v 1)
  | 13 => .wsa (c 0) (v 1)
  | 14 => .wc (v 0) (v 1)
  | 15 => .wg (BitVec.ofNat 64 (c 0 + 2 ^ 32 * c 1)) (v 2)
  | n => .flag n

/-- The address of a completion word. -/
def Done.addr : Done → Option Nat
  | .ws o _ => some o
  | .wsa o _ => some o
  | .wc a _ => some a.toNat
  | .wg a _ => some a.toNat
  | _ => Option.none

/-- The trap of a completion word's address at issue (R76): cause and DETAIL. -/
def State.doneTrap (s : State) (l : Launch) (t : Team) (d : Done) : Option (Nat × Nat) :=
  let of (r : Landing) : Option (Nat × Nat) := match r with
    | .trap 0 _ => none
    | .trap c e => some (c, e)
    | _ => none
  match d with
  | .ws o _ => of (s.land l t .scratch o 4 .write true)
  | .wsa o _ => of (s.land l t .scratch o 4 .rmw false)
  | .wc a _ => of (s.land l t .cluster a.toNat 4 .write true)
  | .wg a _ => of (s.land l t .global a.toNat 4 .write false)
  | _ => none

/-! ### Issue (R77, R220 to R222, R229) -/

/-- The lanes of a vector register, for the b operand of a command (R229). -/
def Env.laneWords (e : Env) (c : Nat) : List Word :=
  if c == 116 then [] else lanes.map (fun l => BitVec.ofNat 32 ((e.w.view.src e.ix 1 c).at e.ix l))

/-- The trap of a marked lane of b, or of b + 1 (R340, R373). -/
def Env.laneTrap (e : Env) (pair : Bool) (l : Nat) : Option ItemTrap :=
  let c := e.word.b7
  if c == 116 then none else markTrap (e.w.view.marks (if pair then 2 else 1) c) l l

/-- Items trap and nothing is queued: the other active items stay at the command, which they issue again (R221). -/
def Env.refuse (e : Env) (ts : List ItemTrap) : Effect :=
  .done e.s (e.w.setPc (e.w.exec &&& ~~~e.act) ((e.w.groupPc + insLen e.x) % 2 ^ 32)) ts true

/-- Whether a command reads lanes 0 to 5 of b for the whole wave: COPY, ATTN (R231, R243). -/
def readsOrigin (maj mem : Nat) : Bool := (maj == 0x78 || maj == 0x7A) && mem == 0

/-- Whether a command takes one index per active lane: COPYX, GATH, SCATX, DISP. -/
def readsLanes (maj mem : Nat) : Bool := (maj == 0x78 && mem != 0) || (maj == 0x7B && mem == 0)

/-- Whether the b operand is a pair: COPYX and DISP. -/
def readsPair (maj mem : Nat) : Bool := (maj == 0x78 && mem == 1) || (maj == 0x7B && mem == 0)

/-- The item traps of a command's lanes: marks, and DISP's payload ranges (R254). -/
def Env.cmdLaneTraps (e : Env) (d : Nat → Nat) : List ItemTrap :=
  let maj := e.word.maj
  let mem := exTy e.x
  let marks := if readsLanes maj mem then (maskLanes e.act).filterMap (e.laneTrap (readsPair maj mem)) else []
  if !marks.isEmpty || !(maj == 0x7B && mem == 0) then marks
  else
    let offs := e.laneWords (e.word.b7 + 1)
    (maskLanes e.act).filterMap (fun l =>
      let o := (offs.getD l 0).toNat
      if o % 64 != 0 then some ⟨l, 2, 8, o⟩ else if e.l.kernel.scr < o + d 1 then some ⟨l, 4, 0, o⟩ else none)

/-- The mark of an origin lane, which traps the whole wave. -/
def Env.originTrap (e : Env) : Option ItemTrap :=
  let maj := e.word.maj
  let mem := exTy e.x
  if readsOrigin maj mem then [0, 1, 2, 3, 4, 5].findSome? (e.laneTrap false)
  else if maj == 0x78 && mem == 1 then [0, 1, 2, 3, 4, 5].findSome? (e.laneTrap true)
  else none

/-- The predecessor queue that AFTER names (R220). -/
def afterQueue (fx : Nat) : Option Queue :=
  match fx / 4 with
  | 1 => some .copy
  | 2 => some .attn
  | 3 => some .matrix
  | _ => none

/-- The latest command that a wave had issued to a queue and that has not completed (R225). -/
def State.lastOf (s : State) (w : WaveRef) (q : Queue) : Option (Queue × Nat) :=
  let cs := (s.streamOf (.team w.team q)).cmds.filter (fun c => c.wave == some w && c.join.isNone)
  cs.getLast?.map (fun c => (q, c.seq))

/-- Accept a command (R77, R218): it takes the next number of its stream, and a flag it names counts it. -/
def Env.accept (e : Env) (r : StreamRef) (ops : List Word) (done : Done) : Effect :=
  let q := e.s.streamOf r
  let seq := q.seq + 1
  let pred := (afterQueue (exFx e.x)).bind (e.s.lastOf e.w.ref)
  let c : Cmd :=
    { seq := seq, wave := some e.w.ref, word := e.word, exw := (e.x.map Ex.word).getD 0, ops := ops, mask := e.act,
      b0 := e.laneWords e.word.b7, b1 := if readsPair e.word.maj (exTy e.x) then e.laneWords (e.word.b7 + 1) else [],
      done := done, state := if pred.isSome then .held else .queued, pred := pred, progress := 0, pins := [], join := none }
  let w1 : Wave := match done with
    | .flag n => { e.w with flags := updFile 0 e.w.flags n (· + 1) }
    | _ => e.w
  let w2 : Wave := if e.word.d7 == 116 then w1 else { w1 with k := setFile 0 w1.k (e.word.d7 - 88) (BitVec.ofNat 32 seq) }
  .done (e.s.putStream { q with seq := seq, cmds := q.cmds ++ [c] }) w2 [] false

/-- Issue of an engine command in a wave. It waits for the wave's accesses under way to other nodes whatever the scope of R222: at
their targets they are performed for every party at once. -/
def cxWave (e : Env) : Effect :=
  let maj := e.word.maj
  let mem := exTy e.x
  let fl := e.word.fn
  let q := cmdQueue maj mem
  let r := streamRef e.t.ref e.t.node e.l.ccn q
  let n := descLen maj mem
  let d (i : Nat) : Nat := e.kreg (e.word.a7 + i)
  let done := doneOf fl (fun i => d (n + i))
  if !e.w.pend.isEmpty || e.s.inFlight e.w.ref || !e.s.streamRoom r q ||
      (decide (fl < 12) && e.w.flags.getD fl 0 == 63) then .wait
  else if done.addr.any (fun a => a % 4 != 0) then badValue 7
  else
    let dc := descCheck maj mem (exFx e.x) d e.act
    match e.s.doneTrap e.l e.t done with
    | some (c, dt) => e.onceTrap c dt ((done.addr).getD 0)
    | none =>
      if !dc.ok then whole 2 7
      else match dc.ranges.find? (fun r => !r.lies e.l.kernel) with
        | some r => e.onceTrap 4 r.detail (match r with
          | .scr o _ => o
          | .acm w _ => w)
        | none =>
          match e.originTrap with
          | some t => whole t.cause t.detail
          | none =>
            let ts := e.cmdLaneTraps d
            if !ts.isEmpty then e.refuse ts
            else e.accept r ((List.range (cmdRegs maj mem fl)).map (fun i => BitVec.ofNat 32 (d i))) done

/-- Issue an engine command (R229). -/
def runCx (x : Option Ex) (word : Word) (s : State) : State := issue cxWave waveOnly x word s

/-- COPY (R233). -/
def execCopy (x : Option Ex) (f : BitVec 4) (d a b : R7) (s : State) : Host.Outcome State Fault Refusal :=
  settle (runCx x (wordOf (.copy x f d a b)) s)

/-- COPYX (R234). -/
def execCopyx (x : Ex) (f : BitVec 4) (d a b : R7) (s : State) : Host.Outcome State Fault Refusal :=
  settle (runCx (some x) (wordOf (.copyx x f d a b)) s)

/-- GATH (R235). -/
def execGath (x : Ex) (f : BitVec 4) (d a b : R7) (s : State) : Host.Outcome State Fault Refusal :=
  settle (runCx (some x) (wordOf (.gath x f d a b)) s)

/-- SCATX (R235). -/
def execScatx (x : Ex) (f : BitVec 4) (d a b : R7) (s : State) : Host.Outcome State Fault Refusal :=
  settle (runCx (some x) (wordOf (.scatx x f d a b)) s)

/-- MMA (R236, R237). -/
def execMma (x : Option Ex) (f : BitVec 4) (d a : R7) (s : State) : Host.Outcome State Fault Refusal :=
  settle (runCx x (wordOf (.mma x f d a)) s)

/-- MMAB (R241). -/
def execMmab (x : Ex) (f : BitVec 4) (d a : R7) (s : State) : Host.Outcome State Fault Refusal :=
  settle (runCx (some x) (wordOf (.mmab x f d a)) s)

/-- MMAS (R242). -/
def execMmas (x : Ex) (f : BitVec 4) (d a : R7) (s : State) : Host.Outcome State Fault Refusal :=
  settle (runCx (some x) (wordOf (.mmas x f d a)) s)

/-- ATTN (R243). -/
def execAttn (x : Option Ex) (f : BitVec 4) (d a b : R7) (s : State) : Host.Outcome State Fault Refusal :=
  settle (runCx x (wordOf (.attn x f d a b)) s)

/-- ATTNFIN (R251). -/
def execAttnfin (x : Ex) (f : BitVec 4) (d a : R7) (s : State) : Host.Outcome State Fault Refusal :=
  settle (runCx (some x) (wordOf (.attnfin x f d a)) s)

/-- FOLD (R253). -/
def execFold (x : Ex) (f : BitVec 4) (d a : R7) (s : State) : Host.Outcome State Fault Refusal :=
  settle (runCx (some x) (wordOf (.fold x f d a)) s)

/-- DISP (R254). -/
def execDisp (x : Option Ex) (f : BitVec 4) (d a b : R7) (s : State) : Host.Outcome State Fault Refusal :=
  settle (runCx x (wordOf (.disp x f d a b)) s)

/-- AXEDIT (R255). -/
def execAxedit (x : Ex) (f : BitVec 4) (d a : R7) (s : State) : Host.Outcome State Fault Refusal :=
  settle (runCx (some x) (wordOf (.axedit x f d a)) s)

/-- AXSYNC (R256). -/
def execAxsync (x : Ex) (f : BitVec 4) (d a : R7) (s : State) : Host.Outcome State Fault Refusal :=
  settle (runCx (some x) (wordOf (.axsync x f d a)) s)

/-- LAUNCH (R257). -/
def execLaunch (x : Ex) (f : BitVec 4) (d a : R7) (s : State) : Host.Outcome State Fault Refusal :=
  settle (runCx (some x) (wordOf (.launch x f d a)) s)

/-! ### WAITF and QFENCE (R206, R207) -/

/-- Whether every flag of a mask holds a count of n or less. -/
def flagsAt (w : Wave) (mask n : Nat) : Bool := (List.range 12).all (fun j => !bitAt mask j || decide (w.flags.getD j 0 ≤ n))

/-- WAITF in a wave: an issue condition. -/
def waitfWave (e : Env) : Effect :=
  if flagsAt e.w (immOf e.x e.word.b7).toNat e.word.d7 then e.ok e.w else .wait

/-- WAITF (R206). -/
def execWaitf (x : Option Ex) (n i : R7) (s : State) : Host.Outcome State Fault Refusal :=
  settle (issue waitfWave waveOnly x (wordOf (.waitf x n i)) s)

/-- A join entry of a stream (R207). -/
def joinCmd (e : Env) (seq id : Nat) (qs : List Queue) (done : Done) : Cmd :=
  { seq := seq, wave := some e.w.ref, word := e.word, exw := (e.x.map Ex.word).getD 0, ops := [], mask := e.act, b0 := [], b1 := [],
    done := done, state := .queued, pred := none, progress := 0, pins := [], join := some (id, qs) }

/-- QFENCE in a wave: a join in each named queue; with no queue, its flag is incremented and decremented at once. -/
def qfenceWave (e : Env) : Effect :=
  let mask := (immOf e.x e.word.b7).toNat
  let qs := queues.filter (fun q => bitAt mask (queueIx q))
  let ref (q : Queue) : StreamRef := streamRef e.t.ref e.t.node e.l.ccn q
  let n := e.word.d7
  if !qs.all (fun q => e.s.streamRoom (ref q) q) || (decide (n < 12) && e.w.flags.getD n 0 == 63) then .wait
  else if qs.isEmpty then e.ok e.w
  else
    let id := e.s.nextNum
    let done : Done := if n < 12 then .flag n else .none
    let put (s : State) (q : Queue) : State :=
      let st := s.streamOf (ref q)
      s.putStream { st with cmds := st.cmds ++ [joinCmd e st.seq id qs done] }
    let s1 := qs.foldl put { e.s with nextNum := id + 1 }
    .done s1 (if n < 12 then { e.w with flags := updFile 0 e.w.flags n (· + 1) } else e.w) [] false

/-- QFENCE (R207). -/
def execQfence (x : Option Ex) (d i : R7) (s : State) : Host.Outcome State Fault Refusal :=
  settle (issue qfenceWave waveOnly x (wordOf (.qfence x d i)) s)

end Sys2Proof.Machine
end

