-- ==== Sys2Proof/Machine/EngineMem.lean ====
section
/-! DEFINITION. What the engines read and write (R45, R163, R226, R227, R362, R373), expansion of storage formats (R47, R232), and
the copy family (R230 to R235, R308). -/
namespace Sys2Proof.Machine
open Sys2Proof

/-! ### A running command -/

/-- A command that an engine performs: the state, the party it acts for, its status so far (R226), and its pins (R308). -/
structure Eng where
  s : State
  t : Team
  l : Launch
  c : Cmd
  status : Nat := 0
  pins : List Pin := []

/-- Status codes (R226). -/
def stAxis : Nat := 2
/-- AXRO. -/
def stAxro : Nat := 3
/-- SEG. -/
def stSeg : Nat := 4
/-- WORLD. -/
def stWorld : Nat := 5
/-- POISON. -/
def stPoison : Nat := 6
/-- DESC. -/
def stDesc : Nat := 7
/-- INDEX. -/
def stIndex : Nat := 8
/-- BOUNDS. -/
def stBounds : Nat := 9
/-- REMOTE. -/
def stRemote : Nat := 10
/-- PRED. -/
def stPred : Nat := 11
/-- EDIT. -/
def stEdit : Nat := 12

/-- A descriptor word of the command. -/
def Eng.d (g : Eng) (i : Nat) : Nat := (g.c.ops.getD i 0).toNat

/-- The modifiers of the command (R220). -/
def Eng.fx (g : Eng) : Nat := exFx (if g.c.exw == 0 then none else some (Ex.ofWord g.c.exw))

/-- A lane of the first b register; z gives zeros (R231). -/
def Eng.lane0 (g : Eng) (l : Nat) : Nat := (g.c.b0.getD l 0).toNat
/-- A lane of the second b register. -/
def Eng.lane1 (g : Eng) (l : Nat) : Nat := (g.c.b1.getD l 0).toNat

/-- Fail with a status, unless the command has failed already. -/
def Eng.fail (g : Eng) (st : Nat) : Eng := if g.status == 0 then { g with status := st } else g

/-- Run a step unless the command has failed. -/
def Eng.go (g : Eng) (f : Eng → Eng) : Eng := if g.status == 0 then f g else g

/-- The WHERE word of a command's party (R339). -/
def Eng.where_ (g : Eng) : Nat :=
  whereWord g.t.node g.t.die (g.t.core.getD 0) 0 0 (queueIx (cmdQueue g.c.word.maj (exTy (if g.c.exw == 0 then none else some (Ex.ofWord g.c.exw)))))

/-- Fail through a check of an access (R226, R362, R373): a failed world check also publishes its notice (R374). -/
def Eng.failAccess (g : Eng) (cause detail : Nat) (remote : Bool) : Eng :=
  let st := if cause == 7 then stWorld else if remote then stRemote else stSeg
  let s1 := if cause == 7 then g.s.worldNotice g.t.node (cause + 256 * detail) g.l.region.rcb g.where_ else g.s
  { g with s := s1 }.fail st

/-- Read bytes of global memory. -/
def Eng.readMem (g : Eng) (addr n : Nat) : Eng × List Byte :=
  if g.status != 0 then (g, [])
  else match g.s.globalKey g.t.node g.t.die g.l.ccn g.t.segs g.t.world addr n .read with
    | .error (c, d, r) => (g.failAccess c d r, [])
    | .ok k =>
      let ls := globLocs k n
      if g.s.poisonedAt ls then (g.fail stPoison, []) else ({ g with s := g.s.guardPhys k n }, g.s.readAt ls)

/-- Write bytes of global memory (R227). -/
def Eng.writeMem (g : Eng) (addr : Nat) (bs : List Byte) : Eng :=
  if g.status != 0 then g
  else match g.s.globalKey g.t.node g.t.die g.l.ccn g.t.segs g.t.world addr bs.length .write with
    | .error (c, d, r) => g.failAccess c d r
    | .ok k => { g with s := g.s.wrPhys k bs none }

/-- Read bytes of the team's scratchpad; those of a window are checked as global bytes (R172, R373). -/
def Eng.readScr (g : Eng) (off n : Nat) : Eng × List Byte :=
  let t := (g.s.team? g.t.ref).getD g.t
  let ls := g.s.scrLocs t off n
  if g.status != 0 then (g, [])
  else match g.s.windowFault t off n with
    | some (c, d, r) => (g.failAccess c d r, [])
    | none => if g.s.poisonedAt ls then (g.fail stPoison, []) else (g, g.s.readAt ls)

/-- Write bytes of the team's scratchpad; those of a window are checked as global bytes (R172, R373). -/
def Eng.writeScr (g : Eng) (off : Nat) (bs : List Byte) : Eng :=
  let t := (g.s.team? g.t.ref).getD g.t
  if g.status != 0 then g
  else match g.s.windowFault t off bs.length with
    | some (c, d, r) => g.failAccess c d r
    | none => { g with s := g.s.writeAt (g.s.scrLocs t off bs.length) bs none }

/-- A word of the team's scratchpad. -/
def Eng.scrWord (g : Eng) (off : Nat) : Eng × Nat :=
  let r := g.readScr off 4
  (r.1, ofBytes r.2)

/-- Whether a scratchpad range lies in the ordinary scratchpad. -/
def Eng.scrLies (g : Eng) (off n : Nat) : Bool := decide (off + n ≤ g.l.kernel.scr)

/-- Whether accumulator words lie in the allocation. -/
def Eng.acmLies (g : Eng) (w n : Nat) : Bool := decide (w + n ≤ g.l.kernel.acm)

/-- A word of accumulator memory. -/
def Eng.acm (g : Eng) (w : Nat) : Nat := g.s.acmRead g.t.ref w 4

/-- Write a word of accumulator memory. -/
def Eng.setAcm (g : Eng) (w v : Nat) : Eng := g.go (fun g => { g with s := g.s.acmWrite g.t.ref w 4 v })

/-! ### Storage units (R47, R232) -/

/-- A unit in canonical form: element bytes, scale bytes, escape bytes. -/
structure Unit_ where
  el : List Byte
  sc : List Byte
  es : List Byte
  deriving DecidableEq, Repr

/-- The nibbles of some bytes, low nibble first (R42). -/
def nibbles (bs : List Byte) : List Nat := bs.flatMap (fun b => [b.toNat % 16, b.toNat / 16])

/-- Expansion of a storage unit (R47). -/
def expandUnit (f : Nat) (bs : List Byte) : Unit_ :=
  let g (i : Nat) : Byte := bs.getD i 0
  match f with
  | 3 => ⟨bs.take 8, [g 8], [g 9]⟩
  | 4 => ⟨bs.take 16, [g 16], []⟩
  | 5 => ⟨bs.take 16, [g 16], []⟩
  | 6 => ⟨bs.take 16, [g 16, g 16], [0x80, 0x80]⟩
  | 7 => ⟨bs.take 32, [g 32, g 32], []⟩
  | 8 => ⟨bs.take 32, [g 32, g 32], []⟩
  | 9 => ⟨(nibbles (bs.take 16)).map (fun (q : Nat) => BitVec.ofInt 8 ((q : Int) - (((g 16).toNat % 16 : Nat) : Int))), [], []⟩
  | 10 => ⟨(nibbles (bs.take 16)).map (fun (q : Nat) => BitVec.ofInt 8 (toSigned 4 q - toSigned 4 ((g 16).toNat % 16))), [], []⟩
  | _ => ⟨bs, [], []⟩

/-- The unit that reads as zero (R233). -/
def zeroUnit (f : Nat) : Unit_ :=
  let u := expandUnit f (List.replicate (unitBytes f) 0)
  ⟨u.el.map (fun _ => 0), u.sc.map (fun _ => 0x7F), u.es.map (fun _ => 0x80)⟩

/-- A canonical unit in its storage format (codes 0 to 5). -/
def Unit_.store (u : Unit_) : List Byte := u.el ++ u.sc ++ u.es

/-- Where a unit lies in a slab: element offset, scale offset, escape offset (R46, R230). -/
def unitAt (base c rows s r j : Nat) (u : Unit_) : Nat × Nat × Nat :=
  let tile := base + s * tileBytes c rows
  let side := tile + 128 * rows + sideBytes c * r
  (tile + 128 * r + j * u.el.length, side + j * u.sc.length, side + 16 + j * u.es.length)

/-- Write a canonical unit into a slab. -/
def Eng.putUnit (g : Eng) (base c rows s r j : Nat) (u : Unit_) : Eng :=
  let p := unitAt base c rows s r j u
  ((g.writeScr p.1 u.el).writeScr p.2.1 u.sc).writeScr p.2.2 u.es

/-- Read a canonical unit of a storage format from a slab. -/
def Eng.getUnit (g : Eng) (base f rows s r j : Nat) : Eng × Unit_ :=
  let z := zeroUnit f
  let p := unitAt base (fmtCanon f) rows s r j z
  let a := g.readScr p.1 z.el.length
  let b := a.1.readScr p.2.1 z.sc.length
  let c := b.1.readScr p.2.2 z.es.length
  (c.1, ⟨a.2, b.2, c.2⟩)

/-! ### Tensors (R231, R233) -/

/-- The status of a translation that failed before it maps (R295, R303): DESC for a handle beyond TTCOUNT, else that of the walker
read, REMOTE where it failed at another node. -/
def Eng.failWalk (g : Eng) (e : WalkErr) : Eng :=
  if e.cause == 2 then g.fail stDesc else g.failAccess e.cause e.detail e.away

/-- The tensor object of a handle. -/
def Eng.object (g : Eng) (h : Nat) : Eng × Tensor :=
  if g.status != 0 then (g, ⟨0, []⟩)
  else
    let r := (xlatOf g.t g.l).object g.s h
    let g1 := { g with s := r.1 }
    match r.2 with
    | .error e => (g1.failWalk e, ⟨0, []⟩)
    | .ok t => if t.valid then (g1, t) else (g1.fail stDesc, t)

/-- The mapping of an index vector, with the pins of the entries it uses. -/
def Eng.map (g : Eng) (h : Nat) (t : Tensor) (pin : Bool) (idx : Nat → Nat) : Eng × List (Nat × AxisMap) :=
  if g.status != 0 then (g, [])
  else
    let r := (xlatOf g.t g.l).axes g.s h t idx (List.range t.rank)
    let g1 := { g with s := r.1 }
    match r.2 with
    | .error e => (g1.failWalk e, [])
    | .ok ms =>
      let ps := ms.filterMap (fun p => match p.2 with
        | .to _ (some e) => some (⟨h, p.1, (t.axis p.1).gen, e.bits⟩ : Pin)
        | _ => none)
      (if pin then { g1 with pins := g1.pins ++ ps.filter (fun p => !g1.pins.contains p) } else g1, ms)

/-- Whether some axis maps to a fault of a kind. -/
def hasFault (ms : List (Nat × AxisMap)) (test : Nat → Nat → Bool) : Bool :=
  ms.any (fun p => match p.2 with
    | .fault k => test p.1 k
    | .to _ _ => false)

/-- Whether some axis maps through a read-only entry. -/
def hasRo (ms : List (Nat × AxisMap)) : Bool :=
  ms.any (fun p => match p.2 with
    | .to _ (some e) => e.ro
    | _ => false)

/-- The address of the unit at an index vector, `none` beyond an extent (R233). -/
def Eng.unitAddr (g : Eng) (h : Nat) (t : Tensor) (write : Bool) (idx : Nat → Nat) : Eng × Option Nat :=
  let r := g.map h t true idx
  if r.1.status != 0 || hasFault r.2 (fun _ k => k == 2) then (r.1, none)
  else if hasFault r.2 (fun _ _ => true) then (r.1.fail stAxis, none)
  else if write && hasRo r.2 then (r.1.fail stAxro, none)
  else (r.1, some (elementAddr t r.2))

/-! ### COPY and COPYX (R233, R234) -/

/-- A copy's parameters. -/
structure CopyOp where
  f : Nat
  col : Nat
  row : Nat
  store : Bool
  h : Nat
  base : Nat
  slices : Nat
  rows : Nat
  deriving DecidableEq, Repr

/-- The parameters of a COPY or COPYX. -/
def Eng.copyOp (g : Eng) : CopyOp :=
  ⟨bits (g.d 0) 26 23, bits (g.d 0) 22 20, bits (g.d 0) 19 17, bitAt (g.d 0) 16, bits (g.d 0) 15 0, g.d 1, bits (g.d 2) 15 8, bits (g.d 2) 7 0⟩

/-- Move one unit: row `q` of the tile, slice s, unit j, at an index vector. -/
def Eng.moveUnit (o : CopyOp) (t : Tensor) (idx : Nat → Nat) (q s j : Nat) (g : Eng) : Eng :=
  let r := g.unitAddr o.h t o.store (fun a => if a == o.col then idx o.col + unitsPerSlice o.f * s + j else idx a)
  if r.1.status != 0 then r.1
  else if o.store then
    match r.2 with
    | none => r.1
    | some a =>
      let u := r.1.getUnit o.base o.f o.rows s q j
      u.1.writeMem a u.2.store
  else
    match r.2 with
    | none => r.1.putUnit o.base (fmtCanon o.f) o.rows s q j (zeroUnit o.f)
    | some a =>
      let b := r.1.readMem a (unitBytes o.f)
      b.1.go (fun g => g.putUnit o.base (fmtCanon o.f) o.rows s q j (expandUnit o.f b.2))

/-- Move one row of a tile, slice by slice. -/
def Eng.moveRow (o : CopyOp) (t : Tensor) (idx : Nat → Nat) (q : Nat) (g : Eng) : Eng :=
  (List.range o.slices).foldl (fun g s => (List.range (unitsPerSlice o.f)).foldl (fun g j => g.go (Eng.moveUnit o t idx q s j)) g) g

/-- The tensor of a copy; an axis field at or above its rank fails the command (R231). -/
def Eng.copyTensor (g : Eng) (o : CopyOp) : Eng × Tensor :=
  let r := g.object o.h
  if r.1.status == 0 && (r.2.rank ≤ o.col || r.2.rank ≤ o.row) then (r.1.fail stDesc, r.2) else r

/-- COPY (R233). -/
def Eng.copy (g : Eng) : Eng :=
  let o := g.copyOp
  let r := g.copyTensor o
  (List.range o.rows).foldl (fun g q =>
    g.go (Eng.moveRow o r.2 (fun a => if a == o.row then g.lane0 a + q else g.lane0 a) q)) r.1

/-- COPYX (R234): every active index is checked before any byte moves. -/
def Eng.copyx (g : Eng) : Eng :=
  let o := g.copyOp
  let pack := bitAt g.fx 0
  let r := g.copyTensor o
  let ax := r.2.axis o.row
  let ls := maskLanes g.c.mask
  let bad := !ax.modulo && ls.any (fun l => decide (ax.extent ≤ g.lane0 l))
  if r.1.status == 0 && bad then r.1.fail stIndex
  else ls.foldl (fun g l =>
    g.go (Eng.moveRow o r.2 (fun a => if a == o.row then g.lane0 l else g.lane1 a) (tileRow pack g.c.mask l))) r.1

/-! ### GATH and SCATX (R235) -/

/-- The address of a lane's row: GBASE with its NODE replaced, plus row × RSTR. -/
def Eng.rowAddr (g : Eng) (l : Nat) : Nat :=
  let nsh := bits (g.d 4) 12 8
  let i := g.lane0 l
  ((g.d 0 + 2 ^ 32 * g.d 1) % 2 ^ 56 + i / 2 ^ nsh * 2 ^ 56 + i % 2 ^ nsh * g.d 2) % 2 ^ 64

/-- Whether a lane names a node above 255. -/
def Eng.nodeBad (g : Eng) : Bool := (maskLanes g.c.mask).any (fun l => decide (255 < g.lane0 l / 2 ^ bits (g.d 4) 12 8))

/-- The offset of a lane's tile row. -/
def Eng.gathRow (g : Eng) (l : Nat) : Nat := g.d 3 + tileRow (bitAt g.fx 0) g.c.mask l * 128 * bits (g.d 4) 7 0

/-- GATH (R235). -/
def Eng.gath (g : Eng) : Eng :=
  let n := 128 * bits (g.d 4) 7 0
  if g.nodeBad then g.fail stIndex
  else (maskLanes g.c.mask).foldl (fun g l =>
    let r := g.readMem (g.rowAddr l) n
    r.1.go (fun h => h.writeScr (g.gathRow l) r.2)) g

/-- One word added at its home slice, as ATOMG `.fadd` in rn or `.add.n32` (R176, R235). -/
def Eng.addWord (op addr v : Nat) (g : Eng) : Eng :=
  match g.s.globalKey g.t.node g.t.die g.l.ccn g.t.segs g.t.world addr 4 .rmw with
  | .error (c, d, r) => g.failAccess c d r
  | .ok k =>
    let ls := globLocs k 4
    if g.s.poisonedAt ls then g.fail stPoison
    else { g with s := (g.s.atomAt ⟨if op == 1 then 1 else 0, if op == 1 then 8 else 1, .rn, false⟩ ls v 0 none).1 }

/-- SCATX (R235): rows in ascending lane order. -/
def Eng.scatx (g : Eng) : Eng :=
  let rb := bits (g.d 4) 7 0
  let op := bits (g.d 4) 15 14
  if g.nodeBad then g.fail stIndex
  else (maskLanes g.c.mask).foldl (fun g l =>
    let r := g.readScr (g.gathRow l) (128 * rb)
    let a := g.rowAddr l
    if op == 0 then r.1.writeMem a r.2
    else (List.range (32 * rb)).foldl (fun g i => g.go (Eng.addWord op ((a + 4 * i) % 2 ^ 64) (ofBytes ((r.2.drop (4 * i)).take 4)))) r.1) g

end Sys2Proof.Machine
end

