-- ==== Sys2Proof/Machine/Matrix.lean ====
section
/-! DEFINITION. The matrix family: rows of canonical slabs, slice sums (R46, R53, R230), MMA, MMAB and MMAS (R236 to R242). -/
namespace Sys2Proof.Machine
open Sys2Proof

/-! ### Rows and sums (R43, R44, R46, R53) -/

/-- The element values of one row of a canonical sub-tile, from its element bytes and its side band (R43, R44, R46). -/
def rowVals (c : Nat) (el side : List Byte) : List FVal :=
  let sc (i : Nat) : Nat := (side.getD i 0).toNat
  match c with
  | 0 =>
    let ns := nibbles el
    (List.range ns.length).map (fun j => xb4Val (ns.getD j 0) (sc (j / 16)) (sc (16 + j / 16)))
  | 1 => (List.range el.length).map (fun j => xb8Val e4m3 (el.getD j 0).toNat (sc (j / 16)))
  | 2 => (List.range el.length).map (fun j => xb8Val e5m2 (el.getD j 0).toNat (sc (j / 16)))
  | 3 => (List.range (el.length / 2)).map (fun j => bf16.decode (ofBytes ((el.drop (2 * j)).take 2)))
  | 4 => (List.range (el.length / 2)).map (fun j => fp16.decode (ofBytes ((el.drop (2 * j)).take 2)))
  | _ => el.map (fun b => let v := toSigned 8 b.toNat; .fin (decide (v < 0)) v.natAbs 0)

/-- A row that reads as zero: element code 0, scale 0x7F, escape 0x80 (R240). -/
def zeroRow (c : Nat) : List FVal :=
  rowVals c (List.replicate 128 0) (List.replicate 16 0x7F ++ List.replicate 16 0x80)

/-- The exact sum of the products of a slice; an exact zero is +0 (R53). -/
def dotExact (a b : List FVal) : FVal :=
  match (a.zip b).foldl (fun (acc : FVal) (p : FVal × FVal) => acc.add .rn (p.1.mul p.2)) (.fin false 0 0) with
  | .fin s m e => if m == 0 then .fin false 0 0 else .fin s m e
  | v => v

/-- A slice sum rounded once to FP32 (R53). -/
def sliceSum (a b : List FVal) : Nat := fp32.ofVal .rn false (dotExact a b)

/-- An accumulator value after one slice (R53): FP32, or s32 modulo 2^32 when the types are INT8. -/
def addSlice (int8 : Bool) (c : Nat) (a b : List FVal) : Nat :=
  if int8 then
    match dotExact a b with
    | .fin s m _ => ofInt 32 ((c : Int) + sgn s m)
    | _ => c
  else fadd fp32 .rn false c (sliceSum a b)

/-- Read row r of slice s of a slab of R rows (R230). -/
def Eng.row (base c rows s r : Nat) (g : Eng) : Eng × List FVal :=
  let tile := base + s * tileBytes c rows
  let a := g.readScr (tile + 128 * r) 128
  let b := a.1.readScr (tile + 128 * rows + sideBytes c * r) (sideBytes c)
  (b.1, rowVals c a.2 b.2)

/-! ### Products (R237) -/

/-- Where an operand's rows come from: row r of slice s. -/
abbrev RowSource := Nat → Nat → Eng → Eng × List FVal

/-- A product: rows and columns, slices, where C lies, and how its outputs start. -/
structure Product where
  int8 : Bool
  n : Nat
  ks : Nat
  caddr : Nat
  ovw : Bool
  deriving DecidableEq, Repr

/-- The accumulator word of an output. -/
def Product.at (p : Product) (r c : Nat) : Nat := p.caddr + p.n * r + c

/-- One output of a product (R237). -/
def Eng.output (p : Product) (ra rb : RowSource) (r c : Nat) (g : Eng) : Eng × Nat :=
  (List.range p.ks).foldl (fun (q : Eng × Nat) s =>
    let a := ra r s q.1
    let b := rb c s a.1
    (b.1, addSlice p.int8 q.2 a.2 b.2)) (g, if p.ovw then 0 else g.acm (p.at r c))

/-- The outputs of some positions, none written yet. -/
def Eng.outputs (p : Product) (ra rb : RowSource) (g : Eng) : List (Nat × Nat) → Eng × List (Nat × Nat)
  | [] => (g, [])
  | (r, c) :: rest =>
    let o := g.output p ra rb r c
    let t := o.1.outputs p ra rb rest
    (t.1, (p.at r c, o.2) :: t.2)

/-- Set MTDONE.COUNT of the command's core (R237). -/
def Eng.setCount (g : Eng) (n : Nat) : Eng :=
  { g with s := g.s.modCore g.t.node g.t.die (g.t.core.getD 0) (fun k => { k with mtCount := n }) }

/-- Set MTDONE at the start of a command (R237). -/
def Eng.startMt (g : Eng) : Eng :=
  { g with s := g.s.modCore g.t.node g.t.die (g.t.core.getD 0) (fun k => { k with mtSeq := g.c.seq % 2 ^ 16, mtCount := 0 }) }

/-- Push a micro-tile's pairs into a list as one unit (R214, R239). -/
def Eng.pushList (list : Nat) (ps : List (Nat × Nat)) (g : Eng) : Eng :=
  { g with s := g.s.putList g.t.ref list (ps.foldl Ranked.push (g.s.listAt g.t.ref list)) }

/-- One micro-tile or block, computed whole (R237, R241): the outputs at some positions, then the list, then COUNT. -/
def Eng.tile (p : Product) (ra rb : RowSource) (list : Option (Nat × Nat)) (j : Nat) (ps : List (Nat × Nat)) (g : Eng) : Eng :=
  let o := g.outputs p ra rb ps
  o.1.go (fun g =>
    let g1 := o.2.foldl (fun (g : Eng) (q : Nat × Nat) => g.setAcm q.1 q.2) g
    let g2 := match list with
      | none => g1
      | some (l, ibase) => g1.pushList l (o.2.map (fun (q : Nat × Nat) => (q.2, (ibase + (q.1 - p.caddr)) % 2 ^ 32)))
    g2.setCount (j + 1))

/-- The positions of micro-tile j of a product of n columns (R237). -/
def microTile (n j : Nat) : List (Nat × Nat) :=
  (List.range 64).map (fun i => (8 * (j / (n / 8)) + i / 8, 8 * (j % (n / 8)) + i % 8))

/-- A product's micro-tiles in row-major order (R237). -/
def Eng.tiles (p : Product) (m : Nat) (ra rb : RowSource) (list : Option (Nat × Nat)) (g : Eng) : Eng :=
  (List.range (m / 8 * (p.n / 8))).foldl (fun (g : Eng) j => g.go (Eng.tile p ra rb list j (microTile p.n j))) g

/-- The list of a product under `.rank` (R239): its configuration and allocation are checked when it is read. -/
def Eng.checkList (list : Option (Nat × Nat)) (int8 : Bool) (g : Eng) : Eng :=
  match list with
  | none => g
  | some (l, _) =>
    match g.s.listTrap g.t.ref g.l.kernel.acm l with
    | some (4, _) => g.fail stBounds
    | some _ => g.fail stDesc
    | none => if cfgKt (g.s.listCfg g.t.ref l) == (if int8 then 1 else 0) then g else g.fail stDesc

/-! ### MMA (R237, R239, R240) -/

/-- The fields of an unfold descriptor (R240), from its eight words. -/
structure Unfold where
  abase : Nat
  astr : Nat
  hi : Nat
  wi : Nat
  p0 : Nat
  wo : Nat
  py : Nat
  px : Nat
  dy : Nat
  dx : Nat
  sy : Nat
  sx : Nat
  kh : Nat
  kw : Nat
  cs : Nat
  rest : Nat
  deriving DecidableEq, Repr

/-- The unfold descriptor of 32 bytes (R240). -/
def unfoldOf (bs : List Byte) : Unfold :=
  let w (i : Nat) : Nat := ofBytes ((bs.drop (4 * i)).take 4)
  ⟨w 0, w 1, bits (w 2) 31 16, bits (w 2) 15 0, bits (w 3) 31 16, bits (w 3) 15 0, bits (w 4) 31 28, bits (w 4) 27 24,
   bits (w 4) 23 20, bits (w 4) 19 16, bits (w 4) 15 12, bits (w 4) 11 8, bits (w 4) 7 4, bits (w 4) 3 0, bits (w 5) 7 0,
   bits (w 5) 31 8 + w 6 + w 7⟩

/-- Whether an unfold descriptor keeps its limits (R240). -/
def Unfold.ok (u : Unfold) (ks : Nat) : Bool :=
  u.abase % 128 == 0 && u.astr % 128 == 0 && [u.hi, u.wi, u.wo, u.dy, u.dx, u.sy, u.sx, u.kh, u.kw, u.cs].all (fun n => decide (1 ≤ n)) &&
    u.rest == 0 && ks == u.kh * u.kw * u.cs

/-- The activation row of row m of slice s, if it lies in the input (R240): its channel slice and its row. -/
def Unfold.source (u : Unfold) (m s : Nat) : Option (Nat × Nat) :=
  let t := s / u.cs
  let p := u.p0 + m
  let iy : Int := ((p / u.wo * u.sy + t / u.kw * u.dy : Nat) : Int) - u.py
  let ix : Int := ((p % u.wo * u.sx + t % u.kw * u.dx : Nat) : Int) - u.px
  if 0 ≤ iy && iy < u.hi && 0 ≤ ix && ix < u.wi then some (s % u.cs, iy.toNat * u.wi + ix.toNat) else none

/-- Row m of slice s of an unfolded operand (R240). -/
def Eng.virtRow (u : Unfold) (c m s : Nat) (g : Eng) : Eng × List FVal :=
  match u.source m s with
  | none => (g, zeroRow c)
  | some (ch, r) =>
    let tile := u.abase + ch * u.astr
    let rows := u.hi * u.wi
    if g.scrLies (tile + 128 * r) 128 && g.scrLies (tile + 128 * rows + sideBytes c * r) (sideBytes c) then g.row tile c rows 0 r
    else (g.fail stBounds, [])

/-- The product of a configuration word (R236). -/
def cfgProduct (c caddr : Nat) : Product := ⟨bits c 2 0 == 5, cfgN c, cfgKs c, caddr, bitAt c 22⟩

/-- MMA (R237). -/
def Eng.mma (g : Eng) : Eng :=
  let c := g.d 0
  let ta := bits c 2 0
  let tb := bits c 5 3
  let p := cfgProduct c (g.d 3)
  let list := if bitAt g.fx 0 then some (g.d 4, g.d 5) else none
  let rb : RowSource := fun n s g => g.row (g.d 2) tb (cfgN c) s n
  let g0 := g.startMt.checkList list p.int8
  if bitAt g.fx 1 then
    let u := g0.readScr (g.d 1) 32
    let un := unfoldOf u.2
    u.1.go (fun g => if un.ok p.ks then g.tiles p (cfgM c) (fun m s g => g.virtRow un ta m s) rb list else g.fail stDesc)
  else g0.go (fun g => g.tiles p (cfgM c) (fun m s g => g.row (g.d 1) ta (cfgM c) s m) rb list)

/-! ### MMAB (R241) -/

/-- One block of a block table, from its four words. -/
def Eng.block (ta tb ks : Nat) (w : Nat → Nat) (j : Nat) (g : Eng) : Eng :=
  let m := 2 * (bits (w 3) 2 0 + 1)
  let n := 2 * (bits (w 3) 5 3 + 1)
  let p : Product := ⟨ta == 5, n, ks, w 2, bitAt (w 3) 6⟩
  if bits (w 3) 31 7 != 0 || w 0 % 128 != 0 || w 1 % 128 != 0 then g.fail stDesc
  else if !(g.scrLies (w 0) (ks * tileBytes ta m) && g.scrLies (w 1) (ks * tileBytes tb n) && g.acmLies (w 2) (m * n)) then g.fail stBounds
  else g.tile p (fun r s g => g.row (w 0) ta m s r) (fun r s g => g.row (w 1) tb n s r) none j
    ((List.range (m * n)).map (fun i => (i / n, i % n)))

/-- MMAB (R241): the table is read once. -/
def Eng.mmab (g : Eng) : Eng :=
  let c := g.d 0
  let nblk := bits c 10 6
  let t := g.startMt.readScr (g.d 1) (16 * nblk)
  let w (j i : Nat) : Nat := ofBytes ((t.2.drop (16 * j + 4 * i)).take 4)
  (List.range nblk).foldl (fun (g : Eng) j => g.go (Eng.block (bits c 2 0) (bits c 5 3) (cfgKs c) (w j) j)) t.1

/-! ### MMAS (R242) -/

/-- A row with the elements whose bitmap bit is clear taken as zero. -/
def maskRow (v : List FVal) (bm : List Byte) : List FVal :=
  (List.range v.length).map (fun e => if bitAt (ofBytes bm) e then v.getD e .nan else .fin false 0 0)

/-- Row r of slice s of an operand of R rows with a bitmap (R242). -/
def Eng.maskedRow (base bm c rows s r : Nat) (g : Eng) : Eng × List FVal :=
  let v := g.row base c rows s r
  let n := rowElems c / 8
  let b := v.1.readScr (bm + (s * rows + r) * n) n
  (b.1, maskRow v.2 b.2)

/-- MMAS (R242). -/
def Eng.mmas (g : Eng) : Eng :=
  let c := g.d 0
  let p := cfgProduct c (g.d 3)
  let list := if bitAt g.fx 0 then some (g.d 6, g.d 7) else none
  let g0 := g.startMt.checkList list p.int8
  g0.go (fun g => g.tiles p (cfgM c) (fun m s g => g.maskedRow (g.d 1) (g.d 4) (bits c 2 0) (cfgM c) s m)
    (fun n s g => g.maskedRow (g.d 2) (g.d 5) (bits c 5 3) (cfgN c) s n) list)

end Sys2Proof.Machine
end

