-- ==== Sys2Proof/Machine/Attn.lean ====
section
/-! DEFINITION. The attention tile engine: ATTN, ATTNFIN and FOLD (R57, R243 to R253). -/
namespace Sys2Proof.Machine
open Sys2Proof

/-- FP32 sum, difference and product in rn. -/
def f32add (a b : Nat) : Nat := fadd fp32 .rn false a b
/-- Difference. -/
def f32sub (a b : Nat) : Nat := fsub fp32 .rn false a b
/-- Product. -/
def f32mul (a b : Nat) : Nat := fmul fp32 .rn false a b
/-- Fused a × b + c. -/
def f32fma (a b c : Nat) : Nat := ffma fp32 .rn false a b c
/-- 2^a correctly rounded to FP32. -/
def f32exp2 (a : Nat) : Nat := exp2To fp32 .rn false a
/-- −∞ as FP32. -/
def f32ninf : Nat := 0xFF800000
/-- The FP32 code of a BF16 code. -/
def ofBf16 (a : Nat) : Nat := a * 2 ^ 16

/-- A dot product over slices on the matrix path (R53). -/
def dotSlices (a b : List (List FVal)) : Nat :=
  (a.zip b).foldl (fun (c : Nat) (p : List FVal × List FVal) => addSlice false c p.1 p.2) 0

/-! ### The parameters of ATTN (R243, R244) -/

/-- The parameters of an ATTN. -/
structure AttnOp where
  qoff : Nat
  win : Nat
  mask : Nat
  dvs : Nat
  dks : Nat
  qt : Nat
  rows : Nat
  kh : Nat
  vh : Nat
  tlo : Nat
  thi : Nat
  scale : Nat
  poff : Nat
  acmb : Nat
  deriving DecidableEq, Repr

/-- The parameters in a descriptor (R243). -/
def Eng.attnOp (g : Eng) : AttnOp :=
  ⟨g.d 0, bits (g.d 1) 31 18, bits (g.d 1) 17 16, bits (g.d 1) 15 13, bits (g.d 1) 12 10, bits (g.d 1) 9 7, bits (g.d 1) 6 0,
   bits (g.d 2) 15 0, bits (g.d 2) 31 16, g.d 3, g.d 4, g.d 5, g.d 6, g.d 7⟩

/-- The number of blocks (R245). -/
def AttnOp.blocks (o : AttnOp) : Nat := ceilDiv (o.thi - o.tlo) 64

/-- The words of the state block (R244). -/
def AttnOp.mAt (o : AttnOp) (r : Nat) : Nat := o.acmb + 24 + r
/-- l_r. -/
def AttnOp.lAt (o : AttnOp) (r : Nat) : Nat := o.acmb + 24 + o.rows + r
/-- O_r,j. -/
def AttnOp.oAt (o : AttnOp) (r j : Nat) : Nat := o.acmb + 24 + 2 * o.rows + 64 * o.dvs * r + j

/-- Whether token t is unmasked for a row at position p (R245). -/
def AttnOp.sees (o : AttnOp) (p t : Nat) : Bool :=
  decide (t < o.thi) && !(decide (1 ≤ o.mask) && decide (p < t)) && !(o.mask == 2 && decide (t + o.win ≤ p))

/-- What an ATTN has read of its own operands: the rows of Q, the positions, and the two tensors. -/
structure AttnIn where
  q : List (List (List FVal))
  pos : List Nat
  k : Tensor
  v : Tensor

/-- Whether token t is needed (R245). -/
def AttnOp.needed (o : AttnOp) (i : AttnIn) (t : Nat) : Bool := (List.range o.rows).any (fun r => o.sees (i.pos.getD r 0) t)

/-- The rows of a slab, slice by slice. -/
def Eng.slabRows (base c rows ns : Nat) (g : Eng) : Eng × List (List (List FVal)) :=
  (List.range rows).foldl (fun (acc : Eng × List (List (List FVal))) r =>
    let one := (List.range ns).foldl (fun (q : Eng × List (List FVal)) s =>
      let v := q.1.row base c rows s r
      (v.1, q.2 ++ [v.2])) (acc.1, [])
    (one.1, acc.2 ++ [one.2])) (g, [])

/-- The paged axis of a tensor (R295). -/
def Tensor.pagedAxis (t : Tensor) : Option Nat := (List.range t.rank).find? (fun j => (t.axis j).paged)

/-- A K or V tensor: its paged axis is not axis 0, and its element type is accepted (R243). -/
def Eng.attnTensor (h : Nat) (types : List Nat) (g : Eng) : Eng × Tensor :=
  let r := g.object h
  let bad := match r.2.pagedAxis with
    | none => true
    | some p => p == 0 || !types.contains r.2.etype
  if r.1.status == 0 && bad then (r.1.fail stDesc, r.2) else r

/-- Translate the axes of a tensor other than axis 0 and the paged axis (R243): a fault fails the command. -/
def Eng.otherAxes (h : Nat) (t : Tensor) (g : Eng) : Eng :=
  g.go (fun g =>
    let js := (List.range t.rank).filter (fun j => j != 0 && t.pagedAxis != some j)
    let r := (xlatOf g.t g.l).axes g.s h t g.lane0 js
    let g1 := { g with s := r.1 }
    match r.2 with
    | .error e => g1.failWalk e
    | .ok ms => if hasFault ms (fun _ _ => true) then g1.fail stAxis else g1)

/-- The operands of an ATTN. -/
def Eng.attnIn (o : AttnOp) (g : Eng) : Eng × AttnIn :=
  let k := g.attnTensor o.kh (if o.qt == 3 then [0] else [4, 5, 7, 8])
  let v := k.1.attnTensor o.vh [0]
  let q := ((v.1.otherAxes o.kh k.2).otherAxes o.vh v.2).slabRows o.qoff o.qt o.rows o.dks
  let p := if o.mask == 0 then (q.1, []) else q.1.readScr o.poff (4 * o.rows)
  (p.1, ⟨q.2, (List.range o.rows).map (fun r => ofBytes ((p.2.drop (4 * r)).take 4)), k.2, v.2⟩)

/-! ### Reading a token (R243, R245, R247) -/

/-- One storage unit of a token's row, expanded: `none` when the paged axis drops the block. Beyond the extent of axis 0 a unit reads
as zero, as along COLAX of a copy (R233, R243; log 32). -/
def Eng.tokenUnit (h : Nat) (t : Tensor) (tok u : Nat) (g : Eng) : Eng × Option Unit_ :=
  let pg := t.pagedAxis.getD 0
  let r := g.map h t false (fun a => if a == 0 then u else if a == pg then tok else g.lane0 a)
  if r.1.status != 0 then (r.1, none)
  else if hasFault r.2 (fun a k => a != pg && (a != 0 || k != 2)) then (r.1.fail stAxis, none)
  else if hasFault r.2 (fun a _ => a == pg) then (r.1, none)
  else if hasFault r.2 (fun _ _ => true) then (r.1, some (zeroUnit t.etype))
  else
    let b := r.1.readMem (elementAddr t r.2) (unitBytes t.etype)
    (b.1, some (expandUnit t.etype b.2))

/-- The canonical slices of a token's row: `none` when the block is dropped, or the command has failed. -/
def Eng.tokenRow (h : Nat) (t : Tensor) (ns tok : Nat) (g : Eng) : Eng × Option (List (List FVal)) :=
  let f := t.etype
  let per := unitsPerSlice f
  (List.range ns).foldl (fun (acc : Eng × Option (List (List FVal))) s =>
    match acc.2 with
    | none => acc
    | some sl =>
      let one := (List.range per).foldl (fun (q : Eng × Option (List Byte × List Byte)) j =>
        match q.2 with
        | none => q
        | some (el, sc) =>
          let b := q.1.tokenUnit h t tok (per * s + j)
          (b.1, b.2.map (fun (x : Unit_) => (el ++ x.el, sc ++ x.sc)))) (acc.1, some ([], []))
      (one.1, one.2.map (fun (p : List Byte × List Byte) => sl ++ [rowVals (fmtCanon f) p.1 p.2]))) (g, some [])

/-- The row that stands for a token that is not needed, which is not read (R245). -/
def noRow (ns : Nat) : List (List FVal) := List.replicate ns (List.replicate 64 (.fin false 0 0))

/-- The rows of K, or of V, for the needed tokens of a block; `none` when the block is dropped. -/
def Eng.blockRows (o : AttnOp) (i : AttnIn) (h : Nat) (t : Tensor) (ns lo : Nat) (g : Eng) : Eng × Option (List (List (List FVal))) :=
  (List.range 64).foldl (fun (acc : Eng × Option (List (List (List FVal)))) k =>
    match acc.2 with
    | none => acc
    | some rows =>
      if o.needed i (lo + k) then
        let r := acc.1.tokenRow h t ns (lo + k)
        (r.1, r.2.map (fun v => rows ++ [v]))
      else (acc.1, some (rows ++ [noRow ns]))) (g, some [])

/-! ### One block (R57, R246) -/

/-- The scores of a row of a block (R57 step 1, R246). -/
def scores (o : AttnOp) (i : AttnIn) (lo r : Nat) (ks : List (List (List FVal))) : List Nat :=
  (List.range 64).map (fun k =>
    if o.sees (i.pos.getD r 0) (lo + k) then f32mul o.scale (dotSlices (i.q.getD r []) (ks.getD k [])) else f32ninf)

/-- Column j of some rows of V. -/
def column (vs : List (List (List FVal))) (j : Nat) : List FVal := vs.map (fun row => (row.getD (j / 64) []).getD (j % 64) .nan)

/-- One row's update by one block (R57 steps 2 to 4). -/
def Eng.updateRow (o : AttnOp) (r : Nat) (ss : List Nat) (vs : List (List (List FVal))) (g : Eng) : Eng :=
  let m := g.acm (o.mAt r)
  let m2 := ss.foldl (fminmax fp32 true) m
  if m2 == f32ninf then g
  else
    let al := f32exp2 (f32sub m m2)
    let ps := ss.map (fun s => exp2To bf16 .rn false (f32sub s m2))
    let l := ps.foldl (fun l p => f32add l (ofBf16 p)) (f32mul (g.acm (o.lAt r)) al)
    let pv := ps.map bf16.decode
    let g1 := (List.range (64 * o.dvs)).foldl (fun (g : Eng) j =>
      g.setAcm (o.oAt r j) (addSlice false (f32mul (g.acm (o.oAt r j)) al) pv (column vs j))) g
    (g1.setAcm (o.lAt r) l).setAcm (o.mAt r) m2

/-- Add one to an accumulator word. -/
def Eng.incAcm (w : Nat) (g : Eng) : Eng := g.setAcm w ((g.acm w + 1) % 2 ^ 32)

/-- Take one block (R246): whether it was dropped (R247). -/
def Eng.block64 (o : AttnOp) (i : AttnIn) (b : Nat) (g : Eng) : Eng × Bool :=
  let lo := o.tlo + 64 * b
  let k := g.blockRows o i o.kh i.k o.dks lo
  let v := k.1.blockRows o i o.vh i.v o.dvs lo
  if v.1.status != 0 then (v.1, false)
  else match k.2, v.2 with
    | some ks, some vs =>
      let g1 := (List.range o.rows).foldl (fun (g : Eng) r => g.updateRow o r (scores o i lo r ks) vs) v.1
      (g1.incAcm (o.acmb + 5), false)
    | _, _ => (v.1, true)

/-- Take some blocks in order: the set of those that were dropped. -/
def Eng.takeBlocks (o : AttnOp) (i : AttnIn) (bs : List Nat) (g : Eng) : Eng × Nat :=
  bs.foldl (fun (acc : Eng × Nat) b =>
    if acc.1.status != 0 then acc
    else
      let r := acc.1.block64 o i b
      (r.1, if r.2 then acc.2 + 2 ^ b else acc.2)) (g, 0)

/-- Clear STATUS, DONE, NABS, CSDONE and ABSMAP when the command starts (R244, R245). -/
def Eng.clearStatus (acmb : Nat) (g : Eng) : Eng :=
  (List.range 12).foldl (fun (g : Eng) j => g.setAcm (acmb + 4 + j) 0) g

/-- The main pass of ATTN: the dropped blocks are kept in the command's progress (R246, R247, R248). -/
def Eng.attnMain (g : Eng) : Eng :=
  let o := g.attnOp
  let g0 := g.clearStatus o.acmb
  if o.thi == o.tlo then g0
  else
    let i := g0.attnIn o
    let r := i.1.takeBlocks o i.2 (List.range o.blocks)
    { r.1 with c := { r.1.c with progress := r.2 } }

/-! ### The Sinter partial (R249, R252) -/

/-- d^(−1/4) correctly rounded to FP32 (R252). -/
def rootFour (d : Nat) : Nat :=
  let n := 2 ^ 400 / d
  let r := isqrt (isqrt n)
  fp32.round .rn false false r (-100) (r * r * r * r * d != 2 ^ 400)

/-- 1/(2√d) correctly rounded to FP32 (R252). -/
def halfRsqrt (d : Nat) : Nat := f32mul (frsq .rn false (fp32.round .rn false false d 0 false)) 0x3F000000

/-- L2E (R249). -/
def l2e : Nat := 0x3FB8AA3B

/-- The feature map of a row (R252). -/
def phi (d c : Nat) (w : List (List (List FVal))) (x : List (List FVal)) : List Nat :=
  let r4 := rootFour d
  let t2 := f32mul (dotSlices x x) (halfRsqrt d)
  let cc := f32mul c 0x3F000000
  (List.range 64).map (fun i =>
    let e := f32sub (f32sub (f32mul (dotSlices (w.getD i []) x) r4) t2) cc
    f32mul (f32exp2 (f32mul e l2e)) 0x3E000000)

/-- The Sinter partial of one row (R249). -/
def Eng.sinRow (o : AttnOp) (sa c : Nat) (w : List (List (List FVal))) (i : AttnIn) (r : Nat) (g : Eng) : Eng :=
  let dv := 64 * o.dvs
  let f := phi (64 * o.dks) c w (i.q.getD r [])
  let sum (at_ : Nat → Nat) : Nat := (List.range 64).foldl (fun acc j => f32fma (f.getD j 0) (g.acm (at_ j)) acc) 0
  let zs := sum (fun j => sa + 64 * dv + j)
  let m := g.acm (o.mAt r)
  let c2 := f32mul c l2e
  let m2 := fminmax fp32 true m c2
  let al := f32exp2 (f32sub m m2)
  let be := f32exp2 (f32sub c2 m2)
  let g1 := g.setAcm (o.lAt r) (f32add (f32mul (g.acm (o.lAt r)) al) (f32mul be zs))
  let g2 := (List.range dv).foldl (fun (q : Eng) j =>
    q.setAcm (o.oAt r j) (f32add (f32mul (g.acm (o.oAt r j)) al) (f32mul be (sum (fun k => sa + dv * k + j))))) g1
  g2.setAcm (o.mAt r) m2

/-- The Sinter partial of an ATTN under `.sin` (R249): the ranges found in the state block are checked when it is read. -/
def Eng.sinter (o : AttnOp) (i : AttnIn) (g : Eng) : Eng :=
  let sa := g.acm (o.acmb + 1)
  let woff := g.acm (o.acmb + 2)
  if woff % 128 != 0 then g.fail stDesc
  else if !(g.acmLies sa (sinWords (64 * o.dvs)) && g.scrLies woff (o.dks * tileBytes 3 64)) then g.fail stBounds
  else
    let w := g.slabRows woff 3 64 o.dks
    w.1.go (fun g =>
      let c := g.acm (sa + 64 * (64 * o.dvs) + 64)
      (List.range o.rows).foldl (fun (g : Eng) r => g.sinRow o sa c w.2 i r) g)

/-! ### The score table (R250) -/

/-- A row's weight of a token, added to w (R250). -/
def weightOf (g : Eng) (o : AttnOp) (i : AttnIn) (ks : List (List (List FVal))) (lo k w r : Nat) : Nat :=
  let l := g.acm (o.lAt r)
  if l % 2 ^ 31 != 0 && o.sees (i.pos.getD r 0) (lo + k) then
    let s := f32mul o.scale (dotSlices (i.q.getD r []) (ks.getD k []))
    f32add w (fdivTo fp32 fp32 .rn false (f32exp2 (f32sub s (g.acm (o.mAt r)))) l)
  else w

/-- One block of the score-table pass; a dropped block contributes nothing. -/
def Eng.csBlock (o : AttnOp) (i : AttnIn) (ca b : Nat) (g : Eng) : Eng :=
  let lo := o.tlo + 64 * b
  let k := g.blockRows o i o.kh i.k o.dks lo
  match k.2 with
  | none => k.1
  | some ks =>
    ((List.range 64).foldl (fun (g : Eng) j =>
      if o.needed i (lo + j) then
        let w := (List.range o.rows).foldl (weightOf g o i ks lo j) 0
        let a := ca + (lo + j - o.tlo)
        g.setAcm a (f32add (g.acm a) w)
      else g) k.1).incAcm (o.acmb + 7)

/-- The score table of an ATTN under `.cs` over the blocks it completed (R250). -/
def Eng.scoreTable (o : AttnOp) (i : AttnIn) (absent : Nat) (g : Eng) : Eng :=
  let ca := g.acm o.acmb
  if !g.acmLies ca (o.thi - o.tlo) then g.fail stBounds
  else (List.range o.blocks).foldl (fun (g : Eng) b => if bitAt absent b then g else g.go (Eng.csBlock o i ca b)) g

/-- The end of ATTN: the re-walk, the Sinter partial, the score table, and STATUS (R247, R249, R250). -/
def Eng.attnEnd (g : Eng) : Eng :=
  let o := g.attnOp
  if o.thi == o.tlo then g
  else
    let i := g.attnIn o
    let r := i.1.takeBlocks o i.2 ((List.range o.blocks).filter (fun b => bitAt g.c.progress b))
    r.1.go (fun g =>
      let ab := r.2
      let n := ((List.range o.blocks).filter (fun b => bitAt ab b)).length
      let g1 := (List.range 8).foldl (fun (g : Eng) j => g.setAcm (o.acmb + 8 + j) (ab / 2 ^ (32 * j) % 2 ^ 32)) g
      let g2 := (g1.setAcm (o.acmb + 6) n).setAcm (o.acmb + 4) (if n == 0 then 0 else 1)
      let g3 := if bitAt g.fx 1 then g2.sinter o i.2 else g2
      let g4 := if bitAt g.fx 1 then g3.setAcm (o.acmb + 4) (256 + (if n == 0 then 0 else 1)) else g3
      g4.go (fun g => if bitAt g.fx 0 then g.scoreTable o i.2 ab else g))

/-! ### ATTNFIN (R251) -/

/-- ATTNFIN (R251). -/
def Eng.attnfin (g : Eng) : Eng :=
  let base := g.d 0
  let rows := bits (g.d 1) 6 0
  let dvs := bits (g.d 1) 9 7
  let dest := bitAt (g.d 1) 10
  let dst : Fmt := if !dest then fp32 else if bits (g.d 1) 13 11 == 3 then bf16 else fp16
  let zero (g : Eng) (r : Nat) : Bool := g.acm (base + 24 + rows + r) % 2 ^ 31 == 0
  let out (g : Eng) (r j : Nat) : Nat :=
    if zero g r then 0
    else fdivTo fp32 dst .rn false (g.acm (base + 24 + 2 * rows + 64 * dvs * r + j)) (g.acm (base + 24 + rows + r))
  let g1 := (List.range rows).foldl (fun (g : Eng) r =>
    if dest then
      (List.range dvs).foldl (fun (h : Eng) s =>
        h.writeScr (g.d 2 + s * tileBytes 3 rows + 128 * r) ((List.range 64).flatMap (fun j => toBytes 2 (out g r (64 * s + j))))) g
    else
      (List.range (64 * dvs)).foldl (fun (h : Eng) j => h.setAcm (base + 24 + 2 * rows + 64 * dvs * r + j) (out g r j)) g) g
  let z := (List.range rows).foldl (fun n r => if zero g r then n + 2 ^ r else n) 0
  (g1.setAcm (base + 16) (z % 2 ^ 32)).setAcm (base + 17) (z / 2 ^ 32)

/-! ### FOLD (R253) -/

/-- Fold one row of K and V into a Sinter state (R253). -/
def Eng.foldRow (dks dvs sa : Nat) (w : List (List (List FVal))) (x : List (List FVal)) (v : List Nat) (g : Eng) : Eng :=
  let dv := 64 * dvs
  let f := phi (64 * dks) (g.acm (sa + 64 * dv + 64)) w x
  let g1 := (List.range 64).foldl (fun (g : Eng) i => (List.range dv).foldl (fun (g : Eng) j =>
    g.setAcm (sa + dv * i + j) (f32fma (f.getD i 0) (ofBf16 (v.getD j 0)) (g.acm (sa + dv * i + j)))) g) g
  (List.range 64).foldl (fun (g : Eng) i => g.setAcm (sa + 64 * dv + i) (f32add (g.acm (sa + 64 * dv + i)) (f.getD i 0))) g1

/-- FOLD (R253). -/
def Eng.fold (g : Eng) : Eng :=
  let n := bits (g.d 2) 6 0
  let dks := bits (g.d 2) 9 7
  let dvs := bits (g.d 2) 12 10
  let w := g.slabRows (g.d 3) 3 64 dks
  let k := w.1.slabRows (g.d 0) 3 n dks
  (List.range n).foldl (fun (g : Eng) t => g.go (fun g =>
    let v := (List.range dvs).foldl (fun (q : Eng × List Nat) s =>
      let b := q.1.readScr (q.1.d 1 + s * tileBytes 3 n + 128 * t) 128
      (b.1, q.2 ++ (List.range 64).map (fun j => ofBytes ((b.2.drop (2 * j)).take 2)))) (g, [])
    v.1.go (fun g => g.foldRow dks dvs (g.d 4) w.2 (k.2.getD t []) v.2))) k.1

end Sys2Proof.Machine
end

