-- ==== Sys2Proof/Machine/Edit.lean ====
section
/-! DEFINITION. Axis edits (R255, R256, R304 to R308), launch records and launch queues (R257, R269, R270), and DISP with its
send queues (R254, R365 to R367, R369). -/
namespace Sys2Proof.Machine
open Sys2Proof

/-! ### The table change (R305) -/

/-- The TARGET of the upper part of an entry cut at x, `none` where the advance leaves its range (R305). -/
def cutTarget (a : Axis) (e : Entry) (x : Nat) : Option Nat :=
  if e.rep then some e.target
  else if a.paged then
    let off : Int := ((e.target % 2 ^ 36 : Nat) : Int) + ((x - e.lo : Nat) : Int) * a.stride
    if 0 ≤ off && off < ((2 ^ 36 : Nat) : Int) then some (e.target / 2 ^ 36 * 2 ^ 36 + off.toNat) else none
  else if e.target + (x - e.lo) < 2 ^ 32 then some (e.target + (x - e.lo)) else none

/-- The two parts of an entry cut at x. -/
def cutEntry (a : Axis) (e : Entry) (x : Nat) : Option (Entry × Entry) :=
  (cutTarget a e x).map (fun t => ({ e with len := x - e.lo }, { e with lo := x, len := e.lo + e.len - x, target := t }))

/-- What remains of an entry when [lo, hi) is removed. -/
def removeFrom (a : Axis) (lo hi : Nat) (e : Entry) : Option (List Entry) :=
  let stop := e.lo + e.len
  if stop ≤ lo || hi ≤ e.lo then some [e]
  else
    let low : Option (List Entry × Entry) :=
      if e.lo < lo then (cutEntry a e lo).map (fun p => ([p.1], p.2)) else some ([], e)
    match low with
    | none => none
    | some (keep, rest) => if hi < stop then (cutEntry a rest hi).map (fun p => keep ++ [p.2]) else some keep

/-- Insert an entry in LO order. -/
def insertEntry (e : Entry) : List Entry → List Entry
  | [] => [e]
  | f :: t => if e.lo < f.lo then e :: f :: t else f :: insertEntry e t

/-- Every part of a list, or none if one is missing. -/
def allParts : List (Option (List Entry)) → Option (List Entry)
  | [] => some []
  | none :: _ => none
  | some p :: t => (allParts t).map (fun r => p ++ r)

/-- The table and the extent after an edit; `none` where it fails with status EDIT (R305). -/
def editTable (a : Axis) (es : List Entry) (op lo len : Nat) (new : Entry) : Option (List Entry × Nat) :=
  let range := decide (1 ≤ len) && decide (lo + len ≤ 2 ^ 32)
  match op with
  | 0 =>
    if !range || decide (65535 ≤ es.length) || es.any (fun e => decide (e.lo < lo + len) && decide (lo < e.lo + e.len)) then none
    else some (insertEntry new es, a.extent)
  | 1 =>
    if !range then none
    else match allParts (es.map (removeFrom a lo (lo + len))) with
      | none => none
      | some r => if 65535 < r.length then none else some (r, a.extent)
  | 2 =>
    match es.find? (fun e => decide (e.lo < lo) && decide (lo < e.lo + e.len)) with
    | none => none
    | some e =>
      if 65535 ≤ es.length then none
      else (cutEntry a e lo).map (fun p => (es.flatMap (fun f => if f == e then [p.1, p.2] else [f]), a.extent))
  | 3 =>
    if es.any (fun e => e.lo == lo && e.len == len) then
      some (es.map (fun e => if e.lo == lo && e.len == len then new else e), a.extent)
    else none
  | _ => if a.modulo && lo == 0 then none else some (es, lo)

/-! ### AXEDIT (R255, R304 to R307) -/

/-- The key of an object or a table that an edit writes, having read its first `rd` bytes (R305). -/
def Eng.editKey (g : Eng) (addr n rd : Nat) : Eng × Nat :=
  if g.status != 0 then (g, 0)
  else match g.s.globalKey g.t.node g.t.die g.l.ccn g.t.segs g.t.world addr n .rmw with
    | .error (c, d, r) => (g.failAccess c d r, 0)
    | .ok k => if g.s.poisonedAt (globLocs k rd) then (g.fail stPoison, 0) else ({ g with s := g.s.guardPhys k n }, k)

/-- The shoot-downs of an edit (R306): to every core of the node, and of every node of the object's user set. -/
def State.shootAll (s : State) (objKey node ccn handle axis : Nat) : State :=
  let set := (((s.node? (objKey / 2 ^ 52)).bind (fun d => d.users.find? (fun u => u.1 == objKey))).map Prod.snd).getD []
  let cs := s.cores.filter (fun k => k.node == node || set.contains k.node)
  { s with shoots := s.shoots ++ cs.map (fun k => ⟨k.node, k.die, k.num, .ctx node ccn, handle, axis, false⟩) }

/-- The change that an edit makes when it starts (R305, R306): its new generation is kept in the command's progress. -/
def Eng.axedit (g : Eng) : Eng :=
  let h := bits (g.d 0) 15 0
  let j := bits (g.d 0) 18 16
  let op := bits (g.d 0) 22 20
  let new : Entry := ⟨g.d 1, g.d 2, g.d 3 + bits (g.d 4) 15 0 * 2 ^ 32, bitAt (g.d 4) 16, bitAt (g.d 4) 17, bitAt (g.d 4) 18⟩
  if g.t.segs.ttcount ≤ h then g.fail stDesc
  else
    let o := g.editKey ((g.t.segs.ttbase + 128 * h) % 2 ^ 64) 128 128
    let t := tensorOf (o.1.s.mem.readN o.2 128)
    o.1.go (fun g =>
      if !t.valid || t.rank ≤ j then g.fail stDesc
      else
        let a := t.axis j
        let r := if a.count == 0 then (g, 0) else g.editKey a.table (16 * a.count) (16 * a.count)
        let es := (List.range a.count).map (fun i => entryOf (r.1.s.mem.word (r.2 + 16 * i) 16))
        r.1.go (fun g =>
          match editTable a es op (g.d 1) (g.d 2) new with
          | none => g.fail stEdit
          | some (es2, extent) =>
            let w := if es2.isEmpty then (g, 0) else g.editKey a.table (16 * es2.length) 0
            w.1.go (fun g =>
              let gen := (a.gen + 1) % 256
              let s1 := if es2.isEmpty then g.s else g.s.wrPhys w.2 (es2.flatMap (fun e => toBytes 16 e.bits)) none
              let off := o.2 + 8 + 20 * j
              let s2 := s1.wrPhys (off + 8) (toBytes 4 extent) none
              let s3 := s2.wrPhys (off + 16) (toBytes 2 es2.length ++ toBytes 1 gen) none
              { g with s := s3.shootAll o.2 g.t.node g.l.ccn h j, c := { g.c with progress := gen } })))

/-- Whether an edit still waits for a shoot-down, or for a pin taken under an older generation (R306). -/
def State.editWaits (s : State) (node ccn : Nat) (c : Cmd) : Bool :=
  let w0 := (c.ops.getD 0 0).toNat
  let h := bits w0 15 0
  let j := bits w0 18 16
  let ofCcn (q : StreamRef) : Bool := match q with
    | .team t _ => s.ccnOf t.launch == ccn
    | .ctx _ m => m == ccn
  s.shoots.any (fun x => x.edit == .ctx node ccn && x.handle == h && x.axis == j) ||
    s.streams.any (fun q => ofCcn q.ref && q.cmds.any (fun k => k.pins.any (fun p => p.handle == h && p.axis == j && p.gen != c.progress)))

/-! ### Launch records (R269, R270) -/

/-- A launch record (R269). -/
structure LaunchRec where
  next : Nat
  rcb : Nat
  krec : Nat
  ext : List Nat
  flags : Nat
  gang : Nat
  state : Nat
  paddr : Nat
  psize : Nat
  doneVal : Nat
  doneAddr : Nat
  sched : Nat
  rest : Nat
  deriving DecidableEq, Repr

/-- The launch record of 128 bytes (R269). -/
def launchRecOf (bs : List Byte) : LaunchRec :=
  let f (o n : Nat) : Nat := ofBytes ((bs.drop o).take n)
  ⟨f 0 8, f 8 8, f 0x10 8, [f 0x18 4, f 0x1C 4, f 0x20 4], f 0x24 4, f 0x28 4, f 0x2C 4, f 0x30 8, f 0x38 4, f 0x3C 4, f 0x40 8,
   f 0x48 8, f 0x50 48⟩

/-- The items of a record: the product of its extents. -/
def LaunchRec.items (r : LaunchRec) : Nat := r.ext.foldl (· * ·) 1

/-- EXTENT of R270: an extent is 0, or the item count exceeds 2^40. -/
def LaunchRec.badExtent (r : LaunchRec) : Bool := r.ext.any (· == 0) || decide (2 ^ 40 < r.items)

/-- The limits of PSIZE, DIE, FLAGS, GANGID, SCHED, DONEADDR and the reserved bytes (R269, R270); `hosted` is MODES bit 17. -/
def LaunchRec.badParam (r : LaunchRec) (hosted : Bool) : Bool :=
  (!bitAt r.flags 2 && r.gang != 0) || ((!bitAt r.flags 2 || hosted) && r.sched != 0) || decide (96 < r.psize) || r.psize % 4 != 0 || (decide (4 ≤ bits r.flags 11 8) && decide (bits r.flags 11 8 ≤ 14)) ||
    bits r.flags 7 3 != 0 || bits r.flags 31 12 != 0 || r.rest != 0 || r.doneAddr % 4 != 0

/-- Append a record to a launch queue (R269): the exchange of TAIL, then HEAD or NEXT of the old tail. -/
def State.lqAppend (s : State) (node die ccn : Nat) (segs : SegTable) (world : Bool) (lq rec : Nat) : Except (Nat × Nat × Bool) State :=
  match s.globalKey node die ccn segs world ((lq + 8) % 2 ^ 64) 8 .rmw with
  | .error e => .error e
  | .ok kt =>
    let old := s.mem.word kt 8
    let s1 := s.wrPhys kt (toBytes 8 rec) none
    match s1.globalKey node die ccn segs world (if old == 0 then lq else old) 8 .write with
    | .error e => .error e
    | .ok kn => .ok (s1.wrPhys kn (toBytes 8 rec) none)

/-- LAUNCH (R257): the record is read as one unit and appended to the queue of the context that it names. -/
def Eng.launch (g : Eng) : Eng :=
  let addr := g.d 0 + 2 ^ 32 * g.d 1
  let r := g.readMem addr 128
  r.1.go (fun g =>
    let rec_ := launchRecOf r.2
    let chain := g.s.rcbChain g.t.node rec_.rcb
    let ctx := (chain.find? (fun c => g.s.rcbWord g.t.node c 0x30 8 != 0)).getD 0
    let hosted := bitAt (g.s.rcbWord g.t.node (g.s.rcbOwner g.t.node 3 chain) 12 4) 17
    if ctx == 0 || !chain.any (sameAddr g.t.node g.l.region.ctxRcb) || rec_.badExtent || rec_.badParam hosted then g.fail stDesc
    else
      let g1 := if rec_.next == 0 then g else g.writeMem addr (toBytes 8 0)
      let segs := g1.s.segTable g1.t.node (g1.s.rcbWord g1.t.node ctx 0x30 8)
      g1.go (fun g => match g.s.lqAppend g.t.node g.t.die g.l.ccn segs g.t.world (g.s.rcbWord g.t.node ctx 0x38 8) addr with
        | .error (c, d, m) => g.failAccess c d m
        | .ok s1 => { g with s := s1 }))

/-! ### Generations (R369) -/

/-- The packet lifetime LT in nanoseconds (R358). -/
def lifetime : Nat := 1000000

/-- δ(g) against CUR, as a signed 16-bit value (R369). -/
def genDelta (cur g : Nat) : Int := toSigned 16 (g + 65536 - cur % 65536)

/-- The generation window of a context on a node; CUR is 0 when the context is created. -/
def Node.gener (d : Node) (ccn : Nat) : Gener := (d.geners.find? (fun x => x.ccn == ccn)).getD ⟨ccn, 0, []⟩

/-- Set a generation window. -/
def Node.setGener (d : Node) (x : Gener) : Node := { d with geners := x :: d.geners.filter (fun y => y.ccn != x.ccn) }

/-- The generations of the window of CUR. -/
def genWindow (cur : Nat) : List Nat := (List.range 16).map (fun i => (cur + 65536 - i) % 65536)

/-- Advance CUR to g: each generation that leaves the window is retired at the present time (R369). -/
def Gener.advance (x : Gener) (g now : Nat) : Gener :=
  let gone := (genWindow x.cur).filter (fun n => !(genWindow g).contains n)
  { x with cur := g, retired := gone.map (fun n => (n, now)) ++ x.retired.filter (fun p => !gone.contains p.1) }

/-- Whether a generation is still held as retired. -/
def Gener.isRetired (x : Gener) (g : Nat) : Bool := x.retired.any (fun p => p.1 == g)

/-! ### DISP (R254, R365 to R367) -/

/-- The routing entry of an expert, read once (R365, R366). -/
def Eng.route (g : Eng) (table expert : Nat) : Eng × Option Nat :=
  let n := (g.s.node? g.t.node).getD (Node.reset g.t.node)
  match n.routes.find? (fun r => r.die == g.t.die && r.ccn == g.l.ccn && r.table == table) with
  | none => (g, none)
  | some r =>
    if r.count ≤ expert then (g, none)
    else if bitAt g.l.region.modes 18 then
      (g, (n.hostRoutes.find? (fun w => w.die == g.t.die && w.ccn == g.l.ccn && w.table == table && w.expert == expert)).map (·.w.toNat))
    else
      let b := g.readMem ((r.addr + 8 * expert) % 2 ^ 64) 8
      (b.1, some (ofBytes b.2))

/-- Flits of a token (R358, R367). -/
def Token.flits (t : Token) : Nat := ceilDiv t.payload.length 64

/-- Whether two tokens may share a packet: one ring descriptor, one context and one generation (R367). -/
def Token.shares (a b : Token) : Bool := a.ring == b.ring && a.ccn == b.ccn && a.gen == b.gen

/-- The tokens at the front of a queue that one packet takes, at most `room` flits; a token above 256 bytes has packets of its own. -/
def packFront (first : Token) : Nat → List Token → List Token
  | _, [] => []
  | room, t :: ts => if first.shares t && decide (t.flits ≤ room) then t :: packFront first (room - t.flits) ts else []

/-- Whether the front of a send queue fills a packet: four flits or more, or a next token that cannot join (R367). -/
def sendReady (ts : List Token) : Bool :=
  match ts with
  | [] => false
  | t :: rest =>
    let p := packFront t 4 (t :: rest)
    decide (p.length < ts.length) || decide (4 ≤ (p.map Token.flits).foldl (· + ·) 0)

/-- The pieces of a token above 256 bytes, of 256 bytes each but the last (R367). -/
def Token.pieces (t : Token) : List Token :=
  let n := ceilDiv t.payload.length 256
  (List.range n).map (fun i => { t with payload := (t.payload.drop (256 * i)).take 256, more := decide (i + 1 < n) })

/-- The packet of some tokens of a queue; the tokens for the own NODE stay on the node (R359). -/
def SendQ.packet (q : SendQ) (node : Nat) (t : Token) (ts : List Token) : Packet :=
  { num := 0, stream := ⟨.dispatch, node, q.die, q.dst⟩, addr := t.ring, ccn := t.ccn, world := t.world, time := 0, wave := none,
    pend := t.gen, op := none, tokens := ts, rcb := t.srcRcb, fdom := t.srcFdom }

/-- Send the packets of the front of a queue: a token above 256 bytes takes consecutive packets (R367). -/
def State.sendFront (s : State) (node : Nat) (q : SendQ) : State × SendQ :=
  match q.tokens with
  | [] => (s, q)
  | t :: rest =>
    if 4 < t.flits then
      (t.pieces.foldl (fun (s : State) p => s.send (q.packet node t [p])) s, { q with tokens := rest })
    else
      let p := packFront t 4 (t :: rest)
      (s.send (q.packet node t p), { q with tokens := q.tokens.drop p.length })

/-- Send every packet of a queue that is ready, at most `fuel` of them. -/
def State.sendReadyAll (s : State) (node : Nat) : Nat → SendQ → State × SendQ
  | 0, q => (s, q)
  | fuel + 1, q =>
    if !q.blocked && sendReady q.tokens then
      let r := s.sendFront node q
      r.1.sendReadyAll node fuel r.2
    else (s, q)

/-- The send queue of a die for a destination. -/
def Node.sendq (d : Node) (die dst : Nat) : SendQ := (d.sendqs.find? (fun q => q.die == die && q.dst == dst)).getD ⟨die, dst, [], false, 0⟩

/-- Set a send queue. -/
def Node.setSendq (d : Node) (q : SendQ) : Node :=
  { d with sendqs := if d.sendqs.any (fun p => p.die == q.die && p.dst == q.dst) then
      d.sendqs.map (fun p => if p.die == q.die && p.dst == q.dst then q else p) else d.sendqs ++ [q] }

/-- Send what is ready of a node's queue. -/
def State.pumpQueue (s : State) (node die dst : Nat) : State :=
  match s.node? node with
  | none => s
  | some d =>
    let q := d.sendq die dst
    let r := s.sendReadyAll node (q.tokens.length + 1) q
    r.1.modNode node (fun d => d.setSendq r.2)

/-- Hand a token to Geyser: it enters its destination's send queue (R367). -/
def State.handToken (s : State) (node die dst : Nat) (t : Token) : State :=
  (s.modNode node (fun d => let q := d.sendq die dst; d.setSendq { q with tokens := q.tokens ++ [t], since := s.time })).pumpQueue node die dst

/-- Take one lane's token (R254, R366). -/
def Eng.dispLane (g : Eng) (l : Nat) : Eng :=
  let table := bits (g.d 0) 3 0
  let tokb := g.d 1
  let r := g.route table (g.lane0 l)
  r.1.go (fun g =>
    match r.2 with
    | none => g.fail stIndex
    | some e =>
      if !bitAt e 63 then g.fail stIndex
      else if bits e 50 44 != 0 || bits e 62 55 == 255 then g.fail stDesc
      else
        let p := g.readScr (g.lane1 l) tokb
        p.1.go (fun g =>
          let ring := bits e 62 55 * 2 ^ 56 + bits e 54 51 * 2 ^ 52 + bits e 43 0 * 256
          let tok : Token :=
            { ring := BitVec.ofNat 64 ring, ccn := g.l.ccn, world := g.t.world, gen := bits (g.d 2) 15 0, payload := p.2, more := false,
              srcNode := g.t.node, srcRcb := g.l.region.rcb, srcFdom := g.l.region.fdom, seq := g.c.seq, wref := g.where_ }
          { g with s := g.s.handToken g.t.node g.t.die (bits e 62 55) tok, c := { g.c with progress := g.c.progress + 1 } }))

/-- The window of DISP's context on its node. -/
def Eng.gener (g : Eng) : Gener := ((g.s.node? g.t.node).map (fun d => d.gener g.l.ccn)).getD ⟨g.l.ccn, 0, []⟩

/-- DISP (R254, R369): the generation, then the tokens in ascending lane order. -/
def Eng.disp (g : Eng) : Eng :=
  let gen := bits (g.d 2) 15 0
  let x := g.gener
  let dl := genDelta x.cur gen
  if dl ≤ -16 then g.fail stIndex
  else
    let s1 := if 0 < dl then g.s.modNode g.t.node (fun d => d.setGener (x.advance gen g.s.time)) else g.s
    (maskLanes g.c.mask).foldl (fun (g : Eng) l => g.go (fun g => g.dispLane l)) { g with s := s1 }

/-- Whether a DISP waits for its generation's retirement to be LT old (R369). -/
def Eng.dispWaits (g : Eng) : Bool :=
  let gen := bits (g.d 2) 15 0
  decide (-16 < genDelta g.gener.cur gen) && g.gener.isRetired gen

end Sys2Proof.Machine
end

