-- ==== Sys2Proof/Machine/Engines.lean ====
section
/-! DEFINITION. Engines at work: which command starts and completes, completion signals, failures, halts, resets and joins
(R75, R207, R218 to R228, R308, R341). -/
namespace Sys2Proof.Machine
open Sys2Proof

/-! ### Parties of a command -/

/-- The team of the wave that issued a command. -/
def Cmd.team (c : Cmd) : Option TeamRef := c.wave.map (·.team)

/-- Whether a context is held under a save image. -/
def State.ctxHeld (s : State) (node ccn : Nat) : Bool := s.ctxs.any (fun c => c.node == node && c.ccn == ccn && c.held.isSome)

/-- Whether the engines work for a stream: its team is placed and its context runs (R228, R343). -/
def State.streamRuns (s : State) (q : StreamRef) : Bool :=
  match q with
  | .team t _ => (s.team? t).any (fun m => m.core.isSome && !m.saved && !s.ctxHeld m.node (s.ccnOf t.launch))
  | .ctx node ccn => !s.ctxHeld node ccn

/-- The engine's view of a command. -/
def State.engOf (s : State) (c : Cmd) : Option Eng :=
  match c.team.bind s.team?, (c.team.bind (fun t => s.launch? t.launch)) with
  | some t, some l => some { s := s, t := t, l := l, c := c, pins := c.pins }
  | _, _ => none

/-! ### Joins (R207) -/

/-- The stream of a command's team in a queue. -/
def State.teamStream (s : State) (t : TeamRef) (q : Queue) : StreamRef :=
  streamRef t (((s.team? t).map (·.node)).getD 0) (s.ccnOf t.launch) q

/-- Whether a command is the join of an id. -/
def Cmd.isJoin (c : Cmd) (id : Nat) : Bool := c.join.any (fun j => j.1 == id)

/-- Whether a join's part in a stream is reached: no command precedes it there and the stream is not halted, or the stream has been
reset. -/
def Stream.joinReached (q : Stream) (id : Nat) : Bool :=
  (!q.halted && (q.cmds.takeWhile (fun c => !c.isJoin id)).all (fun c => c.join.isSome)) || !q.cmds.any (fun c => c.isJoin id)

/-- Whether a join is satisfied: it is reached in every queue that it names. -/
def State.joinSatisfied (s : State) (c : Cmd) : Bool :=
  match c.team, c.join with
  | some t, some (id, qs) => qs.all (fun q => (s.streamOf (s.teamStream t q)).joinReached id)
  | _, _ => false

/-- Subtract 1 from a flag of a wave (R25). -/
def State.lowerFlag (s : State) (r : WaveRef) (n : Nat) : State :=
  { s with waves := s.waves.map (fun w => if w.ref == r then { w with flags := updFile 0 w.flags n (· - 1) } else w) }

/-- Lower the flag that a command or a join names. -/
def State.lowerOf (s : State) (c : Cmd) : State :=
  match c.wave, c.done with
  | some r, .flag n => s.lowerFlag r n
  | _, _ => s

/-- Change the parts of a join in every stream. -/
def State.mapJoin (s : State) (id : Nat) (f : Cmd → Option Cmd) : State :=
  { s with streams := s.streams.map (fun q => { q with cmds := q.cmds.filterMap (fun c => if c.isJoin id then f c else some c) }) }

/-- The first satisfied join of a stream leaves its queues, and its flag falls (R207). -/
def State.settleJoin (s : State) (q : StreamRef) : Option State :=
  ((s.streamOf q).cmds.find? (fun c => c.join.isSome && s.joinSatisfied c)).map (fun c =>
    (s.lowerOf c).mapJoin ((c.join.map Prod.fst).getD 0) (fun _ => none))

/-! ### Failures and resets (R226, R341) -/

/-- A queue covered by joins halts: their flags fall, once each (R25, R207). -/
def State.haltJoins (s : State) (cs : List Cmd) : State :=
  cs.foldl (fun s c => match c.join with
    | none => s
    | some (id, _) => (s.lowerOf c).mapJoin id (fun d => some { d with done := .none })) s

/-- Reset a stream (R341): every command is discarded, and the stream performs new commands. -/
def State.resetStream (s : State) (q : StreamRef) : State :=
  let st := s.streamOf q
  let s1 := st.cmds.foldl (fun s c => s.lowerOf c) s
  let s2 := (st.cmds.filter (fun c => c.join.isSome)).foldl (fun s c =>
    s.mapJoin ((c.join.map Prod.fst).getD 0) (fun d => some { d with done := .none })) s1
  let s3 := s2.putStream { st with cmds := [], halted := false, resetOn := none,
                                   failed := st.failed ++ (st.cmds.filter (fun c => c.join.isNone)).map (·.seq) }
  ((st.cmds.filterMap Cmd.team).eraseDups).foldl (fun s t => s.checkRetire t) s3

/-- The fault record of a failed command (R226, R339), at a time. -/
def Eng.record (g : Eng) (status time : Nat) : Record := ⟨2, status, g.l.region.rcb, 0, g.where_, 0, g.c.seq, 0, 0, time⟩

/-- A command fails (R226): its flag falls, its record is queued and its stream halts. The stream is reset once the record has been
published when MODES bit 19 is clear, and by the host otherwise (R341). -/
def State.failCmd (s : State) (q : StreamRef) (g : Eng) (status : Nat) : State :=
  let rec_ := g.record status s.time
  let s1 := (s.publish g.t.node g.l.region.fdom rec_).lowerOf g.c
  let st := s1.streamOf q
  let rest := st.cmds.filter (fun c => !(c.seq == g.c.seq && c.join.isNone))
  let halt : Stream := { st with cmds := rest, halted := true, resetOn := if bitAt g.l.region.modes 19 then none else some rec_,
                                 failed := st.failed ++ [g.c.seq] }
  ((s1.putStream halt).haltJoins rest).checkRetire g.t.ref

/-- Reset the streams that wait for a fault record that has now been published (R341). -/
def State.resetPublished (s : State) (r : Record) : State :=
  ((s.streams.filter (fun q => q.halted && q.resetOn == some r)).map (·.ref)).foldl (fun s q => s.resetStream q) s

/-! ### Completion signals (R75, R76, R361, R362) -/

/-- A completion word that fails a check is dropped: the record of R362, and the notice of a failed world check (R374). -/
def State.droppedWord (s : State) (g : Eng) (cause detail : Nat) : State :=
  let s1 := s.publish g.t.node g.l.region.fdom (g.record stRemote s.time)
  if cause == 7 then s1.worldNotice g.t.node (cause + 256 * detail) g.l.region.rcb g.where_ else s1

/-- A completion word of 4 bytes in a team's scratchpad, through a window if one covers it (R172). -/
def State.scrWord (s : State) (g : Eng) (t : Team) (off : Nat) (v : Nat) : State :=
  match s.windowFault t off 4 with
  | some (c, d, _) => s.droppedWord g c d
  | none => s.writeAt (s.scrLocs t off 4) (toBytes 4 v) none

/-- Signal a completion, after the last byte of the payload (R75). -/
def State.signal (s : State) (g : Eng) : State :=
  let t := (s.team? g.t.ref).getD g.t
  match g.c.done with
  | .flag n => match g.c.wave with
    | some r => s.lowerFlag r n
    | none => s
  | .ws off v => s.scrWord g t off v.toNat
  | .wsa off v => s.scrWord g t off (s.numAt (s.scrLocs t off 4) + v.toNat)
  | .wc a v => match s.clusterTeam t a.toNat with
    | some u => s.scrWord g u (a.toNat % 2 ^ 21) v.toNat
    | none => s
  | .wg a v => match s.resolve t.node t.segs t.world a.toNat 4 .write with
    | .ok k => s.wrPhys k (toBytes 4 v.toNat) none
    | .trap c d => s.droppedWord g c d
    | .remote node => s.send { num := 0, stream := ⟨.request, t.node, t.die, node⟩, addr := a, ccn := g.l.ccn, world := t.world, time := 0,
                               wave := none, pend := g.c.seq, op := some (.word v g.where_), tokens := [], rcb := g.l.region.rcb,
                               fdom := g.l.region.fdom }
  | .none => s

/-! ### Starting and completing (R223, R225, R226) -/

/-- The payload of a command (R233 to R257): what its engine does between start and completion. ATTN and AXEDIT finish when they
complete. -/
def Eng.payload (g : Eng) : Eng :=
  match g.c.word.maj, exTy (if g.c.exw == 0 then none else some (Ex.ofWord g.c.exw)) with
  | 0x78, 0 => g.copy
  | 0x78, 1 => g.copyx
  | 0x78, 2 => g.gath
  | 0x78, _ => g.scatx
  | 0x79, 0 => g.mma
  | 0x79, 1 => g.mmab
  | 0x79, _ => g.mmas
  | 0x7A, 0 => g.attnMain
  | 0x7A, 1 => g.attnfin
  | 0x7A, _ => g.fold
  | _, 0 => g.disp
  | _, 1 => g.axedit
  | _, 2 => g
  | _, _ => g.launch

/-- Whether a command is the member of a family. -/
def Cmd.is (c : Cmd) (maj mem : Nat) : Bool :=
  c.word.maj == maj && exTy (if c.exw == 0 then none else some (Ex.ofWord c.exw)) == mem

/-- The first command of a stream, and whether a join of its own team stands before it (R207, R219). -/
def Stream.front (q : Stream) : Option Cmd :=
  match q.cmds.find? (fun c => c.join.isNone) with
  | none => none
  | some c => if (q.cmds.takeWhile (fun d => d.join.isSome)).any (fun d => d.team == c.team) then none else some c

/-- What the predecessor of a held command has come to (R225): `none` while it is queued. -/
def State.predOf (s : State) (c : Cmd) : Option Bool :=
  match c.state, c.pred, c.team with
  | .held, some (q, seq), some t =>
    let st := s.streamOf (s.teamStream t q)
    if st.failed.contains seq then some false
    else if st.cmds.any (fun d => d.seq == seq && d.join.isNone) then none else some true
  | _, _, _ => some true

/-- Replace a command of a stream. -/
def State.putCmd (s : State) (q : StreamRef) (c : Cmd) : State :=
  let st := s.streamOf q
  s.putStream { st with cmds := st.cmds.map (fun d => if d.seq == c.seq && d.join.isNone then c else d) }

/-- Whether a command waits to start. -/
def CmdState.waits : CmdState → Bool
  | .queued => true
  | .held => true
  | .started _ => false

/-- Whether a command's accesses of memory, made at once, have to wait for the requests of its die under way (R357; log 14); the
matrix commands reach other nodes through stash windows only. -/
def Eng.behind (g : Eng) : Bool := g.s.dieSends g.t.node g.t.die && (g.c.word.maj != 0x79 || g.s.windowsAway g.t.node g.t.die)

/-- The command that may start in a stream, with its engine. -/
def State.startable (s : State) (q : StreamRef) : Option Eng :=
  let st := s.streamOf q
  if st.halted || !s.streamRuns q then none
  else match st.front with
    | none => none
    | some c =>
      if !c.state.waits || (s.predOf c).isNone then none
      else match s.engOf c with
        | none => none
        | some g => if s.predOf c == some true && g.behind then none else some g

/-- An engine starts the next command of a stream (R223, R225): its payload is performed, its status kept for its completion. -/
def State.engineStart (s : State) (q : StreamRef) : State :=
  match s.startable q with
  | none => s
  | some g =>
    if s.predOf g.c == some false then s.putCmd q { g.c with state := .started stPred }
    else if g.c.is 0x7B 0 && g.dispWaits then s
    else
      let r := g.payload
      r.s.putCmd q { r.c with state := .started r.status, pins := r.pins }

/-- ENGINE_COMMAND_START (R223). -/
def execEngineCommandStart (q : StreamRef) (s : State) : Host.Outcome State Fault Refusal := settle (s.engineStart q)

/-- Hand the pins of a completed COPY or COPYX to the held commands that name it as predecessor (R225, R308). -/
def State.passPins (s : State) (g : Eng) : State :=
  if g.c.pins.isEmpty || !(g.c.is 0x78 0 || g.c.is 0x78 1) then s
  else
    { s with streams := s.streams.map (fun q => { q with cmds := q.cmds.map (fun c =>
        if c.state == .held && c.pred == some (.copy, g.c.seq) && c.team == g.c.team then { c with pins := c.pins ++ g.c.pins } else c) }) }

/-- Complete a command: the signal, after which it leaves its stream (R75, R223). -/
def State.finishCmd (s : State) (q : StreamRef) (g : Eng) : State :=
  let s1 := s.signal g
  let st := s1.streamOf q
  let s2 := s1.putStream { st with cmds := st.cmds.filter (fun c => !(c.seq == g.c.seq && c.join.isNone)) }
  (s2.passPins g).checkRetire g.t.ref

/-- A command whose payload has been performed completes or fails; or a join of the stream is satisfied (R75, R207, R226). -/
def State.engineComplete (s : State) (q : StreamRef) : State :=
  match s.settleJoin q with
  | some s1 => (((s.streamOf q).cmds.filterMap Cmd.team).eraseDups).foldl (fun s t => s.checkRetire t) s1
  | none =>
    let st := s.streamOf q
    if st.halted || !s.streamRuns q then s
    else match st.front with
      | none => s
      | some c => match c.state, s.engOf c with
        | .started 0, some g =>
          if c.is 0x7B 1 && s.editWaits g.t.node g.l.ccn c then s
          else if c.is 0x7A 0 && g.behind then s
          else if c.is 0x7A 0 then
            let e := g.attnEnd
            if e.status == 0 then e.s.finishCmd q g else e.s.failCmd q g e.status
          else s.finishCmd q g
        | .started n, some g => s.failCmd q g n
        | _, _ => s

/-- ENGINE_COMMAND_COMPLETE (R75). -/
def execEngineCommandComplete (q : StreamRef) (s : State) : Host.Outcome State Fault Refusal := settle (s.engineComplete q)

/-! ### Shoot-downs (R306) -/

/-- A shoot-down arrives at its core: the object and every cached entry of the axis leave its caches (R306). -/
def State.shootArrive (s : State) (i : Nat) : State :=
  match s.shoots[i]? with
  | none => s
  | some x =>
    let ccn := match x.edit with
      | .ctx _ c => c
      | .team _ _ => 0
    { s with shoots := modAt s.shoots i (fun y => { y with arrived := true }) }.modCore x.node x.die x.core (fun k =>
      { k with objs := k.objs.filter (fun o => !(o.1 == ccn && o.2.1 == x.handle)),
               atc := k.atc.filter (fun e => !(e.1 == ccn && e.2.1 == x.handle && e.2.2.1 == x.axis)) })

/-- SHOOT_DOWN (R306). -/
def execShootDown (i : Nat) (s : State) : Host.Outcome State Fault Refusal := settle (s.shootArrive i)

/-- Whether a core has accesses under way that it translated before (R306): those of a team that has left its core, or has ended, may
be any core's of the die. -/
def State.coreBusy (s : State) (node die core : Nat) : Bool :=
  s.packets.any (fun p => p.stream.cls == .request && p.stream.node == node && p.stream.die == die &&
    p.wave.any (fun r => (s.team? r.team).all (fun t => t.core.all (fun c => c == core))))

/-- A core acknowledges a shoot-down once the accesses that it had translated have been performed (R306). -/
def State.shootAck (s : State) (i : Nat) : State :=
  match s.shoots[i]? with
  | none => s
  | some x => if x.arrived && !s.coreBusy x.node x.die x.core then { s with shoots := s.shoots.eraseIdx i } else s

/-- SHOOT_DOWN_ACKNOWLEDGE (R306). -/
def execShootDownAcknowledge (i : Nat) (s : State) : Host.Outcome State Fault Refusal := settle (s.shootAck i)

/-! ### Waiting for a generation (R369) -/

/-- A DISP that waits for its generation's retirement goes on once LT has passed since it (R369). -/
def State.retireWait (s : State) (q : StreamRef) : State :=
  match s.startable q with
  | none => s
  | some g =>
    let gen := bits (g.d 2) 15 0
    if g.c.is 0x7B 0 && g.dispWaits && g.gener.retired.all (fun p => p.1 != gen || decide (p.2 + lifetime ≤ s.time)) then
      s.modNode g.t.node (fun d => d.setGener { g.gener with retired := g.gener.retired.filter (fun p => p.1 != gen) })
    else s

/-- GENERATION_RETIRE_WAIT (R369). -/
def execGenerationRetireWait (q : StreamRef) (s : State) : Host.Outcome State Fault Refusal := settle (s.retireWait q)

end Sys2Proof.Machine
end

