-- ==== Sys2Proof/Machine/Place.lean ====
section
/-! DEFINITION. The distributor: launch taking (R268 to R271), placement and row budgets (R275 to R280), pre-emption by priority,
deficit and split (R279, R291, R292). -/
namespace Sys2Proof.Machine
open Sys2Proof

/-! ### Slots and rows on a core (R275, R277, R278) -/

/-- The lowest free wave slots of a partition for some waves, in ascending wave number (R275). -/
def takeSlots (used : List (Nat × Nat)) : List Nat → Option (List (Nat × Nat))
  | [] => some []
  | w :: ws =>
    match (List.range 16).find? (fun i => !used.contains (w % 4, i)) with
    | none => none
    | some i => (takeSlots ((w % 4, i) :: used) ws).map (fun r => (w, i) :: r)

/-- The row budget of each wave of a team on a core (R278). -/
def rowBudget (u : CoreUse) (ws : List (Nat × Nat)) (p : Nat × Nat) : Nat :=
  let n := (ws.filter (fun (q : Nat × Nat) => q.1 % 4 == p.1 % 4)).length
  min p.2 (8 * ((512 - u.rows.getD (p.1 % 4) 0) / (8 * max 1 n)))

/-- Place a team's waves on a core (R277, R278): each wave's slot and row budget, if every condition of the core holds. -/
def fitOn (u : CoreUse) (k : Kernel) (ws : List (Nat × Nat)) : Option (List (Nat × Nat × Nat)) :=
  let bs := ws.map (rowBudget u ws)
  let spill := ((ws.zip bs).map (fun p => (p.1.2 - p.2) * 128)).foldl (· + ·) 0
  if k.split * 65536 < u.scr + k.alloc || 65536 < u.acm + k.acm || bs.any (fun b => decide (b < 8)) ||
      (24 - k.split) * 65536 < u.spill + spill then none
  else (takeSlots u.slots (ws.map Prod.fst)).map (fun ss => (ss.zip bs).map (fun p => (p.1.1, p.1.2, p.2)))

/-! ### Budgets (R267, R277) -/

/-- The regions of a launch from its own up to its context (R267). -/
def State.budgetChain (s : State) (l : Launch) : List Nat :=
  let c := s.rcbChain l.node l.region.rcb
  c.takeWhile (fun r => r != l.region.ctxRcb) ++ [l.region.ctxRcb]

/-- Bytes that a placed team counts against MEMB. -/
def State.teamBytes (s : State) (t : Team) (k : Kernel) : Nat :=
  k.alloc + 4 * k.acm + (s.teamWaves t k).foldl (fun (n : Nat) (p : Nat × Nat) => n + (p.2 - s.rowsOf t p.1) * 128) 0

/-- Whether a region has room for one more team of `bytes` bytes on a core (R266, R277). -/
def State.regionRoom (s : State) (node die core bytes r : Nat) : Bool :=
  match s.region? node r with
  | none => false
  | some v =>
    let mine := s.teams.filter (fun t => t.core.isSome && t.node == node && (s.launch? t.ref.launch).any (fun l => (s.budgetChain l).any (sameAddr node r)))
    let cores := ((mine.filter (fun t => t.die == die)).filterMap (·.core)).eraseDups
    let held := mine.foldl (fun (n : Nat) t => n + (((s.launch? t.ref.launch).map (fun l => s.teamBytes t l.kernel)).getD 0)) 0
    decide ((if cores.contains core then cores.length else cores.length + 1) ≤ v.cores) && decide (held + bytes ≤ v.memb)

/-! ### Where a team may go (R105, R277, R279) -/

/-- The core of a staged kernel's team (R105), none where the kernel has no stage for it. -/
def stageCore (base : Nat) : List (Nat × Nat) → Nat → Option Nat
  | [], _ => none
  | (n, start) :: t, tm => if tm < n then some (base + start + tm) else stageCore base t (tm - n)

/-- The logical cores of a die. -/
def State.coresOf (s : State) (node die : Nat) : List Nat := List.range (min 160 (enabledCores (s.disabledOf node die)).length)

/-- The cores that a team may go to, in order (R277). -/
def State.candidates (s : State) (l : Launch) (tm : Nat) : List Nat :=
  if l.kernel.stages.isEmpty then s.coresOf l.node l.die
  else (stageCore l.kernel.base l.kernel.stages tm).toList

/-- Whether a core's split and world admit a team (R277, R279). -/
def State.coreAdmits (s : State) (node die core split : Nat) (world : Bool) : Bool :=
  (s.teamsOn node die core).isEmpty || (s.core? node die core).any (fun k => k.split == split && k.world == world)

/-- The placement of a team on a core, if every condition of R277 holds. -/
def State.fitTeam (s : State) (t : Team) (l : Launch) (core : Nat) : Option (List (Nat × Nat × Nat)) :=
  if !s.coreAdmits l.node l.die core l.kernel.split t.world then none
  else
    let ws := s.teamWaves t l.kernel
    match fitOn (s.coreUse l.node l.die core) l.kernel ws with
    | none => none
    | some p =>
      let bytes := l.kernel.alloc + 4 * l.kernel.acm +
        ((ws.zip p).map (fun (q : (Nat × Nat) × (Nat × Nat × Nat)) => (q.1.2 - q.2.2.2) * 128)).foldl (· + ·) 0
      if (s.budgetChain l).all (s.regionRoom l.node l.die core bytes) then some p else none

/-- The first core that a team fits on, with its waves' slots and budgets. -/
def State.findCore (s : State) (t : Team) (l : Launch) : Option (Nat × List (Nat × Nat × Nat)) :=
  (s.candidates l t.ref.tm).findSome? (fun c => (s.fitTeam t l c).map (fun p => (c, p)))

/-- Put a core on record with the split and world of its first team (R279), and MTDONE as that team brings it: 0, or what its
save image holds (R9, R28); a change of world empties its translation caches (R371). -/
def State.claimCore (s : State) (node die core split : Nat) (world : Bool) (mt : Nat × Nat) : State :=
  if (s.core? node die core).isNone then { s with cores := s.cores ++ [⟨node, die, core, split, world, mt.1, mt.2, [], []⟩] }
  else if (s.teamsOn node die core).isEmpty then
    s.modCore node die core (fun k =>
      { k with split := split, world := world, mtSeq := mt.1, mtCount := mt.2,
               objs := if k.world == world then k.objs else [], atc := if k.world == world then k.atc else [] })
  else s

/-- The slots of a team as a list by wave number. -/
def slotList (n : Nat) (p : List (Nat × Nat × Nat)) : List (Nat × Nat) :=
  (List.range n).map (fun w => ((p.find? (fun (q : Nat × Nat × Nat) => q.1 == w)).map Prod.snd).getD (0, 8))

/-- The deficit of a context on a die (R291): a turn of the round begins when it is placed with none left. -/
def State.takeTurn (s : State) (l : Launch) : State :=
  { s with ctxs := s.ctxs.map (fun c => if l.ofCtx c.node c.ccn && decide (c.deficit.getD l.die 0 ≤ 0) then
      { c with deficit := modAt c.deficit l.die (fun d => d + (l.region.slice : Int)) } else c) }

/-- A launch with its region as the sequencer reads it again when it places a team (R268). -/
def State.reread (s : State) (l : Launch) : Launch := { l with region := (s.region? l.node l.region.rcb).getD l.region }

/-- Give the launches of a region the values that have just been read for it (R268, R364). -/
def State.spreadRegion (s : State) (node : Nat) (r : Region) : State :=
  { s with launches := s.launches.map (fun m => if m.node == node && sameAddr node m.region.rcb r.rcb then { m with region := r } else m) }

/-- Load a team on a core (R275, R277, R278, R293): its region and segment table are read again, and its waves take slots and rows. A
saved team still has to resume. -/
def State.loadAt (s : State) (t : Team) (l : Launch) (core : Nat) (p : List (Nat × Nat × Nat)) : State :=
  let region := (s.region? l.node l.region.rcb).getD l.region
  let segs := s.segTable l.node (s.rcbWord l.node region.ctxRcb 0x30 8)
  let n := waveCount l.kernel.shape
  let s1 := ((s.claimCore l.node l.die core l.kernel.split t.world t.mt).setLaunch { l with region := region }).spreadRegion l.node region
  let s2 := s1.setTeam { t with core := some core, placeTime := s.time, segs := segs, slots := slotList n p }
  let place (w : Wave) : Wave :=
    match (if w.ref.team == t.ref then p.find? (fun (q : Nat × Nat × Nat) => q.1 == w.ref.num) else none) with
    | none => w
    | some q => { w with slot := q.2.1, rowBudget := q.2.2, readyAt := s.time }
  ({ s2 with waves := s2.waves.map place }).takeTurn l

/-- A team that has been loaded goes on: a saved one resumes (R349). -/
def State.startTeam (s : State) (t : Team) : State :=
  if t.saved then (s.modTeam t.ref (fun m => { m with saved := false })).resumeTeam t.ref else s

/-- Place a team on a core: it is loaded, and goes on. -/
def State.placeAt (s : State) (t : Team) (l : Launch) (core : Nat) (p : List (Nat × Nat × Nat)) : State :=
  (s.loadAt t l core p).startTeam t

/-- Whether a launch is placed as a whole (R280, R291): COTEAM, or a gang's. -/
def Launch.whole (l : Launch) : Bool := bitAt l.flags 0 || bitAt l.flags 2

/-- Place some teams of a launch, or none of them: a team's world is that of its region as it is read now (R268, R371). With `hold` the
teams are loaded only, and go on later (R350). -/
def State.placeAll (s : State) (n : Nat) (hold : Bool) : List TeamRef → Option State
  | [] => some s
  | r :: rs =>
    match s.team? r, s.launch? n with
    | some t0, some l0 =>
      let l := s.reread l0
      let t := { t0 with world := l.region.world }
      match s.findCore t l with
      | none => none
      | some (c, p) => (if hold then s.loadAt t l c p else s.placeAt t l c p).placeAll n hold rs
    | _, _ => none

/-- Whether a team waits for placement: its context runs and its launch is not held. -/
def State.waiting (s : State) (t : Team) : Bool :=
  t.core.isNone && (s.launch? t.ref.launch).any (fun l => !l.held && !s.ctxHeld l.node l.ccn)

/-- The teams that are placed together with a team (R280). -/
def State.unitOf (s : State) (t : Team) (l : Launch) : List TeamRef :=
  if l.whole then (s.teams.filter (fun u => u.ref.launch == l.num && u.core.isNone)).map (·.ref) else [t.ref]

/-- Place a waiting team, with the teams that are placed with it, if they fit. -/
def State.tryPlace (s : State) (t : TeamRef) : Option State :=
  match s.team? t, s.launch? t.launch with
  | some m, some l => if s.waiting m then s.placeAll l.num false (s.unitOf m l) else none
  | _, _ => none

/-! ### Pre-emption by the distributor (R279, R291) -/

/-- Pre-empt a placed team, or the whole of a launch that is placed as a whole (R280, R291). -/
def State.preemptUnit (s : State) (reason : Nat) (t : TeamRef) : State :=
  match s.team? t, s.launch? t.launch with
  | some m, some l =>
    let us := if l.whole then s.placedOf (fun n => n.num == l.num) else [m]
    if m.core.isNone || !us.all (fun u => s.canStop u.ref) then s
    else ((us.foldl (fun s u => s.saveTeam u.ref) s).newImage m.node reason l.region.ctxRcb).1
  | _, _ => s

/-- The priority of a team. -/
def State.prioOf (s : State) (t : Team) : Nat := ((s.launch? t.ref.launch).map (·.region.prio)).getD 0

/-- Of two placed teams, whether the first is pre-empted before the second: the lower priority, then the later placed. -/
def State.preemptBefore (s : State) (a b : Team) : Bool :=
  decide (s.prioOf a < s.prioOf b) || (s.prioOf a == s.prioOf b && decide (b.placeTime < a.placeTime))

/-- The placed teams of a die that a test admits, in the order of pre-emption. -/
def State.victims (s : State) (node die : Nat) (p : Team → Bool) : List TeamRef :=
  (((s.teams.filter (fun t => t.core.isSome && t.node == node && t.die == die && p t)).foldr (insertBy s.preemptBefore) [])).map (·.ref)

/-- Pre-empt victims one after another until a waiting team fits; it is then placed. -/
def State.preemptUntil (s : State) (reason : Nat) (t : TeamRef) : List TeamRef → State
  | [] => s
  | v :: vs =>
    let s1 := s.preemptUnit reason v
    match s1.tryPlace t with
    | some s2 => s2
    | none => s1.preemptUntil reason t vs

/-- TEAM_PLACEMENT (R277, R280, R291): a waiting team is placed if it fits; otherwise it pre-empts teams of lower priority. -/
def State.placement (s : State) (t : TeamRef) : State :=
  match s.tryPlace t with
  | some s1 => s1
  | none =>
    match s.team? t with
    | none => s
    | some m =>
      if s.waiting m then s.preemptUntil 0 t (s.victims m.node m.die (fun u => decide (s.prioOf u < s.prioOf m))) else s

/-- TEAM_PLACEMENT (R277). -/
def execTeamPlacement (t : TeamRef) (s : State) : Host.Outcome State Fault Refusal := settle (s.placement t)

/-- The context of a launch, as its number on the node. -/
def State.ccnOfTeam (s : State) (t : Team) : Nat := s.ccnOf t.ref.launch

/-- The first waiting team of another context of the priority of a context's placed teams on a die (R291). -/
def State.rival (s : State) (node die ccn : Nat) : Option Team :=
  let mine := s.teams.filter (fun t => t.core.isSome && t.node == node && t.die == die && s.ccnOfTeam t == ccn)
  s.teams.find? (fun t => t.node == node && t.die == die && s.waiting t && s.ccnOfTeam t != ccn &&
    mine.any (fun u => s.prioOf u == s.prioOf t))

/-- DEFICIT_PREEMPT (R291). -/
def State.deficitPreempt (s : State) (node die ccn : Nat) : State :=
  if s.ctxs.any (fun c => c.node == node && c.ccn == ccn && decide (c.deficit.getD die 0 ≤ 0)) then
    match s.rival node die ccn with
    | none => s
    | some t => match s.tryPlace t.ref with
      | some s1 => s1
      | none => s.preemptUntil 1 t.ref (s.victims node die (fun u => s.ccnOfTeam u == ccn && s.prioOf u == s.prioOf t))
  else s

/-- DEFICIT_PREEMPT (R291). -/
def execDeficitPreempt (node die ccn : Nat) (s : State) : Host.Outcome State Fault Refusal := settle (s.deficitPreempt node die ccn)

/-- The waves that a core's teams hold. -/
def State.coreWaveCount (s : State) (node die core : Nat) : Nat :=
  (s.teamsOn node die core).foldl (fun (n : Nat) t =>
    n + (((s.launch? t.ref.launch).map (fun l => (s.teamWaves t l.kernel).length)).getD 0)) 0

/-- The core that a FORCEPRE team clears (R279): of those whose split or world differs and whose teams are at or below its
priority, the one with the fewest waves, and the lowest number among equals. -/
def State.forceCore (s : State) (t : Team) (l : Launch) : Option Nat :=
  let ok (c : Nat) : Bool := !s.coreAdmits l.node l.die c l.kernel.split (s.reread l).region.world &&
    (s.teamsOn l.node l.die c).all (fun u => decide (s.prioOf u ≤ s.prioOf t))
  let better (a b : Nat) : Bool := decide (s.coreWaveCount l.node l.die a < s.coreWaveCount l.node l.die b)
  (((s.candidates l t.ref.tm).filter ok).foldl (fun (best : Option Nat) c => match best with
    | none => some c
    | some b => if better c b then some c else some b) none)

/-- FORCEPRE_PREEMPT (R279): after a full SLICE of waiting, every team of one core is pre-empted, and the team placed. -/
def State.forcePreempt (s : State) (t : TeamRef) : State :=
  match s.team? t, s.launch? t.launch with
  | some m, some l =>
    if !l.region.forcepre || !s.waiting m || s.time < m.waitSince + l.region.slice then s
    else match s.tryPlace t with
      | some s1 => s1
      | none => match s.forceCore m l with
        | none => s
        | some c =>
          let s1 := (s.teamsOn l.node l.die c).foldl (fun s u => s.preemptUnit 2 u.ref) s
          (s1.tryPlace t).getD s1
  | _, _ => s

/-- FORCEPRE_PREEMPT (R279). -/
def execForceprePreempt (t : TeamRef) (s : State) : Host.Outcome State Fault Refusal := settle (s.forcePreempt t)

/-! ### Kernel records (R95, R96, R102) -/

/-- A little-endian field of some bytes. -/
def fieldAt (bs : List Byte) (off n : Nat) : Nat := ofBytes ((bs.drop off).take n)

/-- The core counts of a kernel record's stage sets. -/
def stageCounts (r : List Byte) : List Nat := (List.range (min 16 (fieldAt r 29 1))).map (fun i => fieldAt r (48 + 4 * i) 2)

/-- The limits of kernel metadata (R95, R96, R102). -/
def metaOk (r : List Byte) : Bool :=
  let q := fieldAt r 8 2
  let a := fieldAt r 10 2
  let b := fieldAt r 12 2
  let c := fieldAt r 14 2
  decide (8 ≤ q) && decide (q ≤ 256) && q % 8 == 0 && decide (1 ≤ a * b * c) && decide (a * b * c ≤ 1024) &&
    decide (fieldAt r 28 1 ≤ 24) && fieldAt r 16 4 % 128 == 0 && fieldAt r 20 4 % 128 == 0 && decide (fieldAt r 24 4 ≤ 65536) &&
    decide (fieldAt r 16 4 + fieldAt r 20 4 ≤ fieldAt r 28 1 * 65536) && decide (fieldAt r 29 1 ≤ 16) &&
    (stageCounts r).all (fun n => decide (1 ≤ n) && decide (n ≤ 160)) && decide (fieldAt r 36 4 ≤ 96) && fieldAt r 36 4 % 4 == 0 &&
    fieldAt r 4 4 % 16 == 0 && fieldAt r 30 2 == 0 && fieldAt r 44 4 == 0 && fieldAt r 112 16 == 0

/-- A placed kernel as its record in memory gives it now (R102, R270); its text, base and handler are those of the placed image. -/
def Kernel.ofRecord (k : Kernel) (r : List Byte) : Kernel :=
  { k with entry := fieldAt r 4 4, quota := fieldAt r 8 2, shape := [fieldAt r 10 2, fieldAt r 12 2, fieldAt r 14 2], scr := fieldAt r 16 4,
           sync := fieldAt r 20 4, acm := fieldAt r 24 4, split := fieldAt r 28 1,
           stages := (List.range (min 16 (fieldAt r 29 1))).map (fun i => (fieldAt r (48 + 4 * i) 2, fieldAt r (50 + 4 * i) 2)) }

/-! ### Taking a launch record (R269 to R271) -/

/-- Pack teams of a kernel on a core, at most `fuel` (R280): how many fit, and what the core then holds. -/
def packCore (k : Kernel) (ws : List (Nat × Nat)) : Nat → CoreUse → Nat × CoreUse
  | 0, u => (0, u)
  | fuel + 1, u =>
    match fitOn u k ws with
    | none => (0, u)
    | some p =>
      let u2 : CoreUse :=
        { scr := u.scr + k.alloc, acm := u.acm + k.acm, slots := u.slots ++ p.map (fun (q : Nat × Nat × Nat) => (q.1 % 4, q.2.1)),
          rows := (List.range 4).map (fun j => u.rows.getD j 0 +
            (p.filter (fun (q : Nat × Nat × Nat) => q.1 % 4 == j)).foldl (fun (n : Nat) (q : Nat × Nat × Nat) => n + q.2.2) 0),
          spill := u.spill + ((ws.zip p).map (fun (q : (Nat × Nat) × (Nat × Nat × Nat)) => (q.1.2 - q.2.2.2) * 128)).foldl (· + ·) 0 }
      let r := packCore k ws fuel u2
      (1 + r.1, r.2)

/-- Bytes that count against MEMB on a core (R266). -/
def CoreUse.bytes (u : CoreUse) : Nat := u.scr + 4 * u.acm + u.spill

/-- The residency test of a COTEAM launch (R280). -/
def State.resident (s : State) (l : Launch) (teams : Nat) : Bool :=
  let ws := (List.range (waveCount l.kernel.shape)).map (fun w => (w, l.kernel.quota))
  let full := packCore l.kernel ws (if l.kernel.stages.isEmpty then 64 else 1) CoreUse.empty
  let per := full.1
  let cores := ceilDiv teams (max 1 per)
  let bytes := teams / max 1 per * full.2.bytes + (packCore l.kernel ws (teams % max 1 per) CoreUse.empty).2.bytes
  decide (1 ≤ per) && decide (cores ≤ (s.coresOf l.node l.die).length) &&
    (s.budgetChain l).all (fun r => (s.region? l.node r).any (fun v =>
      decide (cores ≤ v.cores) && decide (bytes ≤ v.memb)))

/-- A gang schedule record (R351) from 64 bytes, if it is within its limits. -/
def gangSchedOf (bs : List Byte) : Option GangSched :=
  let f (o n : Nat) : Nat := ofBytes ((bs.drop o).take n)
  let ng := f 0x14 4
  if f 8 8 < 10000 || f 0x10 4 < 1000 || 10000000 < f 0x10 4 || ng == 0 || 8 < ng || f 0x38 8 != 0 then none
  else some ⟨f 0 8, f 8 8, f 0x10 4, (List.range ng).map (fun i => f (0x18 + 4 * i) 4)⟩

/-- Read bytes for the sequencer through a context's segments; the requests of a context's queue leave by die 0 (log 14). -/
def State.seqRead (s : State) (node ccn : Nat) (segs : SegTable) (world : Bool) (addr n : Nat) : Option (List Byte) :=
  match s.globalKey node 0 ccn segs world addr n .read with
  | .ok k => some (s.mem.readN k n)
  | .error _ => none

/-- The launch that a record asks for, before its checks; its die is the record's or the node's choice (R271). -/
def launchOf (num node ccn addr : Nat) (r : LaunchRec) (region : Region) (p : Placed) (segs : SegTable) (k : List Word) : Launch :=
  let die := bits r.flags 11 8
  { num := num, node := node, die := if !p.kernel.stages.isEmpty then p.die else if die == 15 then Config.dieChoice num % 4 else die,
    ccn := ccn, record := addr, region := region, kernel := p.kernel, ext := r.ext, flags := r.flags, gang := r.gang,
    doneVal := r.doneVal, doneAddr := r.doneAddr, segs := segs, k := k,
    subs := [{ ids := [(0, r.items)], pc := p.kernel.entry, v := List.replicate p.kernel.quota {}, x := List.replicate 4 {},
               preds := List.replicate 8 [] }],
    dealt := false, running := true, held := false }

/-- The checks of R270, in the order of the status table: the launch, or its status. -/
def State.checkRecord (s : State) (node ccn addr ctxRcb : Nat) (segs : SegTable) (r : LaunchRec) : Except Nat (Launch × Option GangSched) :=
  match s.region? node r.rcb with
  | none => .error 1
  | some region =>
    if !sameAddr node region.ctxRcb ctxRcb then .error 1
    else if r.badExtent then .error 2
    else match s.placed.find? (fun p => p.node == node && p.ccn == ccn && sameAddr node p.kernel.krec r.krec),
        s.seqRead node ccn segs region.world r.krec 128 with
      | none, _ => .error 3
      | _, none => .error 3
      | some p0, some bs =>
        let p := { p0 with kernel := p0.kernel.ofRecord bs }
        let die := bits r.flags 11 8
        let teams := teamCount r.ext p.kernel.shape
        let words : Option (List Byte) := if r.psize == 0 then some [] else s.seqRead node ccn segs region.world r.paddr r.psize
        let gang := bitAt r.flags 2 && !bitAt region.modes 17
        let sched := if gang then (s.seqRead node ccn segs region.world r.sched 64).bind gangSchedOf else none
        let doneBad := r.doneAddr != 0 && (gNode r.doneAddr == 255 || gNode r.doneAddr == node) &&
          (match segs.check (gSeg r.doneAddr) (gOff r.doneAddr) 4 .write with
            | .ok _ => false
            | .error _ => true)
        let k := (List.range 24).map (fun i => BitVec.ofNat 32 (ofBytes (((words.getD []).drop (4 * i)).take 4)))
        let l := launchOf s.nextNum node ccn addr r region p segs k
        if !metaOk bs then .error 3
        else if !p.kernel.stages.isEmpty && die != 15 && die != p.die then .error 3
        else if bitAt r.flags 0 && !s.resident l teams then .error 4
        else if r.badParam (bitAt region.modes 17) || words.isNone || (gang && sched.isNone) || doneBad then .error 5
        else if !p.kernel.stages.isEmpty && (p.kernel.stages.map Prod.fst).foldl (· + ·) 0 < teams then .error 6
        else .ok (l, sched)

/-- Whether a gang's launches run on a node at present (R350, R351). -/
def GangNode.runs (g : GangNode) (gang : Nat) : Bool := g.sched.isNone || (g.cur == some gang && g.prep.isNone)

/-- Accept a checked launch (R271, R272): STATE 1; a gang's launch is held until its gang holds the slice. -/
def State.accept (s : State) (l : Launch) (sched : Option GangSched) : State :=
  let isGang := bitAt l.flags 2
  let s1 := match sched with
    | none => s
    | some g => if s.launches.any (fun m => m.node == l.node && bitAt m.flags 2 && m.gang == l.gang) then s
      else s.modNode l.node (fun d => { d with gang := { d.gang with sched := some g } })
  let runs := !isGang || (s1.node? l.node).any (fun d => d.gang.runs l.gang)
  let s2 := { s1 with nextNum := l.num + 1, launches := s1.launches ++ [{ l with held := !runs }] }.spreadRegion l.node l.region
  orKeep s2 l (s2.seqWrite l (l.record + 0x2C) 1)

/-- The notice of an access of the sequencer that failed its world check (R374). -/
def State.seqNotice (s : State) (node rcb : Nat) (r : Except (Nat × Nat × Bool) Nat) : State :=
  match r with
  | .error (7, d, _) => s.worldNotice node (7 + 256 * d) rcb (whereWord node 0 0 0 0 0)
  | _ => s

/-- What the sequencer reads for a record that it rejects with a status (R270): the kernel record, or the parameter block and the gang
schedule. -/
def LaunchRec.reads (r : LaunchRec) (status : Nat) (modes : Nat) : List (Nat × Nat) :=
  match status with
  | 3 => [(r.krec, 128)]
  | 5 => (if r.psize == 0 then [] else [(r.paddr, r.psize)]) ++ (if bitAt r.flags 2 && !bitAt modes 17 then [(r.sched, 64)] else [])
  | _ => []

/-- Reject a record (R270): STATE 3 with the status, and a KIND 3 record. -/
def State.reject (s : State) (node ccn addr : Nat) (r : LaunchRec) (segs : SegTable) (region : Region) (status : Nat) : State :=
  let rcb := r.rcb
  let s0 := (r.reads status region.modes).foldl (fun (s : State) p =>
    s.seqNotice node rcb (s.globalKey node 0 ccn segs region.world p.1 p.2 .read)) s
  let w := s0.globalKey node 0 ccn segs region.world (addr + 0x2C) 4 .write
  let s1 := match w with
    | .ok k => s0.wrPhys k (toBytes 4 (3 + 256 * status)) none
    | .error _ => s0.seqNotice node rcb w
  s1.publish node region.fdom ⟨3, status, rcb, 0, whereWord node 0 0 0 0 0, 0, addr, 0, 0, s.time⟩

/-- The record to take next: at HEAD, or behind the record that was last taken (R269). -/
def State.nextRecord (s : State) (node ccn lq watch : Nat) (segs : SegTable) (world : Bool) : Nat :=
  let head := ((s.seqRead node ccn segs world lq 8).map ofBytes).getD 0
  if head != 0 || watch == 0 then head else ((s.seqRead node ccn segs world watch 8).map ofBytes).getD 0

/-- The placed kernel that a record names (R102, R107). -/
def State.placedFor (s : State) (node ccn krec : Nat) : Option Placed :=
  s.placed.find? (fun p => p.node == node && p.ccn == ccn && sameAddr node p.kernel.krec krec)

/-- Whether a record has to wait: ORDERED, for every earlier launch of the queue; a staged kernel's, for the launch of a staged
kernel of its image that runs (R107, R271). -/
def State.recordWaits (s : State) (node ccn : Nat) (r : LaunchRec) : Bool :=
  s.launches.any (fun l => l.ofCtx node ccn &&
    (bitAt r.flags 1 || (!l.kernel.stages.isEmpty && (s.placedFor node ccn r.krec).any (fun p =>
      !p.kernel.stages.isEmpty && sameAddr node l.kernel.text p.kernel.text))))

/-- The record that a context's queue offers (R269, R271, R360): its region as the context's, its segments, the queue's address,
the record's address and the record; none while the queue is not served, is empty or unreadable, or the record has to wait. -/
def State.takeable (s : State) (node ccn : Nat) : Option (Region × SegTable × Nat × Nat × LaunchRec) :=
  match s.ctxs.find? (fun c => c.node == node && c.ccn == ccn), (s.node? node).bind (fun d => d.peers.find? (fun p => p.ccn == ccn)) with
  | some c, some p =>
    match (if !p.v || p.rcb != c.rcb || c.held.isSome then none else s.region? node c.rcb) with
    | none => none
    | some region =>
      let segs := s.segTable node (s.rcbWord node c.rcb 0x30 8)
      let lq := s.rcbWord node c.rcb 0x38 8
      let addr := s.nextRecord node ccn lq c.watch segs region.world
      match (if addr == 0 then none else s.seqRead node ccn segs region.world addr 128) with
      | none => none
      | some bs => if s.recordWaits node ccn (launchRecOf bs) then none else some (region, segs, lq, addr, launchRecOf bs)
  | _, _ => none

/-- Note the record that was taken last: the sequencer watches its NEXT while it is 0 (R269). -/
def State.watchRecord (s : State) (node ccn addr : Nat) : State :=
  { s with ctxs := s.ctxs.map (fun d => if d.node == node && d.ccn == ccn then { d with watch := addr } else d) }

/-- LAUNCH_TAKE (R269 to R271). -/
def State.launchTake (s : State) (node ccn : Nat) : State :=
  match s.takeable node ccn with
  | none => s
  | some (region, segs, lq, addr, r) =>
    let s1 := match s.globalKey node 0 ccn segs region.world lq 8 .write with
      | .ok k => s.wrPhys k (toBytes 8 r.next) none
      | .error _ => s
    let s2 := s1.watchRecord node ccn (if r.next == 0 then addr else 0)
    match s2.checkRecord node ccn addr region.rcb segs r with
    | .ok (l, g) => s2.accept l g
    | .error st => s2.reject node ccn addr r segs ((s2.region? node r.rcb).getD region) st

/-- LAUNCH_TAKE (R270). -/
def execLaunchTake (node ccn : Nat) (s : State) : Host.Outcome State Fault Refusal := settle (s.launchTake node ccn)

end Sys2Proof.Machine
end

