-- ==== Sys2Proof/Machine/Fabric.lean ====
section
/-! DEFINITION. The fabric: requests at their targets and their answers (R357 to R362, R373), failed streams (R342, R358), Geyser
packets and deliveries (R367 to R369), fault records on their way into rings (R339), and hardware barriers (R204). -/
namespace Sys2Proof.Machine
open Sys2Proof

/-! ### Answers (R340, R362, R373) -/

/-- The values that an unfinished instruction holds for its result register of `n` words, lane by lane. -/
def Pend.held (p : Pend) (n : Nat) : List Nat :=
  let reg (i l : Nat) : Nat := ((p.writes.getD i (116, {})).2.form.at (fun _ _ => 0) l)
  lanes.map (fun l => if n == 2 then reg 0 l + 2 ^ 32 * reg 1 l else reg 0 l)

/-- Enter an answer for a lane (32: every lane) into an unfinished instruction (R359): its value and its marks. -/
def Pend.answer (p : Pend) (tag reg n : Nat) (out : List Nat → Out) (v : Nat) (poison world : Bool) : Pend :=
  let marks := (p.writes.headD (116, {})).2
  let m : Mask := if tag == 32 then p.mask else laneBit tag
  let o : Out := if tag == 32 then .uni v else out (setAt (p.held n) tag v)
  { p with writes := lxWrites reg n o (if poison then marks.poison ||| m else marks.poison) (if world then marks.world ||| m else marks.world),
           waits := p.waits - 1 }

/-- Deliver an answer to the wave that waits for it. -/
def State.answerTo (s : State) (p : Packet) (f : Pend → Pend) : State :=
  match p.wave with
  | none => s
  | some r => { s with waves := s.waves.map (fun w =>
      if w.ref == r then { w with pend := w.pend.map (fun e => if e.key == p.pend then f e else e) } else w) }

/-- Bytes of the answer to a request; 0 where there is none. -/
def RemoteOp.answerSize : RemoteOp → Nat
  | .load _ _ n _ => n
  | .atomic _ _ _ exw _ _ => tyBytes (exTy (if exw == 0 then none else some (Ex.ofWord exw)))
  | .ring _ _ _ _ => 4
  | _ => 0

/-- The answer to a host adapter's request (R361, R363). -/
def State.answerHost (s : State) (p : Packet) (op : RemoteOp) (v : Nat) (poison world : Bool) : State :=
  if op.answerSize == 0 then s
  else { s with answers := s.answers ++ [⟨p.stream.node, p.stream.dst, p.pend, toBytes op.answerSize v, poison, world⟩] }

/-- The answer to a load, an atomic or a ring instruction: the value, or none with a mark (R362). -/
def State.answerOp (s : State) (p : Packet) (op : RemoteOp) (v : Nat) (poison world : Bool) : State :=
  if p.wave.isNone then s.answerHost p op v poison world
  else match op with
  | .load tag reg n ty => s.answerTo p (fun e => e.answer tag reg (if n == 8 then 2 else 1) (loadOut ty) (loadVal ty v) poison world)
  | .atomic lane reg _ exw _ _ => s.answerTo p (fun e =>
      e.answer lane reg (tyRegs (exTy (if exw == 0 then none else some (Ex.ofWord exw)))) (fun vs => .per vs) v poison world)
  | .ring lane reg _ _ => s.answerTo p (fun e => e.answer lane reg 1 (fun vs => .per vs) v poison world)
  | _ => s

/-! ### Requests at their target (R361, R362) -/

/-- The access class of a request (R361). -/
def RemoteOp.access : RemoteOp → Access
  | .load _ _ _ _ => .read
  | .store _ _ => .write
  | .poison _ => .write
  | .atomic _ _ _ _ _ _ => .rmw
  | .ring _ _ _ _ => .rmw
  | .word _ _ => .write

/-- The bytes of a request's access. -/
def RemoteOp.size : RemoteOp → Nat
  | .load _ _ n _ => n
  | .store d _ => d.length
  | .poison d => d.length
  | .atomic _ _ _ exw _ _ => tyBytes (exTy (if exw == 0 then none else some (Ex.ofWord exw)))
  | .ring _ _ _ _ => 256
  | .word _ _ => 4

/-- The WHERE word of the wave that sent a packet (R339). -/
def State.whereOf (s : State) (p : Packet) : Nat :=
  match p.wave.bind s.wave?, p.wave.bind (fun r => s.team? r.team) with
  | some w, some t => whereWord t.node t.die (t.core.getD 0) w.part w.slot 0
  | _, _ => whereWord p.stream.node p.stream.die 0 0 0 0

/-- A refused request (R362, R373): `cause` and `detail` of the check that failed. -/
def State.refuse (s : State) (p : Packet) (op : RemoteOp) (cause detail : Nat) : State :=
  let s1 := if cause == 7 then s.worldNotice p.stream.dst (cause + 256 * detail) p.rcb (s.whereOf p) else s
  match op with
  | .store _ pc => s1.publish p.stream.node p.fdom ⟨1, cause + 256 * detail, p.rcb, 0, s.whereOf p, 2 ^ p.pend, 0, pc, 0, s.time⟩
  | .word _ wh => s1.publish p.stream.node p.fdom ⟨2, stRemote, p.rcb, 0, wh, 0, p.pend, 0, 0, s.time⟩
  | op => s1.answerOp p op 0 (cause != 7) (cause == 7)

/-- Mark bytes of physical memory poisoned (R340). -/
def State.markPoison (s : State) (key n : Nat) : State :=
  { s with poison := (List.range n).map (fun i => key + i) ++ (s.unpoison key n).poison }

/-- Answer a request that has been performed: its value comes poisoned where the stream of the answers to its die has failed
(R342). -/
def State.respond (s : State) (p : Packet) (op : RemoteOp) (v : Nat) (poison : Bool) : State :=
  if s.deadStreams.contains ⟨.response, p.stream.dst, p.stream.die, p.stream.node⟩ then s.answerOp p op 0 true false
  else s.answerOp p op v poison false

/-- The resolution of an address at a target (R361). -/
def State.targetRes (s : State) (p : Packet) (a n : Nat) : Except (Nat × Nat) Nat := s.remoteKey p.stream.dst p.ccn p.world a n .rmw

/-- Perform a request at its target: one event (R358, R361). -/
def State.perform (s : State) (p : Packet) (op : RemoteOp) : State :=
  match s.remoteKey p.stream.dst p.ccn p.world p.addr.toNat op.size op.access with
  | .error (c, d) => s.refuse p op c d
  | .ok k =>
    let ls := globLocs k op.size
    let s1 := s.guardPhys k op.size
    match op with
    | .load _ _ n _ => s1.respond p op (s.mem.word k n) (s.poisonedAt ls)
    | .store d _ => s1.wrPhys k d p.wave
    | .poison d => (s1.wrPhys k d p.wave).markPoison k d.length
    | .word v _ => s1.wrPhys k (toBytes 4 v.toNat) none
    | .atomic _ _ _ exw y c =>
      if s.poisonedAt ls then s1.answerOp p op 0 true false
      else
        let r := s1.atomAt (atomOf (if exw == 0 then none else some (Ex.ofWord exw))) ls y.toNat c.toNat p.wave
        r.1.respond p op r.2 false
    | .ring _ _ o v =>
      if s.poisonedAt ls then s1.answerOp p op 0 true false
      else match s1.ringAt (s1.targetRes p) k with
        | .error (c, d) => s1.refuse p op c d
        | .ok r =>
          if s.ringPoisoned r then s1.answerOp p op 0 true false
          else
            let q := s1.ringOp r o v.toNat p.wave
            q.1.respond p op q.2 false

/-- What becomes of a packet of a failed stream (R342): loads and return values are poisoned, the rest is dropped. -/
def State.losePacket (s : State) (p : Packet) : State :=
  match p.op with
  | none => s
  | some op => s.answerOp p op 0 true false

/-- Whether a packet is the next of its stream (R357). -/
def State.isNext (s : State) (p : Packet) : Bool :=
  ((s.packets.find? (fun q => q.stream == p.stream)).map (·.num)) == some p.num

/-- Remove a packet from the fabric. -/
def State.dropPacket (s : State) (num : Nat) : State := { s with packets := s.packets.filter (fun q => q.num != num) }

/-- Whether the retirement of a packet's team waits for nothing more (R271, R287, R315). -/
def State.afterPacket (s : State) (p : Packet) : State :=
  match p.wave with
  | none => s
  | some r => s.checkRetire r.team

/-- Whether a request is an update of R175 or R181. -/
def RemoteOp.updates : RemoteOp → Bool
  | .atomic _ _ _ _ _ _ => true
  | .ring _ _ _ _ => true
  | _ => false

/-- The requests that are performed as one event with the next one of a stream: the updates of one instruction that stand behind it,
with no other party's update between them (R176, R181, R319). -/
def State.runOf (s : State) (p : Packet) : List Packet :=
  let same (q : Packet) : Bool := q.num == p.num || (q.wave.isSome && q.wave == p.wave && q.pend == p.pend &&
    q.op.any RemoteOp.updates && p.op.any RemoteOp.updates)
  (s.packets.filter (fun q => q.stream == p.stream)).takeWhile same

/-- One request of a stream reaches its target, or is lost with the stream. -/
def State.reachTarget (s : State) (p : Packet) : State :=
  match p.op with
  | none => s
  | some op =>
    if s.deadStreams.contains p.stream then (s.dropPacket p.num).losePacket p else (s.dropPacket p.num).perform p op

/-- The request of a stream that is next is performed at its target (R361), unless it is older than LT (R358). -/
def State.remotePacket (s : State) (num : Nat) : State :=
  match s.packets.find? (fun p => p.num == num) with
  | none => s
  | some p =>
    if p.op.isNone || !s.isNext p || decide (p.time + lifetime < s.time) then s
    else ((s.runOf p).foldl State.reachTarget s).afterPacket p

/-- The request packet of a host adapter's operation. -/
def hostRemote : HostOp → RemoteOp
  | .load n => .load 32 116 n 0
  | .store d false => .store d 0
  | .store d true => .poison d
  | .atomic exw y c => .atomic 0 116 0 exw y c
  | .ring op v => .ring 0 116 op v

/-- An ATOMG word (0x68), under which the EX of a host adapter's atomic is checked (R175). -/
def atomgWord : Word := 0x68 * 2 ^ 25

/-- Whether a host adapter may send a request (R358, R361): its sender is an adapter, its target an accelerator node, and its bytes fit
one packet; an update has one of the functions of R175 other than `.sadd` (R178), aligned (R163). -/
def hostOk (q : HostReq) : Bool :=
  decide (192 ≤ q.adapter) && decide (q.adapter ≤ 254) && decide (q.node < 192) && (match q.op with
    | .load n => decide (1 ≤ n) && decide (n ≤ 256)
    | .store d _ => decide (1 ≤ d.length) && decide (d.length ≤ 256)
    | .atomic exw _ _ =>
      let x := some (Ex.ofWord exw)
      decide (exFx x ≤ 9) && extOk (wordInfo x atomgWord) x atomgWord && q.addr.toNat % tyBytes (exTy x) == 0
    | .ring op _ => decide (op < 4) && q.addr.toNat % 256 == 0)

/-- A host adapter injects a request (R361): it enters the adapter's stream to the node, in the world that the node's firmware names for
the adapter (R371). -/
def State.hostSend (s : State) (q : HostReq) : State :=
  if !hostOk q then s
  else s.send { num := 0, stream := ⟨.request, q.adapter, 0, q.node⟩, addr := q.addr, ccn := q.ccn,
                world := Config.adapterSecure (((s.node? q.node).map (·.fwDigest)).getD 0) q.adapter, time := 0, wave := none,
                pend := q.tag, op := some (hostRemote q.op), tokens := [], rcb := 0, fdom := 0 }

/-- REMOTE_ACCESS (R361): the next request of a stream is performed, or a host adapter's request enters its stream. -/
def State.remoteAccess (s : State) (r : RemoteReq) : State :=
  match r with
  | .packet n => s.remotePacket n
  | .host q => s.hostSend q

/-- REMOTE_ACCESS (R361). -/
def execRemoteAccess (r : RemoteReq) (s : State) : Host.Outcome State Fault Refusal := settle (s.remoteAccess r)

/-! ### Failed streams (R342, R358) -/

/-- The node at which a caldera barrier's arrivals meet, and from which its releases go (R204; log 42). -/
def State.barrierRoot (s : State) : Nat := ((s.nodes.head?).map (·.num)).getD 0

/-- The stream of an arrival to a caldera barrier (R357); a package's own arrivals, and those of the root, stay on their node. -/
def State.arrivalStream (s : State) (a : HwArrival) : Option FabStream :=
  match s.team? a.team with
  | none => none
  | some t => if a.level == 4 && t.node != s.barrierRoot then some ⟨.request, t.node, t.die, s.barrierRoot⟩ else none

/-- Fail a stream: its packets are lost, none is delivered later, and a KIND 4 record goes to the fault domain of each party
that lost one, or to domain 0 where none did. What stays on its own node never fails so (R359). -/
def State.failStream (s : State) (st : FabStream) : State :=
  if s.deadStreams.contains st || st.node == st.dst then s
  else
    let lost := s.packets.filter (fun p => p.stream == st)
    let parties := match (lost.map (fun p => (p.fdom, p.rcb))).eraseDups with
      | [] => [(0, 0)]
      | l => l
    let s1 : State :=
      { s with
        packets := s.packets.filter (fun p => p.stream != st), deadStreams := s.deadStreams ++ [st]
        arrivals := s.arrivals.filter (fun a => s.arrivalStream a != some st)
        nodes := s.nodes.map (fun d => if st.cls == .dispatch && d.num == st.dst then
          { d with frags := d.frags.filter (fun f => !(f.srcNode == st.node && f.srcDie == st.die)) } else d) }
    let s2 := lost.foldl (fun s p => s.losePacket p) s1
    let s3 := parties.foldl (fun (s : State) (p : Nat × Nat) => s.publish st.node p.1 ⟨4, 0, p.2, 0, st.dst % 256, 0, 0, 0, 0, s.time⟩) s2
    lost.foldl (fun s p => s.afterPacket p) (s3.bump st.node 2)

/-- FABRIC_STREAM_FAIL (R342). -/
def execFabricStreamFail (st : FabStream) (s : State) : Host.Outcome State Fault Refusal := settle (s.failStream st)

/-- PACKET_LIFETIME_EXPIRY (R358): a packet older than LT is discarded, counted, and fails its stream. -/
def State.expire (s : State) (num : Nat) : State :=
  match s.packets.find? (fun p => p.num == num) with
  | none => s
  | some p => if p.stream.node != p.stream.dst && decide (p.time + lifetime < s.time) then (s.bump p.stream.node 1).failStream p.stream else s

/-- PACKET_LIFETIME_EXPIRY (R358). -/
def execPacketLifetimeExpiry (pkt : Nat) (s : State) : Host.Outcome State Fault Refusal := settle (s.expire pkt)

/-! ### Geyser (R367 to R369) -/

/-- SEND_QUEUE_TIMEOUT (R367): a queue sends what it holds once 128 cycles have passed without a new token. -/
def State.sendTimeout (s : State) (node die dst : Nat) : State :=
  match (s.node? node).map (fun d => d.sendq die dst) with
  | none => s
  | some q =>
    if q.tokens.isEmpty || q.blocked || s.time < q.since + 128 then s
    else
      let r := s.sendFront node q
      r.1.modNode node (fun d => d.setSendq r.2)

/-- SEND_QUEUE_TIMEOUT (R367). -/
def execSendQueueTimeout (node die dst : Nat) (s : State) : Host.Outcome State Fault Refusal := settle (s.sendTimeout node die dst)

/-- The record of a token dropped at delivery, for its sender (R368). -/
def State.tokenRefused (s : State) (t : Token) (dst : Nat) : State :=
  (s.bump dst 3).publish t.srcNode t.srcFdom ⟨2, stRemote, t.srcRcb, 0, t.wref, 0, t.seq, 0, 0, s.time⟩

/-- A token whose delivery fails a check at its ring (R361, R368), with the notice of a failed world check (R374). -/
def State.tokenFault (s : State) (t : Token) (dst c d : Nat) : State :=
  (if c == 7 then s.worldNotice dst (c + 256 * d) t.srcRcb t.wref else s).tokenRefused t dst

/-- The record of a token that its ring's slots cannot hold, for the ring's context (R368). -/
def State.tokenTooBig (s : State) (t : Token) (dst : Nat) : State :=
  let rcb := (((s.node? dst).bind (fun d => d.peers.find? (fun p => p.ccn == t.ccn))).map (·.rcb)).getD 0
  match s.region? dst rcb with
  | none => s.bump dst 3
  | some r => (s.bump dst 3).publish dst r.fdom ⟨2, stDesc, rcb, 0, whereWord dst 0 0 0 0 0, 0, 0, 0, 0, s.time⟩

/-- What delivering a token comes to (R368): delivered or dropped, or it waits for a free slot. -/
inductive Delivered
  | done (s : State)
  | full

/-- Deliver one token into its ring at a node (R368). -/
def State.deliverToken (s : State) (dst : Nat) (t : Token) : Delivered :=
  let key (a n : Nat) : Except (Nat × Nat) Nat := s.remoteKey dst t.ccn t.world a n .write
  match key t.ring.toNat 256 with
  | .error (c, d) => .done (s.tokenFault t dst c d)
  | .ok k =>
    match s.ringAt key k with
    | .error (c, d) => .done (s.tokenFault t dst c d)
    | .ok r =>
      let slog := bits (s.mem.word (k + 8) 4) 4 0
      if 2 ^ slog < t.payload.length then .done (s.tokenTooBig t dst)
      else
        let slot := s.ringWord r 0x10 % 2 ^ r.nlog
        match key ((s.mem.word k 8 + slot * 2 ^ slog) % 2 ^ 64) t.payload.length with
        | .error (c, d) => .done (s.tokenFault t dst c d)
        | .ok p =>
          let q := s.ringRsv r none
          if q.2 == ringNone then .full else .done ((q.1.wrPhys p t.payload none).ringPub r q.2 none).1

/-- Deliver tokens in order until one has to wait: those that remain. -/
def State.deliverAll (s : State) (dst : Nat) : List Token → State × List Token
  | [] => (s, [])
  | t :: ts =>
    match s.deliverToken dst t with
    | .full => (s, t :: ts)
    | .done s1 => s1.deliverAll dst ts

/-- The key of line 0 of a token's ring, which its waiting delivery watches (R368). -/
def State.tokenLine (s : State) (dst : Nat) (t : Token) : Nat :=
  ((s.remoteKey dst t.ccn t.world t.ring.toNat 256 .write).toOption).getD 0

/-- Block or free the send queue of a die for a destination (R368). -/
def State.setBlocked (s : State) (node die dst : Nat) (b : Bool) : State :=
  s.modNode node (fun d => d.setSendq { d.sendq die dst with blocked := b })

/-- Accept a packet's generation at the receiver (R369). -/
def State.acceptGen (s : State) (dst ccn gen : Nat) : State × Bool :=
  match s.node? dst with
  | none => (s, true)
  | some d =>
    let x := d.gener ccn
    let dl := genDelta x.cur gen
    if dl ≤ -16 then (s.bump dst 0, false)
    else if dl ≤ 0 then (s, true)
    else (s.modNode dst (fun d => d.setGener (x.advance gen s.time)), true)

/-- The pieces of a token that a node has received from a die. -/
def Node.fragment (d : Node) (node die : Nat) : List Byte :=
  ((d.frags.find? (fun f => f.srcNode == node && f.srcDie == die)).map (·.bytes)).getD []

/-- Keep the pieces of a token that a node has received from a die; none of them where the list is empty. -/
def Node.setFragment (d : Node) (node die : Nat) (bs : List Byte) : Node :=
  let rest := d.frags.filter (fun f => !(f.srcNode == node && f.srcDie == die))
  { d with frags := if bs.isEmpty then rest else rest ++ [⟨node, die, bs⟩] }

/-- The tokens that a received packet completes (R367): a token above 256 bytes is whole with its last piece. -/
def State.assemble (s : State) (st : FabStream) (ts : List Token) : State × List Token :=
  let old := ((s.node? st.dst).map (fun d => d.fragment st.node st.die)).getD []
  let keep (bs : List Byte) : State := s.modNode st.dst (fun d => d.setFragment st.node st.die bs)
  match ts with
  | [] => (s, [])
  | t :: rest => if t.more then (keep (old ++ t.payload), []) else (keep [], { t with payload := old ++ t.payload } :: rest)

/-- DISPATCH_PACKET_RECEIVE (R368, R369). -/
def State.receive (s : State) (num : Nat) : State :=
  match s.packets.find? (fun p => p.num == num) with
  | none => s
  | some p =>
    let st := p.stream
    if st.cls != .dispatch || !s.isNext p || s.deliveries.any (fun d => d.node == st.dst && d.srcNode == st.node && d.srcDie == st.die) then s
    else if s.deadStreams.contains st then s.dropPacket num
    else if st.node != st.dst && decide (p.time + lifetime < s.time) then s
    else
      let a := (s.dropPacket num).acceptGen st.dst p.ccn p.pend
      if !a.2 then a.1.modNode st.dst (fun d => d.setFragment st.node st.die [])
      else
        let b := a.1.assemble st p.tokens
        let r := b.1.deliverAll st.dst b.2
        match r.2 with
        | [] => r.1
        | t :: ts =>
          let s1 := r.1.setBlocked st.node st.die st.dst true
          { s1 with deliveries := s1.deliveries ++ [⟨st.dst, st.node, st.die, t :: ts, s1.tokenLine st.dst t, false⟩] }

/-- DISPATCH_PACKET_RECEIVE (R368). -/
def execDispatchPacketReceive (pkt : Nat) (s : State) : Host.Outcome State Fault Refusal := settle (s.receive pkt)

/-- DELIVERY_RETRY (R368): after a write of a ring's line 0, a waiting delivery goes on. -/
def State.retryDelivery (s : State) (i : Nat) : State :=
  match s.deliveries[i]? with
  | none => s
  | some d =>
    if !d.retry then s
    else
      let r := s.deliverAll d.node d.tokens
      match r.2 with
      | [] =>
        ({ r.1 with deliveries := r.1.deliveries.eraseIdx i }.setBlocked d.srcNode d.srcDie d.node false).pumpQueue d.srcNode d.srcDie d.node
      | t :: ts =>
        { r.1 with deliveries := modAt r.1.deliveries i (fun e =>
            { e with tokens := t :: ts, line := r.1.tokenLine d.node t, retry := false }) }

/-- DELIVERY_RETRY (R368). -/
def execDeliveryRetry (i : Nat) (s : State) : Host.Outcome State Fault Refusal := settle (s.retryDelivery i)

/-! ### Fault records (R339) -/

/-- The 128 bytes of a fault record (R339). -/
def Record.bytes (r : Record) : List Byte :=
  toBytes 4 r.kind ++ toBytes 4 r.code ++ toBytes 8 r.rcb ++ toBytes 8 r.save ++ toBytes 4 r.where_ ++ toBytes 4 r.mask ++
    toBytes 8 r.seq ++ toBytes 4 r.pc ++ toBytes 4 r.gen ++ toBytes 8 r.time ++ toBytes 72 0

/-- Replace the records that wait for a domain by those behind the first of them. -/
def dropFirst (fdom : Nat) : List (Nat × Record) → List (Nat × Record)
  | [] => []
  | p :: t => if p.1 == fdom then t else p :: dropFirst fdom t

/-- How the addresses of a domain's ring are reached for a record (log 12): through the segments of the context of the region
that the record names; without one, and for a notice of the security controller (KIND 8), as node physical addresses. -/
def State.recordRes (s : State) (node : Nat) (r : Record) (a n : Nat) : Except (Nat × Nat) Nat :=
  match (if r.kind == 8 then none else s.region? node r.rcb) with
  | none => .ok (physKey node (a % 2 ^ 52))
  | some g =>
    let ccn := ((s.ctxs.find? (fun c => c.node == node && sameAddr node c.rcb g.ctxRcb)).map (·.ccn)).getD 0
    match s.globalKey node 0 ccn (s.segTable node (s.rcbWord node g.ctxRcb 0x30 8)) g.world a n .rmw with
    | .ok k => .ok k
    | .error (c, d, _) => .error (c, d)

/-- Reserve a slot of a domain's ring, write a record to it and publish it (R181); `none` where the ring cannot be reached. The
Boolean says whether the ring had room. -/
def State.recordPut (s : State) (node ring : Nat) (rec_ : Record) : Option (State × Bool) :=
  let res := s.recordRes node rec_
  match res ring 256 with
  | .error _ => none
  | .ok desc =>
    match s.ringAt res desc with
    | .error _ => none
    | .ok r =>
      let slog := bits (s.mem.word (r.desc + 8) 4) 4 0
      let slot := s.ringWord r 0x10 % 2 ^ r.nlog
      let q := s.ringRsv r none
      if q.2 == ringNone then some (s, false)
      else match res (s.mem.word r.desc 8 + slot * 2 ^ slog) 128 with
        | .error _ => none
        | .ok k => some (((q.1.wrPhys k rec_.bytes none).ringPub r q.2 none).1, true)

/-- Whether the first waiting record of a domain need not wait: its ring has room, or it is lost (R339). -/
def State.recordReady (s : State) (node fdom : Nat) : Bool :=
  match s.node? node with
  | none => false
  | some d =>
    match d.records.find? (fun p => p.1 == fdom) with
    | none => false
    | some (_, rec_) =>
      let ring := ((d.fdoms.find? (fun p => p.1 == fdom)).map Prod.snd).getD 0
      ring == 0 || (match s.recordPut node ring rec_ with
        | some (_, room) => room
        | none => true)

/-- FAULT_RECORD (R339): the first record of a domain is placed in the domain's ring, or waits while it is full; without a
ring it is counted as lost. A stream that waits for its record is then reset (R341). -/
def State.placeRecord (s : State) (node fdom : Nat) : State :=
  match s.node? node with
  | none => s
  | some d =>
    match d.records.find? (fun p => p.1 == fdom) with
    | none => s
    | some (_, rec_) =>
      let take (s : State) : State := (s.modNode node (fun d => { d with records := dropFirst fdom d.records })).resetPublished rec_
      let ring := ((d.fdoms.find? (fun p => p.1 == fdom)).map Prod.snd).getD 0
      if ring == 0 then take (s.bump node 4)
      else match s.recordPut node ring rec_ with
        | none => take (s.bump node 4)
        | some (s1, room) => if room then take s1 else s

/-- FAULT_RECORD (R339). -/
def execFaultRecord (node fdom : Nat) (s : State) : Host.Outcome State Fault Refusal := settle (s.placeRecord node fdom)

/-! ### Hardware barriers (R204) -/

/-- Whether a barrier is the one that an arrival reaches. -/
def HwBarrier.takes (b : HwBarrier) (a : HwArrival) : Bool :=
  !b.releasing && b.level == a.level && b.hwid == a.hwid && b.inst == a.inst && (a.level == 4 || b.launch == a.launch)

/-- The teams that take part in an arrival's barrier (R204). -/
def State.participants (s : State) (a : HwArrival) : List TeamRef :=
  (s.teams.filter (fun t =>
    (if a.level == 4 then (s.launch? t.ref.launch).any (fun l => bitAt l.flags 2 && l.gang == a.inst)
     else t.ref.launch == a.launch && barInst s t a.level == a.inst))).map (·.ref)

/-- Whether a launch of an arrival's gang has not yet been dealt: its teams are still to come (R204, R276). -/
def State.undealt (s : State) (a : HwArrival) : Bool :=
  a.level == 4 && s.launches.any (fun l => bitAt l.flags 2 && l.gang == a.inst && !l.dealt)

/-- The barrier that an arrival reaches; one that none has reached yet has the arrival's generation. -/
def State.barrierOf (s : State) (a : HwArrival) : HwBarrier :=
  (s.barriers.find? (fun b => b.takes a)).getD ⟨a.level, a.hwid, a.inst, a.launch, a.gen, [], false, [], 0⟩

/-- Whether an arrival waits: its generation's number was retired less than LT ago (R369). -/
def State.arrivalWaits (s : State) (a : HwArrival) : Bool :=
  (s.barrierOf a).retired.any (fun p => p.1 == a.gen && decide (s.time < p.2 + lifetime))

/-- A barrier whose phase has completed (R204, R369): the release goes out, and the next generation begins. -/
def HwBarrier.complete (b : HwBarrier) (ts : List (TeamRef × Nat)) (now : Nat) : List HwBarrier :=
  let g := (b.gen + 1) % 65536
  let old := ((Gener.advance ⟨0, b.gen, b.retired⟩ g now).retired).filter (fun p => decide (now < p.2 + lifetime))
  [{ b with teams := ts, releasing := true, sent := now, retired := [] }, { b with teams := [], gen := g, retired := old }]

/-- HW_BARRIER_ARRIVAL (R204): an arrival of the current generation is counted; the last one completes the phase. One older than LT
fails its stream (R358). -/
def State.barrierArrival (s : State) (i : Nat) : State :=
  match s.arrivals[i]? with
  | none => s
  | some a =>
    let s1 : State := { s with arrivals := s.arrivals.eraseIdx i }
    let b := s.barrierOf a
    let node := ((s.team? a.team).map (·.node)).getD 0
    if s.arrivalWaits a then s
    else match (if a.time + lifetime < s.time then s.arrivalStream a else none) with
    | some st => (s1.bump node 1).failStream st
    | none =>
      if (s.arrivalStream a).any s.deadStreams.contains then s1
      else if b.gen != a.gen then s1.bump node 0
      else
        let ts := b.teams.filter (fun p => p.1 != a.team) ++ [(a.team, a.off)]
        let others := s1.barriers.filter (fun b => !b.takes a)
        if !s1.undealt a && (s1.participants a).all (fun t => ts.any (fun p => p.1 == t)) then
          { s1 with barriers := others ++ b.complete ts s.time }
        else { s1 with barriers := others ++ [{ b with teams := ts }] }

/-- HW_BARRIER_ARRIVAL (R204). -/
def execHwBarrierArrival (i : Nat) (s : State) : Host.Outcome State Fault Refusal := settle (s.barrierArrival i)

/-- The stream of a caldera barrier's release to a team on another node than the root (R357). -/
def State.releaseStream (s : State) (b : HwBarrier) (t : Team) : Option FabStream :=
  if b.level == 4 && t.node != s.barrierRoot then some ⟨.response, s.barrierRoot, 0, t.node⟩ else none

/-- The release of a barrier at one team (R204): it increments PHASE of the team's object. One that is not of the current generation
is dropped and counted (R369), one of a failed stream is lost (R342), and one older than LT fails its stream (R358). -/
def State.releaseAt (s : State) (b : HwBarrier) (m : Team) (off : Nat) : State :=
  let st := s.releaseStream b m
  if st.any s.deadStreams.contains then s
  else match (if b.sent + lifetime < s.time then st else none) with
    | some f => (s.bump s.barrierRoot 1).failStream f
    | none =>
      if (b.gen + 1) % 65536 != s.barGen b.level b.hwid b.inst b.launch then s.bump m.node 0
      else s.setBarWord m off 1 ((s.barWord m off 1 + 1) % 2 ^ 32)

/-- HW_BARRIER_RELEASE (R204): the release reaches one team's object. -/
def State.barrierRelease (s : State) (i : Nat) : State :=
  match s.barriers[i]? with
  | none => s
  | some b =>
    if !b.releasing then s
    else match b.teams with
      | [] => { s with barriers := s.barriers.eraseIdx i }
      | (t, off) :: rest =>
        let s1 : State := if rest.isEmpty then { s with barriers := s.barriers.eraseIdx i }
          else { s with barriers := modAt s.barriers i (fun c => { c with teams := rest }) }
        match s1.team? t with
        | none => s1
        | some m => s1.releaseAt b m off

/-- HW_BARRIER_RELEASE (R204). -/
def execHwBarrierRelease (i : Nat) (s : State) : Host.Outcome State Fault Refusal := settle (s.barrierRelease i)

end Sys2Proof.Machine
end

