-- ==== Sys2Proof/Machine/Fetch.lean ====
section
/-! DEFINITION. Fetching an instruction (R59, R60, R83, R373), when a wave or a span may issue (R288), and which wave of a
partition issues (R289). -/
namespace Sys2Proof.Machine
open Sys2Proof

/-! ### Fetch (R59) -/

/-- What a party fetches: its instruction, with its EX and word, the key and the number of its bytes, or a trap. -/
inductive Fetched
  | ins (i : Instr) (x : Option Ex) (word : Word) (key len : Nat)
  | trap (cause detail : Nat)
  deriving DecidableEq, Repr

/-- The key of a word that is fetched (R59, R294, R373); code lies on the node that runs it. -/
def State.fetchKey (s : State) (node : Nat) (t : SegTable) (world : Bool) (addr : Nat) : Except (Nat × Nat) Nat :=
  match s.resolve node t world (addr % 2 ^ 64) 4 .fetch with
  | .ok k => .ok k
  | .trap c d => .error (c, d)
  | .remote _ => .error (6, 2 + 4 * Access.fetch.code)

/-- The instruction of some bytes, its EX and its word. -/
def fetchedOf (bs : List Byte) (key : Nat) : Fetched :=
  match decodeBytes bs with
  | none => .trap 6 (2 + 4 * Access.fetch.code)
  | some (i, len) =>
    let w (o : Nat) : Word := BitVec.ofNat 32 (ofBytes ((bs.drop o).take 4))
    if len == 8 then .ins i (some (Ex.ofWord (w 0))) (w 4) key len else .ins i none (w 0) key len

/-- Fetch the instruction at an address (R59, R60): an EX is fetched with the word after it. -/
def State.fetchAt (s : State) (node : Nat) (t : SegTable) (world : Bool) (addr : Nat) : Fetched :=
  match s.fetchKey node t world addr with
  | .error (c, d) => .trap c d
  | .ok k =>
    let bs := s.mem.readN k 4
    if Word.maj (BitVec.ofNat 32 (ofBytes bs)) == 0x7F then
      match s.fetchKey node t world (addr + 4) with
      | .error (c, d) => .trap c d
      | .ok k2 => fetchedOf (bs ++ s.mem.readN k2 4) k
    else fetchedOf bs k

/-- Fetch for a wave. -/
def State.fetchWave (s : State) (w : Wave) (t : Team) (l : Launch) : Fetched :=
  s.fetchAt t.node t.segs t.world (l.kernel.text + w.groupPc)

/-! ### Issue conditions (R288) -/

/-- The body of an instruction that may have to wait at issue: engine commands, WAITF, QFENCE, TXBEGIN, REL, FENCE, ARRIVE, HALT. -/
def waitBody (word : Word) : Option (Env → Effect) :=
  if isCx word.maj then some cxWave
  else if word.maj == 0x70 then some txbeginWave
  else if word.maj == 0x7C then some (if word.fn == 0 then waitfWave else qfenceWave)
  else if word.maj == 0x73 && word.fn == 1 then some (seqWave true)
  else if word.maj == 0x73 && word.fn == 2 then some fenceWave
  else if word.maj == 0x73 && word.fn == 3 then some arriveWave
  else if word.maj == 0x7D && word.fn == 5 then some haltWave
  else none

/-- Whether an effect is to wait. -/
def Effect.isWait : Effect → Bool
  | .wait => true
  | .done _ _ _ _ => false
  | .trap _ _ _ _ => false
  | .check _ _ => false

/-- Whether the body of a wave's instruction would wait. -/
def State.bodyWaits (s : State) (w : Wave) (t : Team) (l : Launch) (x : Option Ex) (word : Word) : Bool :=
  match waitBody word with
  | none => false
  | some b => w.active x != 0 && (b ⟨s, w, t, l, x, word, w.active x⟩).isWait

/-- Whether an instruction of a wave may issue; one that traps at its word checks needs no condition (R87). -/
def State.wordReady (s : State) (w : Wave) (t : Team) (l : Launch) (f : Fetched) : Bool :=
  match f with
  | .trap _ _ => !s.updating w.ref
  | .ins _ x word _ _ => (waveCheck w x word).isSome || (w.tx.isSome && !txAllowed word.maj word.fn && w.active x != 0) ||
      (issueReady w word && !(w.active x != 0 && s.behindPackets w t word) && !s.bodyWaits w t l x word)

/-- Whether the team of a launch is at work: placed, and neither it nor its launch or context held. -/
def State.runs (s : State) (t : Team) (l : Launch) : Bool :=
  t.core.isSome && !t.saved && !l.held && !s.ctxHeld l.node l.ccn

/-- Whether a wave is ready (R288). -/
def State.waveReady (s : State) (w : Wave) : Bool :=
  w.status == .ready && w.exec != 0 && w.yielded.isNone &&
    match s.team? w.ref.team, s.launch? w.ref.team.launch with
    | some t, some l => s.runs t l && s.wordReady w t l (s.fetchWave w t l)
    | _, _ => false

/-! ### Which wave issues (R289) -/

/-- The core and partition of a wave. -/
def State.placeOf (s : State) (w : Wave) : Option (Nat × Nat × Nat × Nat) :=
  (s.team? w.ref.team).bind (fun t => t.core.map (fun c => (t.node, t.die, c, w.part)))

/-- The age keys of a wave (R289). -/
def State.ageOf (s : State) (w : Wave) : Nat × Nat × Nat × Nat :=
  (((s.team? w.ref.team).map (·.placeTime)).getD 0, w.ref.team.launch, w.ref.team.tm, w.ref.num)

/-- Whether age keys are older than others. -/
def olderKeys (a b : Nat × Nat × Nat × Nat) : Bool :=
  decide (a.1 < b.1) || (a.1 == b.1 && (decide (a.2.1 < b.2.1) || (a.2.1 == b.2.1 &&
    (decide (a.2.2.1 < b.2.2.1) || (a.2.2.1 == b.2.2.1 && decide (a.2.2.2 < b.2.2.2))))))

/-- Whether one ready wave issues before another of its partition (R289): a boosted one first, then the older. -/
def State.issuesBefore (s : State) (a b : Wave) : Bool :=
  (a.boosted && !b.boosted) || (a.boosted == b.boosted && olderKeys (s.ageOf a) (s.ageOf b))

/-- Whether the issuing group has used its 1,024 issues: the rotation comes before its next one (R150). -/
def Wave.rotates (w : Wave) : Bool := w.fallback && decide (1024 ≤ w.groupIssues)

/-- The waves that issue next, one for each partition that has a ready wave. -/
def State.nextWaves (s : State) : List Party :=
  let ready := s.waves.filter (fun w => !w.rotates && s.waveReady w)
  (ready.filter (fun w => ready.all (fun v => s.placeOf v != s.placeOf w || !s.issuesBefore v w))).map (fun w => .wave w.ref)

/-- The sub-span of a span that issues next (R274): of those at the lowest program counter, that of the lowest id. -/
def lowestSub : List Sub → Option Nat
  | [] => none
  | b :: t =>
    match lowestSub t with
    | none => some 0
    | some i =>
      let c := t.getD i b
      if c.pc < b.pc || (c.pc == b.pc && decide (c.ids.low < b.ids.low)) then some (i + 1) else some 0

/-- The spans that issue next: launches in their prelude, and teams that are not cut. -/
def State.nextSpans (s : State) : List Party :=
  s.launches.filterMap (fun l =>
    if l.running && !l.held && !l.dealt && !s.ctxHeld l.node l.ccn then (lowestSub l.subs).map (fun i => Party.launch l.num i) else none) ++
  s.teams.filterMap (fun t =>
    match s.launch? t.ref.launch with
    | none => none
    | some l => if !t.cut && s.runs t l then (lowestSub t.subs).map (fun i => Party.team t.ref i) else none)

/-- Fetch for a party. -/
def State.fetch (s : State) (p : Party) : Option Fetched :=
  match p with
  | .none => none
  | .wave r => match s.wave? r, s.team? r.team, s.launch? r.team.launch with
    | some w, some t, some l => some (s.fetchWave w t l)
    | _, _, _ => none
  | .team t i => match s.team? t, s.launch? t.launch with
    | some m, some l => (m.subs[i]?).map (fun b => s.fetchAt m.node m.segs m.world (l.kernel.text + b.pc))
    | _, _ => none
  | .launch n i => match s.launch? n with
    | some l => (l.subs[i]?).map (fun b => s.fetchAt l.node l.segs l.region.world (l.kernel.text + b.pc))
    | none => none

/-- A fetch that fails (R59): the trap of the issuing group, with the notice of a failed world check
(R374), or first the deal or the cut (R285). -/
def State.fetchTrap (s : State) (p : Party) (cause detail : Nat) : State :=
  match p with
  | .none => s
  | .wave r => match s.wave? r, s.team? r.team, s.launch? r.team.launch with
    | some w, some t, some l =>
      let a := (l.kernel.text + w.groupPc) % 2 ^ 64
      if s.updating r then s
      else
        let x : TrapInfo := { cause := cause, detail := detail, group := w.exec, pc := w.groupPc,
                              addrs := (maskLanes w.exec).map (fun i => (i, a)) }
        (s.worldTrapNotice t w l cause detail).takeTrap r x 4
    | _, _, _ => s
  | .team t _ => match s.team? t, s.launch? t.launch with
    | some m, some l => s.cut l m
    | _, _ => s
  | .launch n _ => match s.launch? n with
    | some l => s.deal l
    | none => s

end Sys2Proof.Machine
end

