-- ==== Sys2Proof/Machine/Watch.lean ====
section
/-! DEFINITION. Scheduler events of a wave (R150, R152, R289), and the waiting budget with its snapshots (R352, R353). -/
namespace Sys2Proof.Machine
open Sys2Proof

/-! ### Boost, yield, rotation (R150, R152, R289) -/

/-- Change the wave of a reference, if it exists. -/
def State.modWave (s : State) (r : WaveRef) (f : Wave → Wave) : State :=
  { s with waves := s.waves.map (fun v => if v.ref == r then f v else v) }

/-- WAVE_BOOST (R289): a wave that has been ready for 256 cycles without issuing is boosted. -/
def State.boost (s : State) (r : WaveRef) : State :=
  match s.wave? r with
  | none => s
  | some w => if s.waveReady w && decide (w.readyAt + 256 ≤ s.time) then s.modWave r (fun v => { v with boosted := true }) else s

/-- WAVE_BOOST (R289). -/
def execWaveBoost (r : WaveRef) (s : State) : Host.Outcome State Fault Refusal := settle (s.boost r)

/-- YIELD_EXPIRY (R152): 64 cycles after YIELD the wave is passed over no longer. -/
def State.yieldExpire (s : State) (r : WaveRef) : State :=
  match s.wave? r with
  | none => s
  | some w => if w.yielded.isSome && decide (w.yieldAt + 64 ≤ s.time) then s.modWave r (fun v => { v with yielded := none }) else s

/-- YIELD_EXPIRY (R152). -/
def execYieldExpiry (r : WaveRef) (s : State) : Host.Outcome State Fault Refusal := settle (s.yieldExpire r)

/-- The program counters of the groups of a wave, ascending. -/
def Wave.groupPcs (w : Wave) : List Nat :=
  (((maskLanes w.candidates).map w.pcOf).eraseDups).foldr (insertBy (fun a b => decide (a < b))) []

/-- Whether a group is held (R150): it stands at a JOIN while an item that has not ended has a lower program counter. -/
def State.groupHeld (s : State) (w : Wave) (t : Team) (l : Launch) (pc : Nat) : Bool :=
  decide (w.lowPc w.candidates < pc) &&
    match s.fetchAt t.node t.segs t.world (l.kernel.text + pc) with
    | .ins _ _ word _ _ => word.maj == 0x4F && word.fn == 1
    | .trap _ _ => false

/-- FALLBACK_ROTATION (R150): after 1,024 issue cycles the next group that is not held issues, wrapping round. -/
def State.rotate (s : State) (r : WaveRef) : State :=
  match s.wave? r, s.team? r.team, s.launch? r.team.launch with
  | some w, some t, some l =>
    if !w.rotates then s
    else
      let free := w.groupPcs.filter (fun p => !s.groupHeld w t l p)
      let next := (free.find? (fun p => decide (w.groupPc < p))).getD (free.headD w.groupPc)
      s.modWave r (fun v => { v with group := some next, groupIssues := 0 })
  | _, _, _ => s

/-- FALLBACK_ROTATION (R150). -/
def execFallbackRotation (r : WaveRef) (s : State) : Host.Outcome State Fault Refusal := settle (s.rotate r)

/-! ### The waiting budget (R352) -/

/-- The values of a region as they were last read for a launch or a placement (R268, R364). -/
def State.regionOf (s : State) (node rcb : Nat) : Option Region :=
  (s.launches.find? (fun l => l.node == node && l.region.rcb == rcb)).map (·.region)

/-- The placed teams of a region on a node. -/
def State.regionTeams (s : State) (node rcb : Nat) : List Team :=
  s.placedOf (fun l => l.node == node && l.region.rcb == rcb)

/-- The live waves of a region's placed teams. -/
def State.regionWaves (s : State) (node rcb : Nat) : List Wave :=
  let ts := (s.regionTeams node rcb).map (·.ref)
  s.waves.filter (fun w => w.live != 0 && ts.contains w.ref.team)

/-- The lines of a region's external-wait list (R266). -/
def State.extLines (s : State) (node : Nat) (r : Region) : List Loc :=
  let t := s.segTable node (s.rcbWord node r.ctxRcb 0x30 8)
  r.extw.filterMap (fun a => match s.resolve node t true a 1 .read with
    | .ok k => some (Loc.glob k).line
    | .trap _ _ => none
    | .remote m => some (Loc.glob (physKey m (gOff a))).line)

/-- Whether a region waits (R352): every live wave of its placed teams is asleep, one watches a line outside the external-wait
lines, and no engine command of the teams is outstanding. -/
def State.regionWaits (s : State) (node rcb : Nat) : Bool :=
  let ws := s.regionWaves node rcb
  !ws.isEmpty && ws.all (fun w => w.status == .asleep) &&
    (match s.regionOf node rcb with
      | none => false
      | some r => ws.any (fun w => w.wake.any (fun l => !(s.extLines node r).contains l))) &&
    (s.regionTeams node rcb).all (fun t => t.cut && !s.outstanding t.ref)

/-- The five counters of a ring with DBASE and CFG (R352). -/
def State.ringWords (s : State) (key : Nat) : List Nat :=
  [s.mem.word (key + 0x10) 4, s.mem.word (key + 0x14) 4, s.mem.word (key + 0x18) 4, s.mem.word (key + 0x80) 4,
   s.mem.word (key + 0x84) 4, s.mem.word key 8, s.mem.word (key + 8) 4]

/-- The appendix of a snapshot (R352): sleeping waves with their lines, barrier objects, and rings that are watched. -/
def State.snapshotOf (s : State) (ws : List Wave) (ts : List Team) (v : Save) : Save :=
  let keys := ((ws.flatMap (·.wake)).filterMap (fun l => match l with
    | .glob a => some (a / 256 * 256)
    | .scr _ _ => none)).eraseDups
  { v with
    snapshot := ws.map (fun w => (w.ref, w.wake))
    barriers := ts.flatMap (fun t => t.barriers.map (fun b =>
      (t.ref, [b.off, s.barWord t b.off 1, b.arrived.toNat, barExpect (s.barWord t b.off 0)])))
    rings := (keys.filter (fun k => ringCfgOk (s.mem.word (k + 8) 4))).map (fun k => (k, s.ringWords k)) }

/-- The wait counter of a region. -/
def Ctx.waited (c : Ctx) (rcb : Nat) : Nat := ((c.waits.find? (fun p => p.1 == rcb)).map Prod.snd).getD 0

/-- Change a context of a node. -/
def State.modCtx (s : State) (node ccn : Nat) (f : Ctx → Ctx) : State :=
  { s with ctxs := s.ctxs.map (fun c => if c.node == node && c.ccn == ccn then f c else c) }

/-- Change a slot of the save pool. -/
def State.modSave (s : State) (n : Nat) (f : Save → Save) : State :=
  { s with saves := s.saves.map (fun v => if v.num == n then f v else v) }

/-- WAITING_BUDGET_EXPIRY (R352): the context is pre-empted under a snapshot, or only the record is published. -/
def State.budgetExpire (s : State) (node rcb : Nat) : State :=
  match s.regionOf node rcb with
  | none => s
  | some r =>
    match s.ctxs.find? (fun c => c.node == node && sameAddr node c.rcb r.ctxRcb) with
    | none => s
    | some c =>
      let rec_ (save : Nat) : Record := ⟨5, 0, rcb, save, whereWord node 0 0 0 0 0, 0, 0, 0, 0, s.time⟩
      if c.waited rcb ≤ r.waitb || c.held.isSome || !s.regionWaits node rcb then s
      else if bitAt r.modes 20 then
        if c.reported.contains rcb then s
        else (s.modCtx node c.ccn (fun d => { d with reported := rcb :: d.reported })).publish node r.fdom (rec_ 0)
      else if !s.ctxCanStop (fun l => l.ofCtx node c.ccn) then s
      else
        let ts := s.placedOf (fun l => l.ofCtx node c.ccn)
        let ws := s.waves.filter (fun w => w.status == .asleep && ts.any (fun t => t.ref == w.ref.team))
        let q := s.preemptCtx node c.ccn 4
        (q.1.modSave q.2 (s.snapshotOf ws ts)).publish node r.fdom (rec_ q.2)

/-- WAITING_BUDGET_EXPIRY (R352). -/
def execWaitingBudgetExpiry (node rcb : Nat) (s : State) : Host.Outcome State Fault Refusal := settle (s.budgetExpire node rcb)

end Sys2Proof.Machine
end

