-- ==== Sys2Proof/Machine/Gang.lean ====
section
/-! DEFINITION. Gang slices (R350, R351): the boundary at a node, the caldera gang barrier's arrivals, its abort, and the decision
at each node. -/
namespace Sys2Proof.Machine
open Sys2Proof

/-- The domain time of boundary k (R351). -/
def GangSched.boundary (g : GangSched) (k : Nat) : Nat := g.t0 + k * g.slice

/-- The gang of slice k (R351). -/
def GangSched.gangOf (g : GangSched) (k : Nat) : Nat := g.gangs.getD (k % max 1 g.gangs.length) 0

/-- The latest boundary that has fallen due at a time, at or above the next one of the node. -/
def GangNode.due (g : GangNode) (now : Nat) : Option (GangSched × Nat) :=
  match g.sched with
  | none => none
  | some c =>
    if g.prep.isSome || now < c.boundary g.slice then none
    else some (c, (now - c.t0) / max 1 c.slice)

/-- The launches of gangs that run on a node. -/
def Launch.gangRuns (l : Launch) (node : Nat) : Bool := l.node == node && bitAt l.flags 2 && !l.held

/-- Whether a launch is of a gang on a node. -/
def Launch.ofGang (l : Launch) (node gang : Nat) : Bool := l.node == node && bitAt l.flags 2 && l.gang == gang

/-- Release the launches of a gang on a node: its loaded teams go on (R349, R350). -/
def State.releaseGang (s : State) (node gang : Nat) : State :=
  let s1 : State := { s with launches := s.launches.map (fun l => if l.ofGang node gang then { l with held := false } else l) }
  (s1.placedOf (fun l => l.ofGang node gang)).foldl (fun s t => s.startTeam t) s1

/-- Load the images of a gang on a node, every wave held at its first issue (R350): the teams of each launch, where they fit. -/
def State.loadGang (s : State) (node gang : Nat) : State :=
  (s.launches.filter (fun l => l.ofGang node gang && l.held)).foldl (fun (s : State) l =>
    (s.placeAll l.num true ((s.teams.filter (fun t => t.ref.launch == l.num && t.core.isNone)).map (·.ref))).getD s) s

/-- Discard the loaded images of a gang on a node (R350). -/
def State.unloadGang (s : State) (node gang : Nat) : State :=
  { s with teams := s.teams.map (fun t => if (s.launch? t.ref.launch).any (fun l => l.ofGang node gang && l.held) then { t with core := none } else t) }

/-- Change the gang state of a node. -/
def State.modGang (s : State) (node : Nat) (f : GangNode → GangNode) : State := s.modNode node (fun d => { d with gang := f d.gang })

/-- GANG_SLICE_BOUNDARY (R350): the node saves the outgoing gang and loads the incoming one; a schedule that the firmware keeps
ends with the last launch of its gangs (R351). -/
def State.sliceBoundary (s : State) (node : Nat) : State :=
  match (s.node? node).bind (fun d => (d.gang.due s.time).map (fun p => (d.gang, p))) with
  | none => s
  | some (g, c, k) =>
    if !g.hosted && s.launches.all (fun l => l.node != node || !bitAt l.flags 2) then s.modGang node (fun x => { x with sched := none, cur := none, slice := 0 })
    else if !s.ctxCanStop (fun l => l.gangRuns node) then s
    else
      let rcb := ((s.launches.find? (fun l => l.gangRuns node)).map (·.region.ctxRcb)).getD 0
      let s1 := ((s.saveLaunches (fun l => l.gangRuns node)).newImage node 5 rcb).1
      (s1.loadGang node (c.gangOf k)).modGang node (fun x => { x with prep := some (k, c.gangOf k), slice := k, arrivedAt := none })

/-- GANG_SLICE_BOUNDARY (R350). -/
def execGangSliceBoundary (node : Nat) (s : State) : Host.Outcome State Fault Refusal := settle (s.sliceBoundary node)

/-- The nodes of the gang barrier: those that hold a schedule. -/
def State.gangNodes (s : State) : List Nat := (s.nodes.filter (fun d => d.gang.sched.isSome)).map (·.num)

/-- Whether a round of the gang barrier is over: decided, and no node waits for the decision. -/
def State.roundOver (s : State) (r : GangRoot) : Bool :=
  r.decision.isSome && s.nodes.all (fun d => d.gang.prep.all (fun p => p.1 % 65536 != r.gen))

/-- Count an arrival in a round: the round commits when every node has arrived by T + G. -/
def State.rootArrive (s : State) (r : GangRoot) (node : Nat) : State :=
  let arrived := if r.arrived.contains node then r.arrived else r.arrived ++ [node]
  let all := s.gangNodes.all (fun n => arrived.contains n)
  { s with gangRoot := some { r with arrived := arrived, decision := if all && decide (s.time ≤ r.boundary + r.grace) then some true else none } }

/-- GANG_BARRIER_ARRIVAL (R350): an arrival of the root's generation is counted; one that comes after the decision is dropped. -/
def State.gangArrive (s : State) (node gen : Nat) : State :=
  match (s.node? node).bind (fun d => match d.gang.prep, d.gang.sched with
    | some p, some c => if p.1 % 65536 == gen && d.gang.arrivedAt.isNone then some (p.1, c) else none
    | _, _ => none) with
  | none => s
  | some (k, c) =>
    let fresh : GangRoot := ⟨gen, c.boundary k, c.grace, [], none⟩
    let sent := s.modGang node (fun x => { x with arrivedAt := some gen })
    match s.gangRoot with
    | none => sent.rootArrive fresh node
    | some r =>
      if r.gen == gen then (if r.decision.isSome then sent.bump node 0 else sent.rootArrive r node)
      else if decide (0 < toSigned 16 (gen + 65536 - r.gen)) then (if s.roundOver r then sent.rootArrive fresh node else s)
      else sent.bump node 0

/-- GANG_BARRIER_ARRIVAL (R350). -/
def execGangBarrierArrival (node gen : Nat) (s : State) : Host.Outcome State Fault Refusal := settle (s.gangArrive node gen)

/-- GANG_ABORT (R350): at T + G without every arrival, the root decides to abort. -/
def State.gangAbort (s : State) : State :=
  match s.gangRoot with
  | none => s
  | some r =>
    if r.decision.isNone && decide (r.boundary + r.grace ≤ s.time) then { s with gangRoot := some { r with decision := some false } } else s

/-- GANG_ABORT (R350). -/
def execGangAbort (s : State) : Host.Outcome State Fault Refusal := settle s.gangAbort

/-- The record of an aborted change (R350). -/
def State.gangLate (s : State) (node gen : Nat) (l : Option Launch) : State :=
  match l with
  | none => s.publish node 0 ⟨6, 0, 0, 0, whereWord node 0 0 0 0 0, 0, 0, 0, gen, s.time⟩
  | some l => s.publish node l.region.fdom ⟨6, 0, l.region.rcb, 0, whereWord node 0 0 0 0 0, 0, 0, 0, gen, s.time⟩

/-- GANG_DECISION (R350): on commit the incoming gang runs; on abort the previous one resumes, and a record is published. -/
def State.gangDecide (s : State) (node : Nat) : State :=
  match s.gangRoot, (s.node? node).bind (fun d => d.gang.prep.map (fun p => (d.gang.cur, p))) with
  | some r, some (cur, k, next) =>
    match r.decision with
    | none => s
    | some commit =>
      if k % 65536 != r.gen then s
      else
        let s2 := s.modGang node (fun x => { x with prep := none, arrivedAt := none, slice := k + 1, cur := if commit then some next else x.cur })
        if commit then s2.releaseGang node next
        else
          let s2 := s2.unloadGang node next
          let s3 := match cur with
            | none => s2
            | some g => s2.releaseGang node g
          s3.gangLate node r.gen (s3.launches.find? (fun l => l.node == node && bitAt l.flags 2 && some l.gang == cur))
  | _, _ => s

/-- GANG_DECISION (R350). -/
def execGangDecision (node : Nat) (s : State) : Host.Outcome State Fault Refusal := settle (s.gangDecide node)

end Sys2Proof.Machine
end

