-- ==== Sys2Proof/Machine/Boot.lean ====
section
/-! DEFINITION. Device reset (R356) and boot: the firmware image's checks and the measurements (R378 to R381). -/
namespace Sys2Proof.Machine
open Sys2Proof

/-! ### Boot (R378 to R381) -/

/-- The enable records of the four dies, in die order (R104, R380). -/
def Node.enableRecords (d : Node) : List Byte := (List.range 4).flatMap (fun i => Config.enableRecord (d.disabled.getD i []))

/-- Whether a header and a body pass the ROM's checks (R379). -/
def imageOk (header body : List Byte) : Bool :=
  header.take 4 == [0x45, 0x46, 0x57, 0x00] && (header.drop 112).all (fun b => b == 0) &&
    ofBytes (sha512 ((header.drop 16).take 32)) == Config.fuseKeyHash &&
    edVerify ((header.drop 16).take 32) ((header.drop 48).take 64) (header.take 48 ++ body) &&
    decide (Config.fuseMinSvn ≤ ofBytes ((header.drop 4).take 4))

/-- What an accepted image leaves on its node (R379, R380): the measurements ms0 to ms3, and the firmware runs. -/
def Node.boot (d : Node) (header body : List Byte) : Node :=
  let digest := ofBytes (sha512 (header ++ body))
  let d1 := ((d.extend 0 (sha512 header)).extend 1 (sha512 body)).extend 2 (sha512 d.enableRecords)
  { d1.extend 3 (toBytes 64 (Config.fwConfigDigest digest)) with booted := true, svn := ofBytes ((header.drop 4).take 4), fwDigest := digest }

/-- The boot ROM's run (R379): the image at node physical 0; an image that reaches beyond the memory is refused. -/
def State.tryBoot (s : State) (node : Nat) : State :=
  let k := physKey node 0
  let header := s.mem.readN k 128
  let size := ofBytes ((header.drop 8).take 8)
  if header.take 4 != [0x45, 0x46, 0x57, 0x00] || physBytes < 128 + size then s
  else
    let body := s.mem.readN (k + 128) size
    if imageOk header body then s.modNode node (fun d => d.boot header body) else s

/-! ### Device reset (R356) -/

/-- A node as device reset leaves it: what fuses fix stays. -/
def Node.resetKeep (d : Node) : Node := { Node.reset d.num with disabled := d.disabled }

/-- Whether a stream lies on a node. -/
def State.streamOn (s : State) (node : Nat) (q : StreamRef) : Bool :=
  match q with
  | .team t _ => (s.team? t).any (fun m => m.node == node)
  | .ctx n _ => n == node

/-- Whether a reference names a team of a node. -/
def State.teamOn (s : State) (node : Nat) (t : TeamRef) : Bool := (s.team? t).any (fun m => m.node == node)

/-- Everything of a node ends, without a save image (R356); a send queue that waited for a delivery there waits no longer (R368). -/
def State.clearNode (s : State) (node : Nat) : State :=
  let freed := (s.deliveries.filter (fun d => d.node == node)).foldl (fun (s : State) d => s.setBlocked d.srcNode d.srcDie node false) s
  { s with
    nodes := freed.nodes.map (fun d => if d.num == node then d.resetKeep else { d with frags := d.frags.filter (fun f => f.srcNode != node) })
    ctxs := s.ctxs.filter (fun c => c.node != node)
    placed := s.placed.filter (fun p => p.node != node)
    launches := s.launches.filter (fun l => l.node != node)
    waves := s.waves.filter (fun w => !s.teamOn node w.ref.team)
    streams := s.streams.filter (fun q => !s.streamOn node q.ref)
    teams := s.teams.filter (fun t => t.node != node)
    cores := s.cores.filter (fun c => c.node != node)
    deadStreams := s.deadStreams.filter (fun f => f.node != node)
    deliveries := s.deliveries.filter (fun d => d.node != node)
    arrivals := s.arrivals.filter (fun a => !s.teamOn node a.team)
    barriers := (s.barriers.map (fun b => { b with teams := b.teams.filter (fun p => !s.teamOn node p.1) })).filter (fun b =>
      !b.releasing || !b.teams.isEmpty)
    shoots := s.shoots.filter (fun x => x.node != node)
    saves := s.saves.filter (fun v => v.node != node)
    gangRoot := s.gangRoot.map (fun r => { r with arrived := r.arrived.filter (fun n => n != node) }) }

/-- DEVICE_RESET (R356): the node is cleared, and boots. -/
def execDeviceReset (node : Nat) (s : State) : Host.Outcome State Fault Refusal := settle ((s.clearNode node).tryBoot node)

end Sys2Proof.Machine
end

