-- ==== Sys2Proof/Machine/Mgmt.lean ====
section
/-! DEFINITION. Management requests (R363): who is answered, and the requests but for the debugger's and SPDM (R338, R339, R341,
R349 to R351, R360, R365, R370, R381). -/
namespace Sys2Proof.Machine
open Sys2Proof

/-- The answer to a management request: its status and its results. -/
structure Answer where
  s : State
  status : Nat
  data : List Byte := []

/-- Done. -/
def Answer.ok (s : State) : Answer := ⟨s, 0, []⟩
/-- Refused by the region's mode. -/
def refusedMode (s : State) : Answer := ⟨s, 1, []⟩
/-- A bad argument. -/
def badArg (s : State) : Answer := ⟨s, 2, []⟩
/-- Not permitted. -/
def notPermitted (s : State) : Answer := ⟨s, 3, []⟩

/-- Send a reply (R363). -/
def State.reply (a : Answer) (h : Mgmt) (code : Nat) : State :=
  { a.s with replies := a.s.replies ++ [⟨h.adapter, h.node, code, h.tag, a.status, a.data⟩] }

/-- Whether the sender of a request is a management-enabled adapter (R363). -/
def Node.manages (d : Node) (h : Mgmt) : Bool := decide (192 ≤ h.adapter) && decide (h.adapter ≤ 254) && Config.mgmtEnabled d.fwDigest h.adapter

/-- Answer a management request (R363, R381): a node without firmware answers MEM and ENABLE only (`early`), from any host adapter;
otherwise a request from any other sender than a management-enabled adapter is dropped and counted. -/
def State.manage (s : State) (h : Mgmt) (code : Nat) (early : Bool) (f : State → Node → Answer) : State :=
  match s.node? h.node with
  | none => s
  | some d =>
    if !d.booted then
      if h.adapter < 192 || 254 < h.adapter then s.bump h.node 5
      else State.reply (if early then f s d else notPermitted s) h code
    else if d.manages h then State.reply (f s d) h code
    else s.bump h.node 5

/-- Whether a mode bit is set in the region that a request names; `none` where it names no region. -/
def State.modeOf (s : State) (h : Mgmt) (bit : Nat) : Option Bool := (s.region? h.node h.rcb).map (fun r => bitAt r.modes bit)

/-- A request that needs a mode bit set. -/
def State.withMode (s : State) (h : Mgmt) (bit : Nat) (f : Unit → Answer) : Answer :=
  match s.modeOf h bit with
  | none => badArg s
  | some false => refusedMode s
  | some true => f ()

/-! ### PEER_SET, FDOM_SET, ROUTE_SET (R339, R360, R365) -/

/-- PEER_SET (R360): an entry is written; a valid one makes its context known on the node. -/
def State.peerSet (s : State) (node ccn lo hi : Nat) : Answer :=
  if 4095 < ccn || lo % 256 != 0 || 2 ^ 64 ≤ lo || 2 ^ 64 ≤ hi || bits hi 31 1 != 0 then badArg s
  else
    let p : Peer := ⟨ccn, lo, bitAt hi 0, BitVec.ofNat 16 (bits hi 47 32), BitVec.ofNat 16 (bits hi 63 48)⟩
    let s1 := s.modNode node (fun d => { d with peers := p :: d.peers.filter (fun q => q.ccn != ccn) })
    if !p.v then .ok s1
    else if s1.ctxs.any (fun c => c.node == node && c.ccn == ccn) then .ok (s1.modCtx node ccn (fun c => { c with rcb := lo }))
    else .ok { s1 with ctxs := s1.ctxs ++ [⟨node, ccn, lo, [0, 0, 0, 0], none, [], [], 0⟩] }

/-- PEER_SET (R360). -/
def execPeerSet (h : Mgmt) (ccn lo hi : Nat) (s : State) : Host.Outcome State Fault Refusal :=
  settle (s.manage h 1 false (fun s d => s.peerSet d.num ccn lo hi))

/-- FDOM_SET (R339): an entry of the fault domain table. -/
def State.fdomSet (s : State) (node n ring : Nat) : Answer :=
  if 255 < n || ring % 256 != 0 || 2 ^ 64 ≤ ring then badArg s
  else .ok (s.modNode node (fun d => { d with fdoms := (n, ring) :: d.fdoms.filter (fun p => p.1 != n) }))

/-- FDOM_SET (R339). -/
def execFdomSet (h : Mgmt) (n ring : Nat) (s : State) : Host.Outcome State Fault Refusal :=
  settle (s.manage h 2 false (fun s d => s.fdomSet d.num n ring))

/-- Write a directory entry. -/
def Node.setRoute (d : Node) (r : RouteDir) : Node :=
  { d with routes := r :: d.routes.filter (fun e => !(e.die == r.die && e.ccn == r.ccn && e.table == r.table)) }

/-- Write an entry of a host-held table. -/
def Node.setHostRoute (d : Node) (r : RouteWord) : Node :=
  { d with hostRoutes := r :: d.hostRoutes.filter (fun e => !(e.die == r.die && e.ccn == r.ccn && e.table == r.table && e.expert == r.expert)) }

/-- ROUTE_SET (R364, R365): a directory entry, or under MODES bit 18 an entry of a table in the save pool. -/
def State.routeSet (s : State) (h : Mgmt) (die ccn : Nat) (r : RouteArg) : Answer :=
  if 3 < die || 4095 < ccn then badArg s
  else match r with
    | .dir table addr count =>
      if 15 < table || addr % 8 != 0 || 2 ^ 64 ≤ addr || 2 ^ 32 ≤ count then badArg s
      else .ok (s.modNode h.node (fun d => d.setRoute ⟨die, ccn, table, addr, count⟩))
    | .entry table expert w =>
      if 15 < table then badArg s
      else s.withMode h 18 (fun _ => .ok (s.modNode h.node (fun d => d.setHostRoute ⟨die, ccn, table, expert, w⟩)))

/-- ROUTE_SET (R365). -/
def execRouteSet (h : Mgmt) (die ccn : Nat) (r : RouteArg) (s : State) : Host.Outcome State Fault Refusal :=
  settle (s.manage h 3 false (fun s _ => s.routeSet h die ccn r))

/-! ### GANG_SCHED, QUEUE_RESET (R341, R351) -/

/-- GANG_SCHED (R351): under MODES bit 17 the host installs the schedule. -/
def State.gangSched (s : State) (h : Mgmt) (bs : List Byte) : Answer :=
  s.withMode h 17 (fun _ => match (if bs.length == 64 then gangSchedOf bs else none) with
    | none => badArg s
    | some g => .ok (s.modGang h.node (fun x => { x with sched := some g, hosted := true, slice := 0 })))

/-- GANG_SCHED (R351). -/
def execGangSched (h : Mgmt) (bs : List Byte) (s : State) : Host.Outcome State Fault Refusal :=
  settle (s.manage h 4 false (fun s _ => s.gangSched h bs))

/-- QUEUE_RESET (R341): under MODES bit 19 the host resets a halted stream. -/
def State.queueReset (s : State) (h : Mgmt) (q : StreamRef) : Answer :=
  s.withMode h 19 (fun _ => if s.streamOn h.node q && (s.streamOf q).halted then .ok (s.resetStream q) else badArg s)

/-- QUEUE_RESET (R341). -/
def execQueueReset (h : Mgmt) (q : StreamRef) (s : State) : Host.Outcome State Fault Refusal :=
  settle (s.manage h 5 false (fun s _ => s.queueReset h q))

/-! ### WAVE_RESUME, WAVE_END (R338) -/

/-- Drop a slot of the save pool. -/
def State.dropSave (s : State) (n : Nat) : State := { s with saves := s.saves.filter (fun v => v.num != n) }

/-- The frame of a wave that is descheduled for replay on a node. -/
def State.descheduled (s : State) (node : Nat) (r : WaveRef) : Option (Wave × Nat × Frame) :=
  match s.wave? r with
  | none => none
  | some w => match w.status with
    | .descheduled n =>
      match (s.saves.find? (fun v => v.num == n && v.node == node)).bind (·.frame) with
      | some (_, f) => some (w, n, f)
      | none => none
    | _ => none

/-- Resume a descheduled wave, as TRET from its frame (R338): in a team that is not at work the entries stay in the replay queue
until it is resumed. -/
def State.resumeFrame (s : State) (w : Wave) (n : Nat) (f : Frame) : State :=
  let s1 := s.dropSave n
  let r := w.ref
  match s1.team? r.team, s1.launch? r.team.launch with
  | some t, some l =>
    let w1 : Wave := { w with status := .ready }
    let bad : State := (s1.setWave { w1 with pend := f.entries }).takeTrap r { cause := 0x11, detail := 0, group := f.tmask &&& w.live, pc := f.tpc } 4
    if f.resume % 4 != 0 then bad
    else if s1.runs t l then
      match s1.resumeGroup w1 t l f.tmask f.k22 f.k23 f.resume f.entries with
      | none => bad
      | some (s2, w2) => s2.setWave w2
    else
      let w2 : Wave := { w1 with k := setFile 0 (setFile 0 w1.k 22 f.k22) 23 f.k23, pend := f.entries.map Pend.withdrawn, group := none }
      s1.setWave (w2.setPc (f.tmask &&& w.live) f.resume)
  | _, _ => s1

/-- WAVE_RESUME (R338). -/
def execWaveResume (h : Mgmt) (r : WaveRef) (s : State) : Host.Outcome State Fault Refusal :=
  settle (s.manage h 6 false (fun s d => match s.descheduled d.num r with
    | none => badArg s
    | some (w, n, f) => .ok (s.resumeFrame w n f)))

/-- WAVE_END (R338): EXIT of every item, and the entries are dropped. -/
def State.endFrame (s : State) (w : Wave) (n : Nat) : State :=
  ((s.dropSave n).setWave { w with status := .ready, live := 0, pend := [] }).endIfDone w.ref

/-- WAVE_END (R338). -/
def execWaveEnd (h : Mgmt) (r : WaveRef) (s : State) : Host.Outcome State Fault Refusal :=
  settle (s.manage h 7 false (fun s d => match s.descheduled d.num r with
    | none => badArg s
    | some (w, n, _) => .ok (s.endFrame w n)))

/-! ### CTX_RESUME, CTX_DESTROY (R263, R307, R349, R352) -/

/-- Hold the launches of the gangs that do not run on a node (R350). -/
def State.holdGangs (s : State) (node : Nat) : State :=
  match s.node? node with
  | none => s
  | some d => { s with launches := s.launches.map (fun l =>
      if l.node == node && bitAt l.flags 2 && !d.gang.runs l.gang then { l with held := true } else l) }

/-- CTX_RESUME (R349): a held context goes on; its image is used up and its wait counters start again. -/
def State.ctxResume (s : State) (node ccn : Nat) : Answer :=
  match s.ctxs.find? (fun c => c.node == node && c.ccn == ccn) with
  | none => badArg s
  | some c => match c.held with
    | none => badArg s
    | some n => .ok ((((s.dropSave n).releaseCtx node ccn).holdGangs node).modCtx node ccn (fun c => { c with waits := [], reported := [] }))

/-- CTX_RESUME (R349). -/
def execCtxResume (h : Mgmt) (ccn : Nat) (s : State) : Host.Outcome State Fault Refusal :=
  settle (s.manage h 8 false (fun s d => s.ctxResume d.num ccn))

/-- Whether a team belongs to a context of a node. -/
def State.inCtx (s : State) (node ccn : Nat) (t : TeamRef) : Bool := (s.launch? t.launch).any (fun l => l.ofCtx node ccn)

/-- The keys of the tensor objects of a context: the lowest and the first above (R297, R307). -/
def State.objRange (s : State) (c : Ctx) : Nat × Nat :=
  let t := s.segTable c.node (s.rcbWord c.node c.rcb 0x30 8)
  match s.resolve c.node t true t.ttbase 1 .read with
  | .ok k => (k, k + 128 * t.ttcount)
  | .remote m => (physKey m (gOff t.ttbase), physKey m (gOff t.ttbase) + 128 * t.ttcount)
  | .trap _ _ => (0, 0)

/-- Take a node out of the user sets of a context's objects (R307). -/
def State.clearUsers (s : State) (c : Ctx) : State :=
  let r := s.objRange c
  { s with nodes := s.nodes.map (fun d => { d with users := d.users.map (fun u =>
      if r.1 ≤ u.1 && u.1 < r.2 then (u.1, u.2.filter (fun n => n != c.node)) else u) }) }

/-- CTX_DESTROY (R363): the context ends, with its images, its peer entry and its user-set bits. -/
def State.ctxDestroy (s : State) (node ccn : Nat) : Answer :=
  match s.ctxs.find? (fun c => c.node == node && c.ccn == ccn) with
  | none => badArg s
  | some c =>
    let mine (t : TeamRef) : Bool := s.inCtx node ccn t
    let ofStream (q : StreamRef) : Bool := match q with
      | .team t _ => mine t
      | .ctx n m => n == node && m == ccn
    let s1 := s.clearUsers c
    let s2 : State := { s1 with
      ctxs := s1.ctxs.filter (fun c => !(c.node == node && c.ccn == ccn))
      placed := s1.placed.filter (fun p => !(p.node == node && p.ccn == ccn))
      launches := s1.launches.filter (fun l => !l.ofCtx node ccn)
      waves := s1.waves.filter (fun w => !mine w.ref.team)
      teams := s1.teams.filter (fun t => !mine t.ref)
      streams := s1.streams.filter (fun q => !ofStream q.ref)
      cores := s1.cores.map (fun k => if k.node == node then { k with objs := k.objs.filter (fun o => o.1 != ccn), atc := k.atc.filter (fun e => e.1 != ccn) } else k)
      arrivals := s1.arrivals.filter (fun a => !mine a.team)
      barriers := (s1.barriers.map (fun b => { b with teams := b.teams.filter (fun p => !mine p.1) })).filter (fun b => !b.releasing || !b.teams.isEmpty)
      shoots := s1.shoots.filter (fun x => x.edit != .ctx node ccn)
      saves := s1.saves.filter (fun v => !(v.node == node && (match v.frame, v.image with
        | some f, _ => mine f.1.team
        | none, some i => i.2.1 == c.rcb
        | none, none => false))) }
    .ok (s2.modNode node (fun d => { d with
      peers := d.peers.filter (fun p => p.ccn != ccn)
      routes := d.routes.filter (fun e => e.ccn != ccn)
      hostRoutes := d.hostRoutes.filter (fun e => e.ccn != ccn)
      geners := d.geners.filter (fun x => x.ccn != ccn) }))

/-- CTX_DESTROY (R363). -/
def execCtxDestroy (h : Mgmt) (ccn : Nat) (s : State) : Host.Outcome State Fault Refusal :=
  settle (s.manage h 9 false (fun s d => s.ctxDestroy d.num ccn))

/-! ### COUNTERS, ENABLE, MEM, other codes (R104, R363, R370, R381) -/

/-- COUNTERS (R370). -/
def execCounters (h : Mgmt) (s : State) : Host.Outcome State Fault Refusal :=
  settle (s.manage h 0x0B false (fun s d => ⟨s, 0, d.counters.flatMap (toBytes 8)⟩))

/-- ENABLE (R104, R363). -/
def execEnable (h : Mgmt) (s : State) : Host.Outcome State Fault Refusal :=
  settle (s.manage h 0x0D true (fun s d => ⟨s, 0, d.enableRecords⟩))

/-- MEM (R363, R381): up to 192 bytes of node physical memory outside the save pool; a write of byte 0 of the staging area runs
the boot checks of a node that waits. -/
def State.memAccess (s : State) (h : Mgmt) (d : Node) (addr len : Nat) (data : Option (List Byte)) : Answer :=
  let k := physKey d.num addr
  if 192 < len || physBytes < addr + len || data.any (fun bs => bs.length != len) then badArg s
  else if d.booted && Config.inSavePool d.fwDigest addr len then notPermitted s
  else if s.secureAt k len && !Config.adapterSecure d.fwDigest h.adapter then
    notPermitted (s.worldNotice d.num 7 h.rcb (whereWord d.num 0 0 0 0 0))
  else match data with
    | none => ⟨s, 0, s.mem.readN k len⟩
    | some bs =>
      let s1 := s.wrPhys k bs none
      .ok (if !d.booted && addr == 0 && len != 0 then s1.tryBoot d.num else s1)

/-- MEM (R363). -/
def execMem (h : Mgmt) (addr len : Nat) (data : Option (List Byte)) (s : State) : Host.Outcome State Fault Refusal :=
  settle (s.manage h 0x0E true (fun s d => s.memAccess h d addr len data))

/-- A request of another CODE (R363): STATUS 2. -/
def execUnknownManagementCode (h : Mgmt) (code : Nat) (s : State) : Host.Outcome State Fault Refusal :=
  settle (s.manage h code false (fun s _ => badArg s))

end Sys2Proof.Machine
end

