-- ==== Sys2Proof/Machine/Debug.lean ====
section
/-! DEFINITION. The debugger (R354, R355): stopping waves, reading and writing their state, and letting them go on. -/
namespace Sys2Proof.Machine
open Sys2Proof

/-! ### Stop and resume (R343, R344, R354) -/

/-- The region of the launch of a team on a node. -/
def State.regionOfTeam (s : State) (node : Nat) (t : TeamRef) : Option Nat :=
  (s.launch? t.launch).bind (fun l => if l.node == node then some l.region.rcb else none)

/-- Stop a wave for the debugger, as a pre-emption does: a sleeper keeps its lines, a descheduled wave stays so. -/
def Wave.debugStop (w : Wave) : Wave :=
  match w.status with
  | .ready => { w.stop with status := .stopped }
  | .asleep => { w.stop with status := .stopped }
  | .descheduled _ => w
  | .stopped => w

/-- Stop a wave; the loads it has under way are dropped, and issued again on resume (R165). -/
def State.stopWave (s : State) (r : WaveRef) : State :=
  match s.wave? r with
  | none => s
  | some w => (s.dropLoads r).setWave w.debugStop

/-- Whether the references are waves of the region that a request names. -/
def State.debugs (s : State) (h : Mgmt) (rs : List WaveRef) : Bool :=
  rs.all (fun r => (s.wave? r).isSome && s.regionOfTeam h.node r.team == some h.rcb)

/-- A debugger's request (R354): refused when MODES bit 21 is clear. -/
def State.debug (s : State) (h : Mgmt) (f : State → Answer) : State := s.manage h 0x0A false (fun s _ => s.withMode h 21 (fun _ => f s))

/-- DEBUG_STOP (R354): a wave with an update under way at another node stops once it has answered (R165): until then the request
stays due. -/
def State.debugStop (s : State) (h : Mgmt) (rs : List WaveRef) : State :=
  if rs.any s.updating then { s with agenda := s.agenda ++ [.debugStop h rs] }
  else s.debug h (fun s => if s.debugs h rs then .ok (rs.foldl State.stopWave s) else badArg s)

/-- DEBUG_STOP (R354). -/
def execDebugStop (h : Mgmt) (rs : List WaveRef) (s : State) : Host.Outcome State Fault Refusal := settle (s.debugStop h rs)

/-- Let a stopped wave go on (R344, R354): a sleeper is woken once; in a team at work its replay entries are issued again. -/
def State.unstopWave (s : State) (r : WaveRef) : State :=
  match s.wave? r, s.team? r.team, s.launch? r.team.launch with
  | some w, some t, some l =>
    if w.status != .stopped then s
    else
      let w1 : Wave := { w with status := if w.wake.isEmpty then .ready else .asleep }
      if s.runs t l then (s.setWave w1).resumeWave t l r else s.setWave w1
  | _, _, _ => s

/-- DEBUG_RESUME (R354). -/
def execDebugResume (h : Mgmt) (rs : List WaveRef) (s : State) : Host.Outcome State Fault Refusal :=
  settle (s.debug h (fun s => if s.debugs h rs then .ok (rs.foldl State.unstopWave s) else badArg s))

/-! ### Reading (R354) -/

/-- Whether a wave is stopped for the debugger: it stopped it, or the wave is descheduled for replay and issues nothing (log 15). -/
def Wave.halted (w : Wave) : Bool :=
  match w.status with
  | .stopped => true
  | .descheduled _ => true
  | _ => false

/-- The wave of an item, or none if it is not stopped. -/
def State.stopped? (s : State) (r : WaveRef) : Option Wave := (s.wave? r).bind (fun w => if w.halted then some w else none)

/-- A team with a stopped wave. -/
def State.stoppedTeam? (s : State) (t : TeamRef) : Option Team :=
  if s.waves.any (fun w => w.ref.team == t && w.halted) then s.team? t else none

/-- The replay entries of a stopped wave: those of a descheduled one stand in its frame in the save pool (R338). -/
def State.entriesOf (s : State) (w : Wave) : List Pend :=
  match w.status with
  | .descheduled n => (((s.saves.find? (fun v => v.num == n)).bind (·.frame)).map (fun p => p.2.entries)).getD []
  | _ => w.pend

/-- Replace the replay entries of a stopped wave. -/
def State.setEntries (s : State) (w : Wave) (es : List Pend) : State :=
  match w.status with
  | .descheduled n => s.modSave n (fun v => { v with frame := v.frame.map (fun p => (p.1, { p.2 with entries := es })) })
  | _ => s.setWave { w with pend := es }

/-- A word of a replay entry: of a lane, or (lane 32) of the descriptor (R336). -/
def Pend.wordAt (p : Pend) (live : Mask) (lane i : Nat) : Nat :=
  if lane < 32 then ((p.laneOps lane).getD i 0).toNat else ofBytes (((p.descriptor live).drop (4 * i)).take 4)

/-- Read one item of the state of stopped waves: its bytes, or none for a bad argument. -/
def State.debugRead (s : State) (i : DebugItem) : Option (List Byte) :=
  match i with
  | .vreg r n lane => (s.stopped? r).bind (fun w => if n < w.quota && lane < 32 then
      some (toBytes 4 ((w.v.getD n {}).form.at (s.geo w).index lane)) else none)
  | .kreg r n => (s.stopped? r).bind (fun w => if n < 24 then some (toBytes 4 (w.k.getD n 0).toNat) else none)
  | .xreg r n lane => (s.stopped? r).bind (fun w => if n < 4 && lane < 32 then
      some (toBytes 4 ((w.x.getD n {}).form.at (s.geo w).index lane)) else none)
  | .preds r lane => (s.stopped? r).bind (fun w => if lane < 32 then some (toBytes 1 (w.predByte lane)) else none)
  | .csr r n lane => (s.stopped? r).bind (fun w => (s.team? r.team).bind (fun t =>
      if n == 0xF || 0x20 < n || 32 ≤ lane then none
      else some (toBytes 4 (match csrOut s w t n with
        | .per vs => vs.getD lane 0
        | .uni v => v
        | _ => 0))))
  | .replay r e lane word => (s.stopped? r).bind (fun w => ((s.entriesOf w)[e]?).bind (fun p =>
      if lane ≤ 32 && word < 8 then some (toBytes 4 (p.wordAt w.live lane word)) else none))
  | .scratch t off => (s.stoppedTeam? t).bind (fun m => (s.launch? t.launch).bind (fun l =>
      if off + 4 ≤ l.kernel.alloc then some (s.readAt (s.scrLocs m off 4)) else none))
  | .acm t word => (s.stoppedTeam? t).bind (fun _ => (s.launch? t.launch).bind (fun l =>
      if word < l.kernel.acm then some (toBytes 4 (s.acmRead t word 4)) else none))

/-- The team that an item belongs to. -/
def itemTeam : DebugItem → TeamRef
  | .vreg r _ _ => r.team
  | .kreg r _ => r.team
  | .xreg r _ _ => r.team
  | .preds r _ => r.team
  | .csr r _ _ => r.team
  | .replay r _ _ _ => r.team
  | .scratch t _ => t
  | .acm t _ => t

/-- Whether an item belongs to the region that a request names. -/
def State.debugsItem (s : State) (h : Mgmt) (i : DebugItem) : Bool := s.regionOfTeam h.node (itemTeam i) == some h.rcb

/-- DEBUG_READ (R354). -/
def execDebugRead (h : Mgmt) (i : DebugItem) (s : State) : Host.Outcome State Fault Refusal :=
  settle (s.debug h (fun s => match (if s.debugsItem h i then s.debugRead i else none) with
    | none => badArg s
    | some bs => ⟨s, 0, bs⟩))

/-! ### Writing (R354, R355) -/

/-- Write one lane of a register: the whole lane, whose marks are cleared (R340, R355). -/
def Reg.setLane (r : Reg) (l v : Nat) (ix : Sel → Nat → Nat) : Reg := r.put (.u (BitVec.ofNat 32 v)) (laneBit l) 0xFFFFFFFF ix 0

/-- Write the predicates of a lane from a byte (R347). -/
def Wave.setPredByte (w : Wave) (l v : Nat) : Wave :=
  (List.range 7).foldl (fun (w : Wave) i => w.setPred (i + 1) (laneBit l) (if bitAt v (i + 1) then laneBit l else 0)) w

/-- Write a CSR of wave or item scope of a stopped wave: those that hold state of their own; of WBQ the field WB, and of TXSTAT the
CAUSE, since a stopped wave has no transaction (R343). -/
def Wave.setCsr (w : Wave) (n l v : Nat) : Option Wave :=
  match n with
  | 0 => some { w with trapCause := setAt w.trapCause l (BitVec.ofNat 32 v) }
  | 1 => some { w with trapPc := setAt w.trapPc l (BitVec.ofNat 32 v) }
  | 3 => some { w with ord := bitAt v 0 }
  | 4 => if 2 ^ 16 ≤ v || v / 256 < v % 256 || 88 < v / 256 then none else some { w with bndLo := v % 256, bndHi := v / 256 }
  | 5 => if v / 256 == w.quota && v % 8 == 0 && (v % 256 == 0 || decide (v % 256 + 88 ≤ w.quota)) then some { w with wb := v % 256 } else none
  | 6 => some { w with txCause := bits v 15 12 }
  | 0xC => some { w with flags := (List.range 12).map (fun j => if j / 4 == 0 then bits v (8 * (j % 4) + 5) (8 * (j % 4)) else w.flags.getD j 0) }
  | 0xD => some { w with flags := (List.range 12).map (fun j => if j / 4 == 1 then bits v (8 * (j % 4) + 5) (8 * (j % 4)) else w.flags.getD j 0) }
  | 0xE => some { w with flags := (List.range 12).map (fun j => if j / 4 == 2 then bits v (8 * (j % 4) + 5) (8 * (j % 4)) else w.flags.getD j 0) }
  | _ => none

/-- Write MTDONE of a stopped wave (R28): the SEQ and COUNT of its core, or those that its team's save image holds. -/
def State.setMtDone (s : State) (w : Wave) (v : Nat) : Option State :=
  let seq := bits v 31 16
  let count := bits v 8 0
  if bits v 15 9 != 0 || 256 < count then none
  else (s.team? w.ref.team).map (fun t => match t.core with
    | some c => s.modCore t.node t.die c (fun k => { k with mtSeq := seq, mtCount := count })
    | none => s.modTeam t.ref (fun m => { m with mt := (seq, count) }))

/-- Write a CSR of a stopped wave; EXEC, the thresholds and FORMTAB have no state of their own (R28, R30, R31; log 15). -/
def State.setCsr (s : State) (w : Wave) (n l v : Nat) : Option State :=
  if n == 7 then s.setMtDone w v else (w.setCsr n l v).map s.setWave

/-- A replay entry with one word changed: of a lane, or (lane 32) of the descriptor. -/
def Pend.setWord (p : Pend) (live : Mask) (rank : Nat → Nat) (lane i v : Nat) : Pend :=
  let d (j : Nat) : Word := BitVec.ofNat 32 (if lane == 32 && j == i then v else p.wordAt live 32 j)
  let ops (l j : Nat) : Word := BitVec.ofNat 32 (if lane == l && j == i then v else p.wordAt live l j)
  { entryPend d ops rank p.pc with key := p.key }

/-- Write one item of the state of stopped waves, or none for a bad argument. -/
def State.debugWrite (s : State) (i : DebugItem) (v : Nat) : Option State :=
  match i with
  | .vreg r n lane => (s.stopped? r).bind (fun w => if n < w.quota && lane < 32 then
      some (s.setWave { w with v := updFile {} w.v n (fun q => q.setLane lane v (s.geo w).index) }) else none)
  | .kreg r n => (s.stopped? r).bind (fun w => if n < 24 then some (s.setWave { w with k := setFile 0 w.k n (BitVec.ofNat 32 v) }) else none)
  | .xreg r n lane => (s.stopped? r).bind (fun w => if n < 4 && lane < 32 then
      some (s.setWave { w with x := updFile {} w.x n (fun q => q.setLane lane v (s.geo w).index) }) else none)
  | .preds r lane => (s.stopped? r).bind (fun w => if lane < 32 then some (s.setWave (w.setPredByte lane v)) else none)
  | .csr r n lane => (s.stopped? r).bind (fun w => if lane < 32 then s.setCsr w n lane v else none)
  | .replay r e lane word => (s.stopped? r).bind (fun w => (s.team? r.team).bind (fun t => (s.launch? r.team.launch).bind (fun l =>
      if e < (s.entriesOf w).length && lane ≤ 32 && word < 8 then
        some (s.setEntries w (modAt (s.entriesOf w) e (fun p => p.setWord w.live (s.handleRank t l) lane word v))) else none)))
  | .scratch t off => (s.stoppedTeam? t).bind (fun m => (s.launch? t.launch).bind (fun l =>
      if off + 4 ≤ l.kernel.alloc then some (s.writeAt (s.scrLocs m off 4) (toBytes 4 v) none) else none))
  | .acm t word => (s.stoppedTeam? t).bind (fun _ => (s.launch? t.launch).bind (fun l =>
      if word < l.kernel.acm then some (s.acmWrite t word 4 v) else none))

/-- DEBUG_WRITE (R354, R355). -/
def execDebugWrite (h : Mgmt) (i : DebugItem) (v : Nat) (s : State) : Host.Outcome State Fault Refusal :=
  settle (s.debug h (fun s => match (if s.debugsItem h i then s.debugWrite i v else none) with
    | none => badArg s
    | some s1 => .ok s1))

end Sys2Proof.Machine
end

