-- ==== Sys2Proof/Machine/Spdm.lean ====
section
/-! DEFINITION. The SPDM responder (R382): the order of its requests, its transcript and its answers. What the messages' bytes are
is SPDM 1.2's (log 3): the encoder is a constant of Config, given the content that the spec fixes. -/
namespace Sys2Proof.Machine
open Sys2Proof

/-- DataTransferSize: the most bytes of an SPDM message (R382). -/
def spdmSize : Nat := 240

/-- The responses, as the first argument of the encoder: one for each request, and the errors. -/
def rspVersion : Nat := 0
/-- CAPABILITIES. -/
def rspCapabilities : Nat := 1
/-- ALGORITHMS. -/
def rspAlgorithms : Nat := 2
/-- DIGESTS. -/
def rspDigests : Nat := 3
/-- CERTIFICATE. -/
def rspCertificate : Nat := 4
/-- CHALLENGE_AUTH. -/
def rspChallenge : Nat := 5
/-- MEASUREMENTS. -/
def rspMeasurements : Nat := 6
/-- ERROR UnexpectedRequest. -/
def errUnexpected : Nat := 7
/-- ERROR UnsupportedRequest. -/
def errUnsupported : Nat := 8
/-- ERROR InvalidRequest. -/
def errInvalid : Nat := 9

/-- What the responder does with a message: the response kind with its content, and the next stage; none for an error. -/
structure SpdmRes where
  kind : Nat
  content : Config.SpdmContent := .none
  stage : Option Nat := none

/-- An error: no state changes. -/
def spdmErr (kind : Nat) : SpdmRes := { kind := kind }

/-- The responder's stages: 0 no connection, 1 after GET_VERSION, 2 after GET_CAPABILITIES, 3 negotiated. -/
def spdmFour : Nat := 3

/-- A request that needs a stage, and the adapter to which the connection is bound (R382). -/
def Spdm.inOrder (p : Spdm) (h : Mgmt) (stage : Nat) (r : Unit → SpdmRes) : SpdmRes :=
  if p.adapter == some h.adapter && p.stage == stage then r () else spdmErr errUnexpected

/-- Answer a message (R382): an answer without an error adds the message and the response to the transcript. -/
def State.spdm (s : State) (h : Mgmt) (msg : List Byte) (f : Node → SpdmRes) : State :=
  s.manage h 0x0C false (fun s d =>
    let r : SpdmRes := if spdmSize < msg.length then spdmErr errInvalid else f d
    let bs := (Config.spdmEncode r.kind msg r.content).take spdmSize
    match r.stage with
    | none => ⟨s, 0, bs⟩
    | some st =>
      let old := if r.kind == rspVersion then [] else d.spdm.transcript
      ⟨s.modNode d.num (fun d => { d with spdm := ⟨some h.adapter, st, old ++ msg ++ bs⟩ }), 0, bs⟩)

/-- GET_VERSION (R382): version 1.2 only; a new connection, bound to the sending adapter. -/
def execGetVersion (h : Mgmt) (msg : List Byte) (s : State) : Host.Outcome State Fault Refusal :=
  settle (s.spdm h msg (fun _ => { kind := rspVersion, content := .versions [(1, 2)], stage := some 1 }))

/-- GET_CAPABILITIES (R382): CERT_CAP, CHAL_CAP and MEAS_CAP with signatures, and DataTransferSize. -/
def execGetCapabilities (h : Mgmt) (msg : List Byte) (s : State) : Host.Outcome State Fault Refusal :=
  settle (s.spdm h msg (fun d => d.spdm.inOrder h 1 (fun _ =>
    { kind := rspCapabilities, content := .capabilities true true true true spdmSize, stage := some 2 })))

/-- NEGOTIATE_ALGORITHMS (R382): all three algorithms must be offered. -/
def execNegotiateAlgorithms (h : Mgmt) (msg : List Byte) (s : State) : Host.Outcome State Fault Refusal :=
  settle (s.spdm h msg (fun d => d.spdm.inOrder h 2 (fun _ =>
    if Config.spdmOffers msg then { kind := rspAlgorithms, content := .algorithms .ed25519 .sha512 .sha512, stage := some spdmFour } else spdmErr errInvalid)))

/-- The certificate chain of slot 0 (R382). -/
def Node.certificate (d : Node) : List Byte := Config.certificate (d.ms.getD 0 0)

/-- GET_DIGESTS (R382): the SHA-512 of slot 0's chain. -/
def execGetDigests (h : Mgmt) (msg : List Byte) (s : State) : Host.Outcome State Fault Refusal :=
  settle (s.spdm h msg (fun d => d.spdm.inOrder h spdmFour (fun _ =>
    { kind := rspDigests, content := .bytes (sha512 d.certificate), stage := some spdmFour })))

/-- GET_CERTIFICATE (R382): slot 0 only; another slot gets InvalidRequest (log 15). -/
def execGetCertificate (h : Mgmt) (msg : List Byte) (s : State) : Host.Outcome State Fault Refusal :=
  settle (s.spdm h msg (fun d => d.spdm.inOrder h spdmFour (fun _ =>
    if Config.spdmSlot msg == 0 then { kind := rspCertificate, content := .bytes d.certificate, stage := some spdmFour }
    else spdmErr errInvalid)))

/-- The signature of the transcript hash that ends with a message (R382). -/
def Node.signature (d : Node) (msg : List Byte) : List Byte := Config.spdmSign (d.ms.getD 0 0) (sha512 (d.spdm.transcript ++ msg))

/-- CHALLENGE (R382): signs the transcript hash under slot 0's leaf key. -/
def execChallenge (h : Mgmt) (msg : List Byte) (s : State) : Host.Outcome State Fault Refusal :=
  settle (s.spdm h msg (fun d => d.spdm.inOrder h spdmFour (fun _ =>
    if Config.spdmSlot msg == 0 then { kind := rspChallenge, content := .bytes (d.signature msg), stage := some spdmFour }
    else spdmErr errInvalid)))

/-- The measurements of an index (R382): 1 to 8 give ms0 to ms7, 0xFF all eight. -/
def Node.measurements (d : Node) (i : Nat) : Option (List Byte) :=
  if i == 0xFF then some (d.ms.flatMap (toBytes 64))
  else if 1 ≤ i && i ≤ 8 then some (toBytes 64 (d.ms.getD (i - 1) 0)) else none

/-- GET_MEASUREMENTS (R382): the slots as digest blocks, and a signature where one is asked for. -/
def execGetMeasurements (h : Mgmt) (msg : List Byte) (s : State) : Host.Outcome State Fault Refusal :=
  settle (s.spdm h msg (fun d => d.spdm.inOrder h spdmFour (fun _ =>
    match d.measurements (Config.spdmIndex msg) with
    | none => spdmErr errInvalid
    | some bs =>
      if Config.spdmSigned msg && Config.spdmSlot msg != 0 then spdmErr errInvalid
      else { kind := rspMeasurements, content := .bytes (bs ++ (if Config.spdmSigned msg then d.signature msg else [])),
             stage := some spdmFour })))

/-- An unknown request code (R382). -/
def execUnsupportedRequest (h : Mgmt) (msg : List Byte) (s : State) : Host.Outcome State Fault Refusal :=
  settle (s.spdm h msg (fun _ => spdmErr errUnsupported))

end Sys2Proof.Machine
end

