-- ==== Sys2Proof/Machine/Loader.lean ====
section
/-! DEFINITION. The loader: EZO objects, their relocation and placement (R95, R96, R99 to R108, R333). -/
namespace Sys2Proof.Machine
open Sys2Proof

/-! ### Reading an object (R99 to R103) -/

/-- Replace bytes of a list from an offset. -/
def patch (bs : List Byte) (off : Nat) (new : List Byte) : List Byte := bs.take off ++ new ++ bs.drop (off + new.length)

/-- A section of an object (R100): its type, its contents and log2 of its alignment. -/
structure Section where
  ty : Nat
  bytes : List Byte
  align : Nat
  deriving DecidableEq, Repr

/-- The header's checks (R99). -/
def headerOk (f : List Byte) : Bool :=
  decide (64 ≤ f.length) && f.take 4 == [0x45, 0x5A, 0x4F, 0x00] && fieldAt f 4 2 == 1 && fieldAt f 6 2 == 64 &&
    decide (1 ≤ fieldAt f 8 2) && decide (fieldAt f 8 2 ≤ 64) && fieldAt f 10 2 == 32 && decide (fieldAt f 12 4 < 2) &&
    fieldAt f 28 36 == 0

/-- One section by its header, or a status (R100, R108). -/
def sectionOf (f h : List Byte) : Except Nat Section :=
  let ty := fieldAt h 4 2
  let off := fieldAt h 8 8
  let size := fieldAt h 16 8
  if ty == 0 || 9 < ty || fieldAt h 6 2 != 0 || 12 < fieldAt h 24 1 || fieldAt h 25 7 != 0 || (ty == 1 && size % 16 != 0) then .error 1
  else if f.length < off + size then .error 2
  else .ok ⟨ty, (f.drop off).take size, fieldAt h 24 1⟩

/-- Every result of a list, or its first error. -/
def allOk {α : Type} : List (Except Nat α) → Except Nat (List α)
  | [] => .ok []
  | .error e :: _ => .error e
  | .ok a :: t => match allOk t with
    | .error e => .error e
    | .ok r => .ok (a :: r)

/-- The sections of an object, in table order. STRSEC and SYMSEC have to name sections of their types (log 43: status 2). -/
def sectionsOf (f : List Byte) : Except Nat (List Section) :=
  if !headerOk f then .error 1
  else
    let n := fieldAt f 8 2
    let off := fieldAt f 16 8
    if f.length < off + 32 * n then .error 2
    else match allOk ((List.range n).map (fun i => sectionOf f ((f.drop (off + 32 * i)).take 32))) with
      | .error e => .error e
      | .ok ss =>
        let ty (i : Nat) : Nat := ((ss[i]?).map (·.ty)).getD 0
        if ty (fieldAt f 24 2) != 7 || ty (fieldAt f 26 2) != 6 then .error 2 else .ok ss

/-- The index of the first section of a type. -/
def sectionIx (ss : List Section) (ty : Nat) : Nat := ss.findIdx (fun x => x.ty == ty)

/-- The index of the object's `.str` section (R99). -/
def strSec (f : List Byte) : Nat := fieldAt f 24 2
/-- The index of the object's `.sym` section (R99). -/
def symSec (f : List Byte) : Nat := fieldAt f 26 2

/-- The contents of a section by its index. -/
def secBytes (ss : List Section) (i : Nat) : List Byte := ((ss[i]?).map (·.bytes)).getD []

/-- The contents of the first section of a type: an object with several of one type is read by its first (log 43). -/
def bytesOf (ss : List Section) (ty : Nat) : List Byte := ((ss.find? (fun x => x.ty == ty)).map (·.bytes)).getD []

/-- The records of `n` bytes in every section of a type. -/
def recordsOf (ss : List Section) (ty n : Nat) : List (List Byte) :=
  let bs := (ss.filter (fun x => x.ty == ty)).flatMap (·.bytes)
  (List.range (bs.length / n)).map (fun i => (bs.drop (n * i)).take n)

/-- Whether every symbol record is one of R100: KIND 0 to 5, and the reserved byte 0. -/
def symbolsOk (syms : List Byte) : Bool :=
  (List.range (syms.length / 16)).all (fun i => decide (fieldAt syms (16 * i + 6) 1 ≤ 5) && fieldAt syms (16 * i + 7) 1 == 0)

/-- A zero-terminated string. -/
def stringAt (bs : List Byte) (off : Nat) : List Byte := (bs.drop off).takeWhile (fun b => b != 0)

/-! ### Kernel records (R95, R96, R102) -/

/-- The number of kernel records: the fewest records that name every record behind them as a template. No field gives it, and TFIRST
is not read (log 43). -/
def kernelCount (bs : List Byte) : Nat → Nat → Nat → Option Nat
  | 0, _, _ => none
  | fuel + 1, n, t =>
    let all := bs.length / 128
    if n + t == all then some n
    else if all ≤ n then none
    else kernelCount bs fuel (n + 1) (t + fieldAt bs (128 * n + 42) 2)

/-! ### Stage sets (R105) -/

/-- The starts of stage sets, less A, and the end of the last: each later set at the next multiple of 4. -/
def stageStarts : Nat → List Nat → List Nat × Nat
  | pos, [] => ([], pos)
  | pos, n :: t =>
    let r := stageStarts (if t.isEmpty then pos + n else roundUp (pos + n) 4) t
    (pos :: r.1, r.2)

/-- The logical base of a load, if the sets of every kernel fit the die, and the cores of each kernel's sets the core budget: the base
itself is bounded by the die only (R105; log 43). -/
def baseOf (cores choice : Nat) (ks : List (List Nat)) : Option Nat :=
  let ends := (ks.map (fun c => (stageStarts 0 c).2)).foldl max 0
  if 160 < ends || ks.any (fun c => decide (cores < c.foldl (· + ·) 0)) then none
  else if ends == 0 then some 0 else some (4 * (choice % ((160 - ends) / 4 + 1)))

/-! ### Places (R100, R101, R108) -/

/-- Whether a section is loaded. -/
def Section.loaded (x : Section) : Bool := decide (x.ty ≤ 5)

/-- Whether a segment has the rights that a section type needs (R100). -/
def rightsOk (ty : Nat) (g : Seg) : Bool :=
  match ty with
  | 1 => g.x
  | 2 => g.rd && !g.w
  | 3 => g.rd && g.w
  | _ => g.rd

/-- The loaded address of a section, with NODE 255 (R101), if the context's segments give it a place. -/
def placeOf (node : Nat) (t : SegTable) (x : Section) (p : Option Nat) : Option Nat :=
  match p with
  | none => if x.bytes.isEmpty || !x.loaded then some (255 * 2 ^ 56) else none
  | some a =>
    let g := t.segs.getD (gSeg a) Seg.absent
    if (gNode a == 255 || gNode a == node) && g.v && rightsOk x.ty g && decide (gOff a + x.bytes.length ≤ g.limit) &&
        a % 2 ^ x.align == 0 then some (255 * 2 ^ 56 + a % 2 ^ 56) else none

/-- Every part, or none if one is missing. -/
def allSome : List (Option Nat) → Option (List Nat)
  | [] => some []
  | none :: _ => none
  | some a :: t => (allSome t).map (fun r => a :: r)

/-! ### Relocation (R101, R103, R106) -/

/-- The loaded value of a symbol (R101), or none where it names no section: an address, or an absolute value in two's complement
of 64 bits (R90). `sym` is the `.sym` section. -/
def symbolValue (sym : Nat) (ss : List Section) (addrs : List Nat) (i : Nat) : Option Int :=
  let bs := secBytes ss sym
  if bs.length < 16 * i + 16 then none
  else
    let sec := fieldAt bs (16 * i + 4) 2
    let v := fieldAt bs (16 * i + 8) 8
    if sec == 0xFFFF then some (toSigned 64 v) else (addrs[sec]?).map (fun a => ((a + v : Nat) : Int))

/-- Change the contents of a section. -/
def setBytes (ss : List Section) (i : Nat) (f : List Byte → List Byte) : List Section := modAt ss i (fun x => { x with bytes := f x.bytes })

/-- Apply one symbol relocation (R101): the sections, or a status; a SYM or SEC that names nothing gives 2 (log 43). -/
def relocate (sym : Nat) (addrs : List Nat) (ss : List Section) (r : List Byte) : Except Nat (List Section) :=
  let sec := fieldAt r 0 2
  let kind := fieldAt r 2 2
  let off := fieldAt r 4 4
  let bs := ((ss[sec]?).map (·.bytes)).getD []
  let size := if kind == 0 || kind == 3 then 8 else 4
  if 3 < kind then .error 1
  else if bs.length < off + size then .error 2
  else match symbolValue sym ss addrs (fieldAt r 8 4) with
    | none => .error 2
    | some sv =>
      let v : Int := sv + toSigned 32 (fieldAt r 12 4)
      let put (o n x : Nat) : Except Nat (List Section) := .ok (setBytes ss sec (fun b => patch b o (toBytes n x)))
      match kind with
      | 0 => if -((2 ^ 63 : Nat) : Int) ≤ v && v < ((2 ^ 64 : Nat) : Int) then put off 8 (ofInt 64 v) else .error 3
      | 1 => if 0 ≤ v && v < ((2 ^ 32 : Nat) : Int) then put off 4 v.toNat else .error 3
      | 2 =>
        let d : Int := v - (((addrs.getD sec 0 + off : Nat)) : Int)
        if d % 4 != 0 || d / 4 < -((2 ^ 20 : Nat) : Int) || ((2 ^ 20 : Nat) : Int) ≤ d / 4 then .error 3
        else put off 4 (fieldAt bs off 4 / 2 ^ 21 * 2 ^ 21 + ofInt 21 (d / 4))
      | _ =>
        if v < -((2 ^ 22 : Nat) : Int) || ((2 ^ 22 : Nat) : Int) ≤ v then .error 3
        else
          let u := ofInt 23 v
          let e := fieldAt bs off 4 / 2 ^ 16 * 2 ^ 16 + u / 128
          let w := fieldAt bs (off + 4) 4 / 128 * 128 + u % 128
          put off 8 (e + 2 ^ 32 * w)

/-- Apply relocations in order. -/
def relocateAll (sym : Nat) (addrs : List Nat) : List (List Byte) → List Section → Except Nat (List Section)
  | [], ss => .ok ss
  | r :: rs, ss => match relocate sym addrs ss r with
    | .error e => .error e
    | .ok ss2 => relocateAll sym addrs rs ss2

/-- Row and column of a physical position (R104, R106). -/
def rowCol (p : Nat) : Nat × Nat := (p / 14, if p / 14 % 2 == 0 then p % 14 else 13 - p % 14)

/-- Apply one placement record (R103, R106): the sections, or a status. An OFFSET that is no multiple of 4 gives 1, and a record for a
section of any type is applied (log 43). -/
def applyPlace (disabled : List Nat) (base : Nat) (ks : List (List Nat)) (ss : List Section) (r : List Byte) : Except Nat (List Section) :=
  let sec := fieldAt r 0 2
  let stage := fieldAt r 3 1
  let off := fieldAt r 4 4
  let mem := fieldAt r 8 2
  let bs := ((ss[sec]?).map (·.bytes)).getD []
  if fieldAt r 2 1 != 0 || fieldAt r 12 4 != 0 || off % 4 != 0 then .error 1
  else if bs.length < off + 4 then .error 2
  else
    let n : Option Nat :=
      if stage == 0xFF then some mem
      else match ks[fieldAt r 10 2]? with
        | none => none
        | some cs => match cs[stage]? with
          | none => none
          | some c => if c ≤ mem then none else some (base + (stageStarts 0 cs).1.getD stage 0 + mem)
    match n with
    | none => .error 4
    | some n =>
      if 159 < n then .error 4
      else
        let p := rowCol (physCore disabled n)
        .ok (setBytes ss sec (fun b => patch b off (toBytes 4 (p.1 * 2 ^ 28 + p.2 * 2 ^ 24 + fieldAt bs off 4 % 2 ^ 24))))

/-- Apply placement records in order. -/
def placeRecords (disabled : List Nat) (base : Nat) (ks : List (List Nat)) : List (List Byte) → List Section → Except Nat (List Section)
  | [], ss => .ok ss
  | r :: rs, ss => match applyPlace disabled base ks ss r with
    | .error e => .error e
    | .ok ss2 => placeRecords disabled base ks rs ss2

/-- Write the starts of the stage sets into the kernel records (R105). -/
def writeStages (ks : List (List Nat)) (kinfo : List Byte) : List Byte :=
  (List.range ks.length).foldl (fun b i =>
    let cs := ks.getD i []
    (List.range cs.length).foldl (fun b j => patch b (128 * i + 48 + 4 * j + 2) (toBytes 2 ((stageStarts 0 cs).1.getD j 0))) b) kinfo

/-! ### Loading (R106 to R108, R333) -/

/-- What a load comes to: the relocated sections with their addresses, the base and the kernels. -/
structure Loaded where
  sections : List Section
  addrs : List Nat
  base : Nat
  kernels : List Kernel

/-- A kernel from its record in a placed image (R102), without its handler. -/
def kernelOf (ss : List Section) (addrs : List Nat) (base i : Nat) : Kernel :=
  let r := ((bytesOf ss 5).drop (128 * i)).take 128
  { krec := addrs.getD (sectionIx ss 5) 0 + 128 * i, text := addrs.getD (sectionIx ss 1) 0, entry := fieldAt r 4 4, quota := fieldAt r 8 2,
    shape := [fieldAt r 10 2, fieldAt r 12 2, fieldAt r 14 2], scr := fieldAt r 16 4, sync := fieldAt r 20 4, acm := fieldAt r 24 4,
    split := fieldAt r 28 1, stages := (stageCounts r).zip (stageStarts 0 (stageCounts r)).1, base := base, hEntry := none, hParam := 0 }

/-- Link each kernel K with `K.trap` (R333). -/
def linkKernels (str : Nat) (ss : List Section) (ks : List Kernel) : List Kernel :=
  let rec_ (i : Nat) : List Byte := ((bytesOf ss 5).drop (128 * i)).take 128
  let name (i : Nat) : List Byte := stringAt (secBytes ss str) (fieldAt (rec_ i) 0 4)
  let ns := (List.range ks.length).map name
  (List.range ks.length).map (fun i =>
    let k := ks.getD i ⟨0, 0, 0, 0, [], 0, 0, 0, 0, [], 0, none, 0⟩
    match ns.findIdx? (fun n => n == name i ++ [0x2E, 0x74, 0x72, 0x61, 0x70]) with
    | none => k
    | some j =>
      let r := rec_ j
      let words := ((bytesOf ss 4).drop (fieldAt r 32 4)).take (min 8 (fieldAt r 36 4))
      { k with hEntry := some (fieldAt r 4 4), hParam := ofBytes words })

/-- The load of an object for a context, or its status (R108); which status is given where several apply is log 43's. -/
def loadObject (node cores choice : Nat) (t : SegTable) (disabled : List Nat) (q : LoadReq) : Except Nat Loaded :=
  match sectionsOf q.file with
  | .error e => .error e
  | .ok ss =>
    let kinfo := bytesOf ss 5
    match kernelCount kinfo (kinfo.length / 128 + 1) 0 0 with
    | none => .error 2
    | some n =>
      let recs := (List.range n).map (fun i => (kinfo.drop (128 * i)).take 128)
      if recs.any (fun r => decide ((bytesOf ss 4).length < fieldAt r 32 4 + fieldAt r 36 4) || decide ((secBytes ss (strSec q.file)).length ≤ fieldAt r 0 4)) then .error 2
      else if !symbolsOk (secBytes ss (symSec q.file)) then .error 1
      else if !recs.all (fun r => metaOk r && decide (fieldAt r 4 4 < (bytesOf ss 1).length)) then .error 5
      else match allSome ((ss.zip (List.range ss.length)).map (fun p => placeOf node t p.1 (q.places.getD p.2 none))) with
        | none => .error 7
        | some addrs =>
          match relocateAll (symSec q.file) addrs (recordsOf ss 8 16) ss with
          | .error e => .error e
          | .ok ss1 =>
            let ks := recs.map stageCounts
            match baseOf cores choice ks with
            | none => .error 6
            | some base => match placeRecords disabled base ks (recordsOf ss 9 16) ss1 with
              | .error e => .error e
              | .ok ss2 =>
                let ss3 := setBytes ss2 (sectionIx ss2 5) (writeStages ks)
                .ok ⟨ss3, addrs, base, linkKernels (strSec q.file) ss3 ((List.range n).map (kernelOf ss3 addrs base))⟩

/-- The physical key of a loaded address. -/
def loadKey (node : Nat) (t : SegTable) (a : Nat) : Nat := physKey node ((t.segs.getD (gSeg a) Seg.absent).base + gOff a)

/-- Write the loaded sections to memory. -/
def State.writeSections (s : State) (node : Nat) (t : SegTable) : List (Section × Nat) → State
  | [] => s
  | (x, a) :: rest =>
    (if x.loaded && !x.bytes.isEmpty then s.wrPhys (loadKey node t a) x.bytes none else s).writeSections node t rest

/-- The records that stand in a context's launch queue from an address on (R269), and whether the chain goes on behind them. -/
def State.queueFrom (s : State) (node ccn : Nat) (segs : SegTable) (world : Bool) : Nat → Nat → List LaunchRec × Bool
  | 0, _ => ([], true)
  | fuel + 1, addr =>
    match (if addr == 0 then none else s.seqRead node ccn segs world addr 128) with
    | none => ([], false)
    | some bs =>
      let r := s.queueFrom node ccn segs world fuel (launchRecOf bs).next
      (launchRecOf bs :: r.1, r.2)

/-- Whether a launch of an image is queued, running or pre-empted: the loader does not place it again before none is (R107). -/
def State.imageBusy (s : State) (node ccn text : Nat) : Bool :=
  s.launches.any (fun l => l.ofCtx node ccn && sameAddr node l.kernel.text text) ||
    (match s.ctxs.find? (fun c => c.node == node && c.ccn == ccn) with
      | none => false
      | some c =>
        let segs := s.segTable node (s.rcbWord node c.rcb 0x30 8)
        let world := ((s.region? node c.rcb).map (·.world)).getD false
        let q := s.queueFrom node ccn segs world 4096 (s.nextRecord node ccn (s.rcbWord node c.rcb 0x38 8) c.watch segs world)
        s.placed.any (fun p => p.node == node && p.ccn == ccn && sameAddr node p.kernel.text text) &&
          (q.2 || q.1.any (fun r => (s.placedFor node ccn r.krec).any (fun p => sameAddr node p.kernel.text text))))

/-- The loader's report to the host. -/
def State.loadReply (s : State) (node status : Nat) : State := { s with replies := s.replies ++ [⟨0, node, 0, 0, status, []⟩] }

/-- LOADER_PLACE (R99 to R108): an image is placed whole, or nothing of it; a load for a context that the node does not know gives
status 7 (log 43). -/
def State.loaderPlace (s : State) (q : LoadReq) : State :=
  match s.ctxs.find? (fun c => c.node == q.node && c.ccn == q.ccn) with
  | none => s.loadReply q.node 7
  | some c =>
    let t := s.segTable q.node (s.rcbWord q.node c.rcb 0x30 8)
    let cores := ((s.region? q.node c.rcb).map (·.cores)).getD 0
    match loadObject q.node cores (Config.loaderBase s.freeCtr) t (s.disabledOf q.node q.die) q with
    | .error e => s.loadReply q.node e
    | .ok r =>
      let text := ((r.kernels.head?).map (·.text)).getD 0
      if s.imageBusy q.node q.ccn text then { s with agenda := s.agenda ++ [.loaderPlace q] }
      else
        let s1 := { s with freeCtr := s.freeCtr + 1 }.writeSections q.node t (r.sections.zip r.addrs)
        let old := s1.placed.filter (fun p => !(p.node == q.node && p.ccn == q.ccn && sameAddr q.node p.kernel.text text))
        ({ s1 with placed := old ++ r.kernels.map (fun k => (⟨q.node, q.die, q.ccn, k⟩ : Placed)) }).loadReply q.node 0

/-- LOADER_PLACE (R106). -/
def execLoaderPlace (q : LoadReq) (s : State) : Host.Outcome State Fault Refusal := settle (s.loaderPlace q)

end Sys2Proof.Machine
end

