-- ==== Sys2Proof/Machine/Dispatch.lean ====
section
/-! DEFINITION. One arm per instruction and event: each a direct call of its meaning. -/
namespace Sys2Proof.Machine
open Sys2Proof

/-- The meaning of every instruction and event. -/
def exec (i : Instr) (s : State) : Host.Outcome State Fault Refusal :=
  match i with
  | .iadd x1 x2 x3 x4 x5 x6 => Sys2Proof.Machine.execIadd x1 x2 x3 x4 x5 x6 s
  | .isub x1 x2 x3 x4 x5 x6 => Sys2Proof.Machine.execIsub x1 x2 x3 x4 x5 x6 s
  | .imul x1 x2 x3 x4 x5 x6 => Sys2Proof.Machine.execImul x1 x2 x3 x4 x5 x6 s
  | .imulh x1 x2 x3 x4 x5 x6 => Sys2Proof.Machine.execImulh x1 x2 x3 x4 x5 x6 s
  | .imad x1 x2 x3 x4 x5 x6 => Sys2Proof.Machine.execImad x1 x2 x3 x4 x5 x6 s
  | .iaddc x1 x2 x3 x4 x5 x6 => Sys2Proof.Machine.execIaddc x1 x2 x3 x4 x5 x6 s
  | .isubb x1 x2 x3 x4 x5 x6 => Sys2Proof.Machine.execIsubb x1 x2 x3 x4 x5 x6 s
  | .imin x1 x2 x3 x4 x5 x6 => Sys2Proof.Machine.execImin x1 x2 x3 x4 x5 x6 s
  | .imax x1 x2 x3 x4 x5 x6 => Sys2Proof.Machine.execImax x1 x2 x3 x4 x5 x6 s
  | .iabs x1 x2 x3 x4 x5 => Sys2Proof.Machine.execIabs x1 x2 x3 x4 x5 s
  | .ineg x1 x2 x3 x4 x5 => Sys2Proof.Machine.execIneg x1 x2 x3 x4 x5 s
  | .and x1 x2 x3 x4 x5 x6 => Sys2Proof.Machine.execAnd x1 x2 x3 x4 x5 x6 s
  | .or x1 x2 x3 x4 x5 x6 => Sys2Proof.Machine.execOr x1 x2 x3 x4 x5 x6 s
  | .xor x1 x2 x3 x4 x5 x6 => Sys2Proof.Machine.execXor x1 x2 x3 x4 x5 x6 s
  | .andn x1 x2 x3 x4 x5 x6 => Sys2Proof.Machine.execAndn x1 x2 x3 x4 x5 x6 s
  | .shl x1 x2 x3 x4 x5 x6 => Sys2Proof.Machine.execShl x1 x2 x3 x4 x5 x6 s
  | .shr x1 x2 x3 x4 x5 x6 => Sys2Proof.Machine.execShr x1 x2 x3 x4 x5 x6 s
  | .sar x1 x2 x3 x4 x5 x6 => Sys2Proof.Machine.execSar x1 x2 x3 x4 x5 x6 s
  | .rol x1 x2 x3 x4 x5 x6 => Sys2Proof.Machine.execRol x1 x2 x3 x4 x5 x6 s
  | .popc x1 x2 x3 x4 x5 => Sys2Proof.Machine.execPopc x1 x2 x3 x4 x5 s
  | .clz x1 x2 x3 x4 x5 => Sys2Proof.Machine.execClz x1 x2 x3 x4 x5 s
  | .brev x1 x2 x3 x4 x5 => Sys2Proof.Machine.execBrev x1 x2 x3 x4 x5 s
  | .bfx x1 x2 x3 x4 x5 x6 => Sys2Proof.Machine.execBfx x1 x2 x3 x4 x5 x6 s
  | .bfi x1 x2 x3 x4 x5 x6 => Sys2Proof.Machine.execBfi x1 x2 x3 x4 x5 x6 s
  | .lea x1 x2 x3 x4 x5 x6 => Sys2Proof.Machine.execLea x1 x2 x3 x4 x5 x6 s
  | .bpick x1 x2 x3 x4 x5 x6 => Sys2Proof.Machine.execBpick x1 x2 x3 x4 x5 x6 s
  | .fadd x1 x2 x3 x4 x5 x6 => Sys2Proof.Machine.execFadd x1 x2 x3 x4 x5 x6 s
  | .fsub x1 x2 x3 x4 x5 x6 => Sys2Proof.Machine.execFsub x1 x2 x3 x4 x5 x6 s
  | .fmul x1 x2 x3 x4 x5 x6 => Sys2Proof.Machine.execFmul x1 x2 x3 x4 x5 x6 s
  | .ffma x1 x2 x3 x4 x5 x6 => Sys2Proof.Machine.execFfma x1 x2 x3 x4 x5 x6 s
  | .fmin x1 x2 x3 x4 => Sys2Proof.Machine.execFmin x1 x2 x3 x4 s
  | .fmax x1 x2 x3 x4 => Sys2Proof.Machine.execFmax x1 x2 x3 x4 s
  | .frcp x1 x2 x3 x4 => Sys2Proof.Machine.execFrcp x1 x2 x3 x4 s
  | .frsq x1 x2 x3 x4 => Sys2Proof.Machine.execFrsq x1 x2 x3 x4 s
  | .fsqrt x1 x2 x3 x4 => Sys2Proof.Machine.execFsqrt x1 x2 x3 x4 s
  | .fexp2 x1 x2 x3 x4 => Sys2Proof.Machine.execFexp2 x1 x2 x3 x4 s
  | .flog2 x1 x2 x3 x4 => Sys2Proof.Machine.execFlog2 x1 x2 x3 x4 s
  | .fsin x1 x2 x3 x4 => Sys2Proof.Machine.execFsin x1 x2 x3 x4 s
  | .fcos x1 x2 x3 x4 => Sys2Proof.Machine.execFcos x1 x2 x3 x4 s
  | .ftanh x1 x2 x3 x4 => Sys2Proof.Machine.execFtanh x1 x2 x3 x4 s
  | .fclass x1 x2 x3 => Sys2Proof.Machine.execFclass x1 x2 x3 s
  | .fcpys x1 x2 x3 x4 => Sys2Proof.Machine.execFcpys x1 x2 x3 x4 s
  | .hadd2 x1 x2 x3 x4 x5 x6 x7 => Sys2Proof.Machine.execHadd2 x1 x2 x3 x4 x5 x6 x7 s
  | .hmul2 x1 x2 x3 x4 x5 x6 x7 => Sys2Proof.Machine.execHmul2 x1 x2 x3 x4 x5 x6 x7 s
  | .hfma2 x1 x2 x3 x4 x5 x6 x7 => Sys2Proof.Machine.execHfma2 x1 x2 x3 x4 x5 x6 x7 s
  | .hmax2 x1 x2 x3 x4 x5 => Sys2Proof.Machine.execHmax2 x1 x2 x3 x4 x5 s
  | .cvt x1 x2 x3 x4 x5 x6 x7 => Sys2Proof.Machine.execCvt x1 x2 x3 x4 x5 x6 x7 s
  | .cvtq x1 x2 x3 x4 x5 x6 x7 => Sys2Proof.Machine.execCvtq x1 x2 x3 x4 x5 x6 x7 s
  | .frnd x1 x2 x3 x4 => Sys2Proof.Machine.execFrnd x1 x2 x3 x4 s
  | .icmp x1 x2 x3 x4 x5 => Sys2Proof.Machine.execIcmp x1 x2 x3 x4 x5 s
  | .fcmp x1 x2 x3 x4 x5 => Sys2Proof.Machine.execFcmp x1 x2 x3 x4 x5 s
  | .pset x1 x2 x3 x4 x5 => Sys2Proof.Machine.execPset x1 x2 x3 x4 x5 s
  | .pmovGet x1 x2 => Sys2Proof.Machine.execPmovGet x1 x2 s
  | .pmovSet x1 x2 => Sys2Proof.Machine.execPmovSet x1 x2 s
  | .sel x1 x2 x3 x4 x5 x6 => Sys2Proof.Machine.execSel x1 x2 x3 x4 x5 x6 s
  | .mov x1 x2 x3 => Sys2Proof.Machine.execMov x1 x2 x3 s
  | .movk x1 x2 x3 x4 => Sys2Proof.Machine.execMovk x1 x2 x3 x4 s
  | .ldi x1 x2 x3 => Sys2Proof.Machine.execLdi x1 x2 x3 s
  | .ldiHi x1 x2 x3 => Sys2Proof.Machine.execLdiHi x1 x2 x3 s
  | .shfl x1 x2 x3 x4 x5 => Sys2Proof.Machine.execShfl x1 x2 x3 x4 x5 s
  | .shflx x1 x2 x3 x4 x5 => Sys2Proof.Machine.execShflx x1 x2 x3 x4 x5 s
  | .vote x1 x2 x3 x4 => Sys2Proof.Machine.execVote x1 x2 x3 x4 s
  | .redux x1 x2 x3 x4 x5 => Sys2Proof.Machine.execRedux x1 x2 x3 x4 x5 s
  | .scan x1 x2 x3 x4 => Sys2Proof.Machine.execScan x1 x2 x3 x4 s
  | .rbal x1 x2 x3 x4 x5 => Sys2Proof.Machine.execRbal x1 x2 x3 x4 x5 s
  | .bin x1 x2 x3 x4 x5 => Sys2Proof.Machine.execBin x1 x2 x3 x4 x5 s
  | .mrg x1 x2 x3 x4 x5 => Sys2Proof.Machine.execMrg x1 x2 x3 x4 x5 s
  | .sortk x1 x2 x3 x4 => Sys2Proof.Machine.execSortk x1 x2 x3 x4 s
  | .bra x1 x2 => Sys2Proof.Machine.execBra x1 x2 s
  | .call x1 x2 => Sys2Proof.Machine.execCall x1 x2 s
  | .brx x1 x2 => Sys2Proof.Machine.execBrx x1 x2 s
  | .ret x1 x2 => Sys2Proof.Machine.execRet x1 x2 s
  | .nop x1 => Sys2Proof.Machine.execNop x1 s
  | .join x1 => Sys2Proof.Machine.execJoin x1 s
  | .exit x1 => Sys2Proof.Machine.execExit x1 s
  | .yield x1 => Sys2Proof.Machine.execYield x1 s
  | .trap x1 x2 => Sys2Proof.Machine.execTrap x1 x2 s
  | .form x1 x2 x3 => Sys2Proof.Machine.execForm x1 x2 x3 s
  | .matl x1 x2 => Sys2Proof.Machine.execMatl x1 x2 s
  | .unif x1 x2 x3 => Sys2Proof.Machine.execUnif x1 x2 x3 s
  | .wbase x1 x2 => Sys2Proof.Machine.execWbase x1 x2 s
  | .wquota x1 x2 x3 => Sys2Proof.Machine.execWquota x1 x2 x3 s
  | .work x1 x2 x3 x4 x5 => Sys2Proof.Machine.execWork x1 x2 x3 x4 x5 s
  | .idx x1 x2 x3 x4 => Sys2Proof.Machine.execIdx x1 x2 x3 x4 s
  | .ldg x1 x2 x3 x4 x5 => Sys2Proof.Machine.execLdg x1 x2 x3 x4 x5 s
  | .stg x1 x2 x3 x4 x5 => Sys2Proof.Machine.execStg x1 x2 x3 x4 x5 s
  | .lds x1 x2 x3 x4 x5 => Sys2Proof.Machine.execLds x1 x2 x3 x4 x5 s
  | .sts x1 x2 x3 x4 x5 => Sys2Proof.Machine.execSts x1 x2 x3 x4 x5 s
  | .ldc x1 x2 x3 x4 x5 => Sys2Proof.Machine.execLdc x1 x2 x3 x4 x5 s
  | .stc x1 x2 x3 x4 x5 => Sys2Proof.Machine.execStc x1 x2 x3 x4 x5 s
  | .ldt x1 x2 x3 x4 x5 => Sys2Proof.Machine.execLdt x1 x2 x3 x4 x5 s
  | .stt x1 x2 x3 x4 x5 => Sys2Proof.Machine.execStt x1 x2 x3 x4 x5 s
  | .ldu x1 x2 x3 x4 x5 => Sys2Proof.Machine.execLdu x1 x2 x3 x4 x5 s
  | .lda x1 x2 x3 x4 x5 => Sys2Proof.Machine.execLda x1 x2 x3 x4 x5 s
  | .sta x1 x2 x3 x4 x5 => Sys2Proof.Machine.execSta x1 x2 x3 x4 x5 s
  | .stw x1 x2 x3 x4 x5 => Sys2Proof.Machine.execStw x1 x2 x3 x4 x5 s
  | .stwb x1 x2 x3 => Sys2Proof.Machine.execStwb x1 x2 x3 s
  | .pref x1 x2 x3 x4 => Sys2Proof.Machine.execPref x1 x2 x3 x4 s
  | .atomg x1 x2 x3 x4 x5 => Sys2Proof.Machine.execAtomg x1 x2 x3 x4 x5 s
  | .atoms x1 x2 x3 x4 x5 => Sys2Proof.Machine.execAtoms x1 x2 x3 x4 x5 s
  | .atomc x1 x2 x3 x4 x5 => Sys2Proof.Machine.execAtomc x1 x2 x3 x4 x5 s
  | .redg x1 x2 x3 x4 => Sys2Proof.Machine.execRedg x1 x2 x3 x4 s
  | .rgrsv x1 x2 x3 x4 => Sys2Proof.Machine.execRgrsv x1 x2 x3 x4 s
  | .rgpub x1 x2 x3 x4 x5 => Sys2Proof.Machine.execRgpub x1 x2 x3 x4 x5 s
  | .rgtake x1 x2 x3 x4 => Sys2Proof.Machine.execRgtake x1 x2 x3 x4 s
  | .rgfree x1 x2 x3 x4 x5 => Sys2Proof.Machine.execRgfree x1 x2 x3 x4 x5 s
  | .txbegin x1 => Sys2Proof.Machine.execTxbegin x1 s
  | .orelse x1 => Sys2Proof.Machine.execOrelse x1 s
  | .txend x1 => Sys2Proof.Machine.execTxend x1 s
  | .retry x1 => Sys2Proof.Machine.execRetry x1 s
  | .orend x1 => Sys2Proof.Machine.execOrend x1 s
  | .txabort x1 => Sys2Proof.Machine.execTxabort x1 s
  | .txstat x1 x2 => Sys2Proof.Machine.execTxstat x1 x2 s
  | .acq x1 x2 x3 => Sys2Proof.Machine.execAcq x1 x2 x3 s
  | .rel x1 x2 x3 => Sys2Proof.Machine.execRel x1 x2 x3 s
  | .fence x1 => Sys2Proof.Machine.execFence x1 s
  | .arrive x1 x2 x3 => Sys2Proof.Machine.execArrive x1 x2 x3 s
  | .bind x1 x2 x3 => Sys2Proof.Machine.execBind x1 x2 x3 s
  | .barinit x1 x2 x3 => Sys2Proof.Machine.execBarinit x1 x2 x3 s
  | .rgdef x1 x2 x3 => Sys2Proof.Machine.execRgdef x1 x2 x3 s
  | .rkinit x1 x2 x3 => Sys2Proof.Machine.execRkinit x1 x2 x3 s
  | .rkthr x1 x2 x3 => Sys2Proof.Machine.execRkthr x1 x2 x3 s
  | .pthr x1 x2 x3 x4 => Sys2Proof.Machine.execPthr x1 x2 x3 x4 s
  | .rkpush x1 x2 x3 x4 x5 => Sys2Proof.Machine.execRkpush x1 x2 x3 x4 x5 s
  | .rkmerge x1 x2 x3 => Sys2Proof.Machine.execRkmerge x1 x2 x3 s
  | .rkread x1 x2 x3 x4 => Sys2Proof.Machine.execRkread x1 x2 x3 x4 s
  | .copy x1 x2 x3 x4 x5 => Sys2Proof.Machine.execCopy x1 x2 x3 x4 x5 s
  | .copyx x1 x2 x3 x4 x5 => Sys2Proof.Machine.execCopyx x1 x2 x3 x4 x5 s
  | .gath x1 x2 x3 x4 x5 => Sys2Proof.Machine.execGath x1 x2 x3 x4 x5 s
  | .scatx x1 x2 x3 x4 x5 => Sys2Proof.Machine.execScatx x1 x2 x3 x4 x5 s
  | .mma x1 x2 x3 x4 => Sys2Proof.Machine.execMma x1 x2 x3 x4 s
  | .mmab x1 x2 x3 x4 => Sys2Proof.Machine.execMmab x1 x2 x3 x4 s
  | .mmas x1 x2 x3 x4 => Sys2Proof.Machine.execMmas x1 x2 x3 x4 s
  | .attn x1 x2 x3 x4 x5 => Sys2Proof.Machine.execAttn x1 x2 x3 x4 x5 s
  | .attnfin x1 x2 x3 x4 => Sys2Proof.Machine.execAttnfin x1 x2 x3 x4 s
  | .fold x1 x2 x3 x4 => Sys2Proof.Machine.execFold x1 x2 x3 x4 s
  | .disp x1 x2 x3 x4 x5 => Sys2Proof.Machine.execDisp x1 x2 x3 x4 x5 s
  | .axedit x1 x2 x3 x4 => Sys2Proof.Machine.execAxedit x1 x2 x3 x4 s
  | .axsync x1 x2 x3 x4 => Sys2Proof.Machine.execAxsync x1 x2 x3 x4 s
  | .launch x1 x2 x3 x4 => Sys2Proof.Machine.execLaunch x1 x2 x3 x4 s
  | .waitf x1 x2 x3 => Sys2Proof.Machine.execWaitf x1 x2 x3 s
  | .qfence x1 x2 x3 => Sys2Proof.Machine.execQfence x1 x2 x3 s
  | .csrr x1 x2 x3 => Sys2Proof.Machine.execCsrr x1 x2 x3 s
  | .csrw x1 x2 x3 => Sys2Proof.Machine.execCsrw x1 x2 x3 s
  | .csrwSstat x1 x2 => Sys2Proof.Machine.execCsrwSstat x1 x2 s
  | .csrwBnd x1 x2 => Sys2Proof.Machine.execCsrwBnd x1 x2 s
  | .tret x1 => Sys2Proof.Machine.execTret x1 s
  | .replay x1 x2 => Sys2Proof.Machine.execReplay x1 x2 s
  | .rqdrop x1 x2 => Sys2Proof.Machine.execRqdrop x1 x2 s
  | .halt x1 x2 => Sys2Proof.Machine.execHalt x1 x2 s
  | .bkpt x1 x2 => Sys2Proof.Machine.execBkpt x1 x2 s
  | .version x1 x2 => Sys2Proof.Machine.execVersion x1 x2 s
  | .regionSet x1 x2 => Sys2Proof.Machine.execRegionSet x1 x2 s
  | .regionGet x1 x2 => Sys2Proof.Machine.execRegionGet x1 x2 s
  | .sfdomSet x1 x2 => Sys2Proof.Machine.execSfdomSet x1 x2 s
  | .measure x1 x2 => Sys2Proof.Machine.execMeasure x1 x2 s
  | .extend x1 x2 => Sys2Proof.Machine.execExtend x1 x2 s
  | .random x1 x2 => Sys2Proof.Machine.execRandom x1 x2 s
  | .powerRead x1 x2 => Sys2Proof.Machine.execPowerRead x1 x2 s
  | .time x1 x2 => Sys2Proof.Machine.execTime x1 x2 s
  | .unassignedMajor x1 => Sys2Proof.Machine.execUnassignedMajor x1 s
  | .lxComplete x1 x2 => Sys2Proof.Machine.execLxComplete x1 x2 s
  | .launchTake x1 x2 => Sys2Proof.Machine.execLaunchTake x1 x2 s
  | .teamPlacement x1 => Sys2Proof.Machine.execTeamPlacement x1 s
  | .deficitPreempt x1 x2 x3 => Sys2Proof.Machine.execDeficitPreempt x1 x2 x3 s
  | .forceprePreempt x1 => Sys2Proof.Machine.execForceprePreempt x1 s
  | .waveBoost x1 => Sys2Proof.Machine.execWaveBoost x1 s
  | .yieldExpiry x1 => Sys2Proof.Machine.execYieldExpiry x1 s
  | .fallbackRotation x1 => Sys2Proof.Machine.execFallbackRotation x1 s
  | .waitingBudgetExpiry x1 x2 => Sys2Proof.Machine.execWaitingBudgetExpiry x1 x2 s
  | .engineCommandStart x1 => Sys2Proof.Machine.execEngineCommandStart x1 s
  | .engineCommandComplete x1 => Sys2Proof.Machine.execEngineCommandComplete x1 s
  | .shootDown x1 => Sys2Proof.Machine.execShootDown x1 s
  | .shootDownAcknowledge x1 => Sys2Proof.Machine.execShootDownAcknowledge x1 s
  | .faultRecord x1 x2 => Sys2Proof.Machine.execFaultRecord x1 x2 s
  | .remoteAccess x1 => Sys2Proof.Machine.execRemoteAccess x1 s
  | .fabricStreamFail x1 => Sys2Proof.Machine.execFabricStreamFail x1 s
  | .packetLifetimeExpiry x1 => Sys2Proof.Machine.execPacketLifetimeExpiry x1 s
  | .hwBarrierArrival x1 => Sys2Proof.Machine.execHwBarrierArrival x1 s
  | .hwBarrierRelease x1 => Sys2Proof.Machine.execHwBarrierRelease x1 s
  | .sendQueueTimeout x1 x2 x3 => Sys2Proof.Machine.execSendQueueTimeout x1 x2 x3 s
  | .dispatchPacketReceive x1 => Sys2Proof.Machine.execDispatchPacketReceive x1 s
  | .deliveryRetry x1 => Sys2Proof.Machine.execDeliveryRetry x1 s
  | .generationRetireWait x1 => Sys2Proof.Machine.execGenerationRetireWait x1 s
  | .gangSliceBoundary x1 => Sys2Proof.Machine.execGangSliceBoundary x1 s
  | .gangBarrierArrival x1 x2 => Sys2Proof.Machine.execGangBarrierArrival x1 x2 s
  | .gangAbort => Sys2Proof.Machine.execGangAbort s
  | .gangDecision x1 => Sys2Proof.Machine.execGangDecision x1 s
  | .peerSet x1 x2 x3 x4 => Sys2Proof.Machine.execPeerSet x1 x2 x3 x4 s
  | .fdomSet x1 x2 x3 => Sys2Proof.Machine.execFdomSet x1 x2 x3 s
  | .routeSet x1 x2 x3 x4 => Sys2Proof.Machine.execRouteSet x1 x2 x3 x4 s
  | .gangSched x1 x2 => Sys2Proof.Machine.execGangSched x1 x2 s
  | .queueReset x1 x2 => Sys2Proof.Machine.execQueueReset x1 x2 s
  | .waveResume x1 x2 => Sys2Proof.Machine.execWaveResume x1 x2 s
  | .waveEnd x1 x2 => Sys2Proof.Machine.execWaveEnd x1 x2 s
  | .ctxResume x1 x2 => Sys2Proof.Machine.execCtxResume x1 x2 s
  | .ctxDestroy x1 x2 => Sys2Proof.Machine.execCtxDestroy x1 x2 s
  | .debugStop x1 x2 => Sys2Proof.Machine.execDebugStop x1 x2 s
  | .debugRead x1 x2 => Sys2Proof.Machine.execDebugRead x1 x2 s
  | .debugWrite x1 x2 x3 => Sys2Proof.Machine.execDebugWrite x1 x2 x3 s
  | .debugResume x1 x2 => Sys2Proof.Machine.execDebugResume x1 x2 s
  | .counters x1 => Sys2Proof.Machine.execCounters x1 s
  | .enable x1 => Sys2Proof.Machine.execEnable x1 s
  | .mem x1 x2 x3 x4 => Sys2Proof.Machine.execMem x1 x2 x3 x4 s
  | .getVersion x1 x2 => Sys2Proof.Machine.execGetVersion x1 x2 s
  | .getCapabilities x1 x2 => Sys2Proof.Machine.execGetCapabilities x1 x2 s
  | .negotiateAlgorithms x1 x2 => Sys2Proof.Machine.execNegotiateAlgorithms x1 x2 s
  | .getDigests x1 x2 => Sys2Proof.Machine.execGetDigests x1 x2 s
  | .getCertificate x1 x2 => Sys2Proof.Machine.execGetCertificate x1 x2 s
  | .challenge x1 x2 => Sys2Proof.Machine.execChallenge x1 x2 s
  | .getMeasurements x1 x2 => Sys2Proof.Machine.execGetMeasurements x1 x2 s
  | .deviceReset x1 => Sys2Proof.Machine.execDeviceReset x1 s
  | .loaderPlace x1 => Sys2Proof.Machine.execLoaderPlace x1 s
  | .wakeWithoutCause x1 => Sys2Proof.Machine.execWakeWithoutCause x1 s
  | .reservedFnValue x1 x2 => Sys2Proof.Machine.execReservedFnValue x1 x2 s
  | .reservedOperandValue x1 x2 => Sys2Proof.Machine.execReservedOperandValue x1 x2 s
  | .exMisuse x1 x2 => Sys2Proof.Machine.execExMisuse x1 x2 s
  | .swcUnknownService x1 x2 x3 => Sys2Proof.Machine.execSwcUnknownService x1 x2 x3 s
  | .unknownManagementCode x1 x2 => Sys2Proof.Machine.execUnknownManagementCode x1 x2 s
  | .unsupportedRequest x1 x2 => Sys2Proof.Machine.execUnsupportedRequest x1 x2 s

end Sys2Proof.Machine
end

