-- ==== Sys2Proof/Machine/Sched.lean ====
section
/-! DEFINITION. Who acts next: the events that the machine itself has to perform, the parties that issue, the rotation among
them, the passing of time, and the placing of one instruction where the next step fetches it. -/
namespace Sys2Proof.Machine
open Sys2Proof

/-! ### Events that are due -/

/-- The unfinished LX instructions that may complete (R69): in each wave the first whose answers have all arrived. -/
def State.dueLx (s : State) : List Instr :=
  s.waves.filterMap (fun w =>
    if w.status == .ready && (s.team? w.ref.team).any (fun t => t.core.isSome && !t.saved) then
      (w.pend.find? (fun p => p.waits == 0)).map (fun p => Instr.lxComplete w.ref p.key) else none)

/-- The events of single waves (R150, R152, R289). -/
def State.dueWave (s : State) : List Instr :=
  s.waves.flatMap (fun w =>
    (if !w.boosted && decide (w.readyAt + 256 ≤ s.time) && s.waveReady w then [Instr.waveBoost w.ref] else []) ++
    (if w.yielded.isSome && decide (w.yieldAt + 64 ≤ s.time) then [Instr.yieldExpiry w.ref] else []) ++
    (if w.rotates then [Instr.fallbackRotation w.ref] else []))

/-- Whether a waiting team comes before another (R280, R291): the higher priority, the earlier launch, the lower tm. -/
def State.placeBefore (s : State) (a b : Team) : Bool :=
  decide (s.prioOf b < s.prioOf a) || (s.prioOf a == s.prioOf b &&
    (decide (a.ref.launch < b.ref.launch) || (a.ref.launch == b.ref.launch && decide (a.ref.tm < b.ref.tm))))

/-- Whether placement would do something for a team: it fits, or a team of lower priority may be pre-empted for it. -/
def State.placeable (s : State) (t : Team) : Bool :=
  (s.tryPlace t.ref).isSome || s.teams.any (fun u => u.core.isSome && u.node == t.node && u.die == t.die &&
    decide (s.prioOf u < s.prioOf t) && s.canStop u.ref)

/-- The distributor's events (R270, R277, R279, R291). -/
def State.duePlace (s : State) : List Instr :=
  let waiting := (s.teams.filter s.waiting).foldr (insertBy s.placeBefore) []
  (s.ctxs.filterMap (fun c => if (s.takeable c.node c.ccn).isSome then some (Instr.launchTake c.node c.ccn) else none)) ++
  ((waiting.find? s.placeable).map (fun t => Instr.teamPlacement t.ref)).toList ++
  (s.ctxs.flatMap (fun c => (List.range 4).filterMap (fun d =>
    if decide (c.deficit.getD d 0 ≤ 0) && (s.rival c.node d c.ccn).isSome then some (Instr.deficitPreempt c.node d c.ccn) else none))) ++
  (waiting.filterMap (fun t => match s.launch? t.ref.launch with
    | none => none
    | some l => if l.region.forcepre && decide (t.waitSince + l.region.slice ≤ s.time) && (s.forceCore t l).isSome then
        some (Instr.forceprePreempt t.ref) else none))

/-- The waiting budgets that are exceeded (R352). -/
def State.dueBudget (s : State) : List Instr :=
  s.ctxs.flatMap (fun c => c.waits.filterMap (fun p =>
    if c.held.isSome || c.reported.contains p.1 || !(s.regionOf c.node p.1).any (fun r => decide (r.waitb < p.2)) then none
    else some (Instr.waitingBudgetExpiry c.node p.1)))

/-- Whether a stream's front command may complete. -/
def State.completable (s : State) (q : Stream) : Bool :=
  (s.settleJoin q.ref).isSome || (!q.halted && s.streamRuns q.ref && (match q.front with
    | none => false
    | some c => match c.state, s.engOf c with
      | .started n, some g => !(n == 0 && ((c.is 0x7B 1 && s.editWaits g.t.node g.l.ccn c) || (c.is 0x7A 0 && g.behind)))
      | _, _ => false))

/-- The engines' events (R75, R223, R306, R369). -/
def State.dueEngine (s : State) : List Instr :=
  s.streams.flatMap (fun q =>
    (match s.startable q.ref with
      | none => []
      | some g =>
        if s.predOf g.c != some false && g.c.is 0x7B 0 && g.dispWaits then [Instr.generationRetireWait q.ref]
        else [Instr.engineCommandStart q.ref]) ++
    (if s.completable q then [Instr.engineCommandComplete q.ref] else [])) ++
  ((s.shoots.zip (List.range s.shoots.length)).filterMap (fun p =>
    if !p.1.arrived then some (Instr.shootDown p.2)
    else if s.coreBusy p.1.node p.1.die p.1.core then none else some (Instr.shootDownAcknowledge p.2)))

/-- The fabric's events (R204, R339, R358, R361, R367, R368). -/
def State.dueFabric (s : State) : List Instr :=
  (s.packets.flatMap (fun p =>
    if p.stream.node != p.stream.dst && decide (p.time + lifetime < s.time) then [Instr.packetLifetimeExpiry p.num]
    else if !s.isNext p then []
    else if p.stream.cls == .dispatch then [Instr.dispatchPacketReceive p.num] else [Instr.remoteAccess (.packet p.num)])) ++
  (s.nodes.flatMap (fun d =>
    ((((d.records.map Prod.fst).eraseDups).filter (s.recordReady d.num)).map (fun f => Instr.faultRecord d.num f)) ++
    d.sendqs.filterMap (fun q =>
      if q.tokens.isEmpty || q.blocked || s.time < q.since + 128 then none else some (Instr.sendQueueTimeout d.num q.die q.dst)))) ++
  ((s.deliveries.zip (List.range s.deliveries.length)).filterMap (fun p => if p.1.retry then some (Instr.deliveryRetry p.2) else none)) ++
  ((s.arrivals.zip (List.range s.arrivals.length)).filterMap (fun p => if s.arrivalWaits p.1 then none else some (Instr.hwBarrierArrival p.2))) ++
  ((s.barriers.zip (List.range s.barriers.length)).filterMap (fun p => if p.1.releasing then some (Instr.hwBarrierRelease p.2) else none))

/-- The gangs' events (R350). -/
def State.dueGang (s : State) : List Instr :=
  s.nodes.flatMap (fun d =>
    (if (d.gang.due s.time).isSome then [Instr.gangSliceBoundary d.num] else []) ++
    (match d.gang.prep with
      | none => []
      | some p =>
        (if d.gang.arrivedAt.isNone then [Instr.gangBarrierArrival d.num (p.1 % 65536)] else []) ++
        (if s.gangRoot.any (fun r => r.decision.isSome && r.gen == p.1 % 65536) then [Instr.gangDecision d.num] else []))) ++
  (if s.gangRoot.any (fun r => r.decision.isNone && decide (r.boundary + r.grace ≤ s.time)) then [Instr.gangAbort] else [])

/-- Every event that is due. -/
def State.due (s : State) : List Instr :=
  s.dueLx ++ s.dueWave ++ s.duePlace ++ s.dueBudget ++ s.dueEngine ++ s.dueFabric ++ s.dueGang

/-! ### The choice (log 2) -/

/-- What the next step does. -/
inductive Choice
  | event (i : Instr)
  | issue (p : Party)
  | idle
  deriving DecidableEq, Repr

/-- The partition of a core in which a wave stands. -/
def State.partOf (s : State) (r : WaveRef) : Option (Nat × Nat × Nat × Nat) := (s.wave? r).bind s.placeOf

/-- The turn of a party: its partition's for a wave, its span's whatever the sub-span. -/
def State.turnOf (s : State) (p : Party) : Turn :=
  match p with
  | .wave r => match s.partOf r with
    | some (node, die, core, part) => .part node die core part
    | none => .span .none
  | .team t _ => .span (.team t 0)
  | .launch n _ => .span (.launch n 0)
  | .none => .span .none

/-- What a turn of the rotation does now, if it can do anything. -/
def State.take (s : State) (t : Turn) : Option Choice :=
  match t with
  | .agenda => s.agenda.head?.map Choice.event
  | .event i => if s.due.contains i then some (.event i) else none
  | t => ((s.nextWaves ++ s.nextSpans).find? (fun p => s.turnOf p == t)).map Choice.issue

/-- A round of the rotation: the first event of the agenda, each party that may issue, and each event that is due. -/
def State.round (s : State) : List Turn :=
  (if s.agenda.isEmpty then [] else [.agenda]) ++ (s.nextWaves ++ s.nextSpans).map s.turnOf ++ s.due.map Turn.event

/-- The first turn of a list that can do something, with those behind it. -/
def State.firstTurn (s : State) : List Turn → Option (Choice × Turn × List Turn)
  | [] => none
  | t :: ts => match s.take t with
    | some c => some (c, t, ts)
    | none => s.firstTurn ts

/-- Leave the rotation at the turns that remain; the agenda's turn takes its first event. -/
def State.turnTo (s : State) (t : Turn) (rest : List Turn) : State :=
  { s with queue := rest, agenda := if t == .agenda then s.agenda.drop 1 else s.agenda }

/-- The next choice: the rest of the round in its order, then a new round. Whoever can act at the start of a round has its turn in it,
if it still can. -/
def State.choose (s : State) : State × Choice :=
  match s.firstTurn s.queue with
  | some (c, t, rest) => (s.turnTo t rest, c)
  | none => match s.firstTurn s.round with
    | some (c, t, rest) => (s.turnTo t rest, c)
    | none => ({ s with queue := [] }, .idle)

/-! ### Time (R291, R352) -/

/-- The region whose party issues. -/
def State.issuingRegion (s : State) : Option (Nat × Nat) :=
  let of (n : Nat) : Option (Nat × Nat) := (s.launch? n).map (fun l => (l.node, l.region.rcb))
  match s.cur with
  | .none => none
  | .wave r => of r.team.launch
  | .team t _ => of t.launch
  | .launch n _ => of n

/-- A context's deficits and wait counters after one nanosecond (R291, R352). -/
def State.tickCtx (s : State) (c : Ctx) : Ctx :=
  let holds (d : Nat) : Bool := s.teams.any (fun t => t.core.isSome && t.node == c.node && t.die == d && s.ccnOfTeam t == c.ccn)
  let issued := s.issuingRegion
  let rcbs := ((s.launches.filter (fun l => l.ofCtx c.node c.ccn)).map (·.region.rcb)).eraseDups
  let quiet (r : Nat) : Bool := issued != some (c.node, r)
  { c with
    deficit := (List.range 4).map (fun d => c.deficit.getD d 0 - (if holds d then 1 else 0))
    waits := (rcbs.filter quiet).filterMap (fun r =>
      let n := c.waited r + (if c.held.isNone && s.regionWaits c.node r then 1 else 0)
      if n == 0 then none else some (r, n))
    reported := c.reported.filter quiet }

/-- A wave that has yielded, once a nanosecond has passed: a wave of its partition that is not ready is one it waits for no longer
(R152). -/
def State.passReady (s : State) (w : Wave) : Wave :=
  match w.yielded with
  | none => w
  | some ws =>
    let rest := ws.filter (fun r => (s.wave? r).any s.waveReady)
    { w with yielded := if rest.isEmpty then none else some rest }

/-- One nanosecond passes: a wave that is not ready has not been ready until now (R289), and no party issues any more. -/
def State.tick (s : State) : State :=
  { s with
    time := s.time + 1
    cur := .none
    ctxs := s.ctxs.map s.tickCtx
    waves := s.waves.map (fun w => s.passReady (if s.waveReady w then w else { w with readyAt := s.time + 1 })) }

/-- The outcome of a step after its instruction or event. -/
def after (o : Host.Outcome State Fault Refusal) : Host.Outcome State Fault Refusal :=
  match o with
  | .next s => .next s.tick
  | .fault f => .fault f
  | .refused r => .refused r

/-! ### Placing one instruction (log 13) -/

/-- Where the placed instruction's bytes lie: node physical 2 MB. -/
def probeText : Nat := 2 ^ 21

/-- The segment table under which it runs: segment 0 is all of the node's memory, with every right. -/
def probeSegs : SegTable := { segs := [⟨true, true, true, true, physBytes, 0⟩], ttbase := 0, ttcount := 0 }

/-- Its region. -/
def probeRegion : Region :=
  { rcb := 0, ctxRcb := 0, prio := 0, world := false, fdom := 0, modes := 0, forcepre := false, cores := 160, memb := 2 ^ 40,
    slice := 10 ^ 6, waitb := 2 ^ 62, extw := [] }

/-- Its kernel: one wave of 32 items, 88 registers, scratchpad and accumulator memory. -/
def probeKernel : Kernel :=
  { krec := 0, text := 255 * 2 ^ 56 + probeText, entry := 0, quota := 88, shape := [32, 1, 1], scr := 65408, sync := 128, acm := 65536,
    split := 1, stages := [], base := 0, hEntry := none, hParam := 0 }

/-- Its launch on a node. -/
def probeLaunch (node num : Nat) : Launch :=
  { num := num, node := node, die := 0, ccn := 0, record := 0, region := probeRegion, kernel := probeKernel, ext := [32, 1, 1],
    flags := 0, gang := 0, doneVal := 0, doneAddr := 0, segs := probeSegs, k := List.replicate 24 0, subs := [], dealt := true,
    running := true, held := false }

/-- Its team, placed on core 0 of die 0 and cut. -/
def probeTeam (node num : Nat) : Team :=
  { ref := ⟨num, 0⟩, node := node, die := 0, core := some 0, placeTime := 0, waitSince := 0, world := false, segs := probeSegs,
    k := List.replicate 24 0, subs := [], cut := true, slots := [(0, 88)], ended := 0, scratch := [], acm := [], barriers := [],
    round := none, windows := List.replicate 8 none, thr := List.replicate 4 none, saved := false, mt := (0, 0) }

/-- Its wave: every item live at program counter 0. -/
def probeWave (num time : Nat) : Wave :=
  { ref := ⟨⟨num, 0⟩, 0⟩, part := 0, slot := 0, quota := 88, wb := 0, rowBudget := 88, bndLo := 0, bndHi := 88, ord := false,
    v := List.replicate 88 {}, x := List.replicate 4 {}, k := List.replicate 24 0, preds := List.replicate 8 0,
    flags := List.replicate 12 0, items := 0xFFFFFFFF, live := 0xFFFFFFFF, pcs := List.replicate 32 0, group := none,
    trapCause := List.replicate 32 0, trapPc := List.replicate 32 0, pend := [], tx := none, txCause := 0, keptBegin := none,
    status := .ready, wake := [], sleepBegin := 0, handler := none, yielded := none, yieldAt := 0, boosted := false, readyAt := time,
    groupIssues := 0 }

/-- Its core. -/
def probeCore (node : Nat) : Core := ⟨node, 0, 0, 1, false, 0, 0, [], []⟩

/-- A state whose next step fetches and runs the instruction of some bytes: a program of one wave stands in place of every launch. -/
def State.placeBytes (s : State) (bs : List Byte) : State :=
  let node := ((s.nodes.head?).map (·.num)).getD 0
  { s with
    mem := s.mem.writeN (physKey node probeText) bs
    launches := [probeLaunch node s.nextNum]
    teams := [probeTeam node s.nextNum]
    waves := [probeWave s.nextNum s.time]
    cores := probeCore node :: s.cores.filter (fun k => !(k.node == node && k.die == 0 && k.num == 0))
    nextNum := s.nextNum + 1
    agenda := []
    queue := [] }

end Sys2Proof.Machine
end

