-- ==== Sys2Proof/Machine/Step.lean ====
section
/-! DEFINITION. The step: one instruction of one party, or one event, and one nanosecond of domain time (log 2). -/
namespace Sys2Proof.Machine
open Sys2Proof

/-- One step: the choice of who acts, the fetch and decode of its instruction, and its meaning. -/
def step (s : State) : Host.Outcome State Fault Refusal :=
  match s.choose with
  | (s1, .event i) => after (exec i s1)
  | (s1, .issue p) =>
    match s1.fetch p with
    | some (.ins i _ _ key len) => after (exec i (({ s1 with cur := p }).guardPhys key len))
    | some (.trap c d) => after (settle (s1.fetchTrap p c d))
    | none => after (settle s1)
  | (s1, .idle) => after (settle s1)

/-- The state with the instruction of the bits `w` where the next step fetches it: the bits at or above `nbits` are 0 (log 13). -/
def State.withFetchWord (s : State) (nbits w : Nat) : State := s.placeBytes (toBytes 8 (w % 2 ^ nbits))

end Sys2Proof.Machine
end

