-- ==== Sys2Proof/Safety.lean ====
section
/-! DEFINITION. The terms in which claims are stated: a wave at the point of issue of an instruction, what its operand
fields read, what going on to the next instruction leaves, and what stays as it was. -/
namespace Sys2Proof.Safety
open Sys2Proof Sys2Proof.Machine

/-! ### A wave at the point of issue -/

/-- Wave `w` of team `t` and launch `l` acts next, and nothing keeps it from issuing a word with its EX: the word passes the
checks of R87, an open transaction allows it (R186), the issue conditions of R68, R70, R71 and R288 hold, and it need not wait for
requests that its die has under way (R182, R357; log 14). -/
abbrev Issues (s : State) (x : Option Ex) (word : Word) (w : Wave) (t : Team) (l : Launch) : Prop :=
  s.stuck = none ∧ s.cur = .wave w.ref ∧ s.wave? w.ref = some w ∧ s.team? w.ref.team = some t ∧
  s.launch? w.ref.team.launch = some l ∧ waveCheck w x word = none ∧
  (w.tx.isSome = true → txAllowed word.maj word.fn = true) ∧ issueReady w word = true ∧
  s.behindPackets w t word = false

/-- Some item acts, every operand lies in the window and the quota, and no item traps at its operands (R13, R15, R340, R373). -/
abbrev Clean (s : State) (x : Option Ex) (word : Word) (w : Wave) : Prop :=
  w.active x ≠ 0 ∧ windowOk (wordInfo x word) x word w.view = true ∧
  preTraps w x word (w.active x) (s.geo w).index = [] ∧ w.bndHi ≤ 88

/-! ### What operand fields read (R10 to R15, R81, R109, R110) -/

/-- The number that a field holds for a lane: its own, or under XO the element of a register array (R15, R82). -/
def fieldAt (s : State) (x : Option Ex) (word : Word) (w : Wave) (f : Field) (lane : Nat) : Nat :=
  if exXo x != 0 && exXo x == f.xo then
    ((BitVec.ofNat 32 ((w.x.getD (exXi x) {}).form.at (s.geo w).index lane)).toInt + (f.of word : Int)).toNat
  else f.of word

/-- What `n` registers from a field number read in a lane. -/
def laneVal (s : State) (w : Wave) (n c lane : Nat) : Nat :=
  let ix := (s.geo w).index
  if isV c then
    (w.v.getD (w.wb + c) {}).form.at ix lane + (if n == 2 then 2 ^ 32 * (w.v.getD (w.wb + c + 1) {}).form.at ix lane else 0)
  else if isX c then
    (w.x.getD (c - 112) {}).form.at ix lane +
      (if n == 2 && c != 115 then 2 ^ 32 * (w.x.getD (c - 111) {}).form.at ix lane else 0)
  else if isK c then
    (w.k.getD (c - 88) 0).toNat + (if n == 2 then 2 ^ 32 * (w.k.getD (c - 87) 0).toNat else 0)
  else if c == 117 then ix .id lane % 2 ^ (32 * n)
  else if c == 118 then ix .ia lane % 2 ^ (32 * n)
  else if c == 119 then ix .ib lane % 2 ^ (32 * n)
  else if c == 120 then ix .ic lane % 2 ^ (32 * n)
  else if c == 121 then lane % 2 ^ (32 * n)
  else if c == 122 then w.ref.num
  else if c == 123 then w.ref.team.tm
  else 0

/-- What an operand of `n` registers reads in a lane; an immediate of a width `width` (R110) where the EX gives one. -/
def operand (s : State) (x : Option Ex) (word : Word) (w : Wave) (f : Field) (n width lane : Nat) : Nat :=
  if f == .b && exMode1 x && (wordInfo x word).immB then (BitVec.ofInt width (immOf x word.b7)).toNat
  else laneVal s w n (fieldAt s x word w f lane) lane

/-- Whether a form is U. -/
def isU : Form → Bool
  | .u _ => true
  | _ => false

/-- Whether an operand of `n` registers is uniform (R16, R113). -/
def uniform (s : State) (x : Option Ex) (word : Word) (w : Wave) (f : Field) (n : Nat) : Bool :=
  let c := fieldAt s x word w f ((maskLanes (w.active x)).headD 0)
  if f == .b && exMode1 x && (wordInfo x word).immB then true
  else (exXo x == 0 || exXo x != f.xo || isU (w.x.getD (exXi x) {}).form) &&
    (if isV c then isU (w.v.getD (w.wb + c) {}).form && (n != 2 || isU (w.v.getD (w.wb + c + 1) {}).form)
     else if isX c then isU (w.x.getD (c - 112) {}).form && (n != 2 || c == 115 || isU (w.x.getD (c - 111) {}).form)
     else isK c || c == 116 || c == 122 || c == 123 || c == 124 || c == 125 || c == 126 || c == 127)

/-! ### Register places -/

/-- Whether physical vector register `i` is one of `n` registers from a field number (R13). -/
def vPlace (w : Wave) (c n i : Nat) : Bool := isV c && decide (w.wb + c ≤ i) && decide (i < w.wb + c + n)
/-- Whether x-register `i` is one of `n` registers from a field number. -/
def xPlace (c n i : Nat) : Bool := isX c && decide (c - 112 ≤ i) && decide (i < c - 112 + n)
/-- Whether k-register `i` is one of `n` registers from a field number. -/
def kPlace (c n i : Nat) : Bool := isK c && decide (c - 88 ≤ i) && decide (i < c - 88 + n)

/-- What a lane of a register holds: its value and its marks. -/
def lanePart (ix : Sel → Nat → Nat) (r : Reg) (l : Nat) : Nat × Bool × Bool :=
  (r.form.at ix l, r.poison.getLsbD l, r.world.getLsbD l)

/-- Registers outside `n` from the number `c l` of each acting lane `l` are as before, and of those the live lanes that
did not act (R21). -/
abbrev RegsKept (s : State) (w w' : Wave) (act : Mask) (n : Nat) (c : Nat → Nat) : Prop :=
  (∀ i, (∀ l ∈ maskLanes act, vPlace w (c l) n i = false) → w'.v.getD i {} = w.v.getD i {}) ∧
  (∀ i, (∀ l ∈ maskLanes act, xPlace (c l) n i = false) → w'.x.getD i {} = w.x.getD i {}) ∧
  (∀ i, (∀ l ∈ maskLanes act, kPlace (c l) n i = false) → w'.k.getD i 0 = w.k.getD i 0) ∧
  (∀ i, ∀ l ∈ maskLanes w.live, (act.getLsbD l && vPlace w (c l) n i) = false →
    lanePart (s.geo w).index (w'.v.getD i {}) l = lanePart (s.geo w).index (w.v.getD i {}) l) ∧
  (∀ i, ∀ l ∈ maskLanes w.live, (act.getLsbD l && xPlace (c l) n i) = false →
    lanePart (s.geo w).index (w'.x.getD i {}) l = lanePart (s.geo w).index (w.x.getD i {}) l)

/-- Every register is as before. -/
abbrev RegsSame (w w' : Wave) : Prop := w'.v = w.v ∧ w'.x = w.x ∧ w'.k = w.k

/-- Each acting lane holds in `n` registers from its number the value `r` gives, with the poison and world-violation marks of
`mk`; a number 116 (z) discards it (R10), and of a pair that x3 begins only the low half is held (log 10). Every other register
is as before. -/
abbrev LanesHoldMarked (s : State) (w w' : Wave) (act : Mask) (n : Nat) (c r : Nat → Nat) (mk : Nat → Bool × Bool) : Prop :=
  (∀ l ∈ maskLanes act, c l ≠ 116 → laneVal s w' n (c l) l = r l % 2 ^ (32 * (if c l = 115 then 1 else n))) ∧
  (∀ l ∈ maskLanes act, ∀ i, vPlace w (c l) n i = true →
    ((w'.v.getD i {}).poison.getLsbD l, (w'.v.getD i {}).world.getLsbD l) = mk l) ∧
  (∀ l ∈ maskLanes act, ∀ i, xPlace (c l) n i = true →
    ((w'.x.getD i {}).poison.getLsbD l, (w'.x.getD i {}).world.getLsbD l) = mk l) ∧
  RegsKept s w w' act n c

/-- The same, without marks (R340: a write clears them). -/
abbrev LanesHold (s : State) (w w' : Wave) (act : Mask) (n : Nat) (c r : Nat → Nat) : Prop :=
  LanesHoldMarked s w w' act n c r (fun _ => (false, false))

/-- The destination field of each lane. -/
def dest (s : State) (x : Option Ex) (word : Word) (w : Wave) (lane : Nat) : Nat := fieldAt s x word w .d lane

/-! ### Predicates (R24) -/

/-- Predicate `p` of the acting items becomes what `q` says, for the others and for every other predicate nothing changes; p0
always reads true. -/
abbrev PredBecomes (w w' : Wave) (act : Mask) (p : Nat) (q : Nat → Bool) : Prop :=
  (∀ j ∈ [1, 2, 3, 4, 5, 6, 7], ∀ l ∈ lanes, (w'.pred j).getLsbD l =
    if j == p && act.getLsbD l then q l else (w.pred j).getLsbD l) ∧ w'.pred 0 = 0xFFFFFFFF

/-! ### What going on to the next instruction leaves -/

/-- An unfinished LX instruction with one instruction of the lanes `grp` counted in its windows (R68). -/
def counted (grp : Mask) (e : Pend) : Pend :=
  { e with win := lanes.map (fun l => e.win.getD l 0 - (if grp.getLsbD l then 1 else 0)) }

/-- The issuing group's items stand at `target`, every other item of the wave where it stood. -/
abbrev GroupAt (w w' : Wave) (target : Nat → Nat) : Prop :=
  ∀ l ∈ lanes, w'.pcOf l = if w.exec.getLsbD l then target l else w.pcOf l

/-- The address after the instruction (R59, R60). -/
def nextPc (w : Wave) (x : Option Ex) : Nat := (w.groupPc + insLen x) % 2 ^ 32

/-- Nothing of a wave has changed but its registers, predicates, program counters, unfinished LX instructions and the
scheduler's notes of an issue. -/
abbrev WaveFrame (s : State) (w w' : Wave) : Prop :=
  w' = { w with v := w'.v, x := w'.x, k := w'.k, preds := w'.preds, pcs := w'.pcs, pend := w'.pend, boosted := false,
                group := w'.group, readyAt := s.time, groupIssues := w'.groupIssues }

/-- The wave goes on: its issuing group stands at the next instruction, its windows have counted this one, and nothing of it has
changed but registers and predicates. -/
abbrev GoesOn (s : State) (x : Option Ex) (w w' : Wave) : Prop :=
  WaveFrame s w w' ∧ GroupAt w w' (fun _ => nextPc w x) ∧
  w'.pend = w.pend.map (fun e => if e.key < s.nextNum then counted w.exec e else e)

/-- A wave but for the mark that YIELD leaves on others (R152); nothing for wave `r` itself. -/
def otherWave (r : WaveRef) (v : Wave) : Option Wave := if v.ref == r then none else some { v with yielded := none }

/-- In the whole machine only waves have changed, and of those only `w`, into `w'`; every byte of memory reads as before. -/
abbrev OnlyWave (s s' : State) (w w' : Wave) : Prop :=
  s' = { s with waves := s'.waves } ∧ s'.wave? w.ref = some w' ∧
  s'.waves.map (otherWave w.ref) = s.waves.map (otherWave w.ref) ∧ ∀ a, s'.mem.read a = s.mem.read a

/-! ### LX instructions (R68, R69) -/

/-- What completing needs beside issuing: the team is at work, and every unfinished LX instruction has an older number. -/
abbrev Completes (s : State) (w : Wave) (t : Team) : Prop :=
  t.core.isSome = true ∧ t.saved = false ∧ ∀ e ∈ w.pend, e.key < s.nextNum

/-- The wave of an LX instruction that has issued has gone on from `w0`, which differs from the issuing wave `w` only in what the
instruction changed: no register has changed but that a register-array destination is written at once, and at most one entry has joined
the unfinished instructions, for the acting items, with its lookahead as its window and `n` answers of other nodes to wait for. -/
abbrev LxWaveFrom (s : State) (x : Option Ex) (word : Word) (w w0 w1 : Wave) (ord : Bool) (n : Nat) : Prop :=
  w1 = { w0 with v := w1.v, x := w1.x, k := w1.k, pcs := w1.pcs, pend := w1.pend, ord := ord, boosted := false,
                 group := w1.group, readyAt := s.time, groupIssues := w1.groupIssues } ∧
  GroupAt w w1 (fun _ => nextPc w x) ∧ (exXo x ≠ 1 → RegsSame w w1) ∧
  w1.pend.take w.pend.length = w.pend.map (counted w.exec) ∧ w1.pend.length ≤ w.pend.length + 1 ∧
  ∀ e ∈ w1.pend.drop w.pend.length, e.key = s.nextNum ∧ e.word = word ∧ e.mask = w.active x ∧
    (∀ lane ∈ lanes, e.win.getD lane 0 = word.fn) ∧ e.waits = n

/-- The same, where the instruction changes nothing of its wave and waits for no other node. -/
abbrev LxWave (s : State) (x : Option Ex) (word : Word) (w w1 : Wave) (ord : Bool) : Prop := LxWaveFrom s x word w w w1 ord 0

/-- An LX instruction has issued, and nothing has changed but its wave; every byte of memory reads as before. -/
abbrev LxIssued (s s1 : State) (x : Option Ex) (word : Word) (w w1 : Wave) (ord : Bool) : Prop :=
  s1 = { s with waves := s1.waves, nextNum := s.nextNum + 1 } ∧ s1.wave? w.ref = some w1 ∧
  s1.waves.map (otherWave w.ref) = s.waves.map (otherWave w.ref) ∧ (∀ a, s1.mem.read a = s.mem.read a) ∧
  LxWave s x word w w1 ord

/-- Its completion has written its results and removed its entry, and nothing else has changed. -/
abbrev LxDone (s1 s2 : State) (w w1 w2 : Wave) : Prop :=
  s2 = { s1 with waves := s2.waves } ∧ s2.wave? w.ref = some w2 ∧
  s2.waves.map (otherWave w.ref) = s1.waves.map (otherWave w.ref) ∧
  w2 = { w1 with v := w2.v, x := w2.x, k := w2.k, pend := w.pend.map (counted w.exec) }

/-! ### The memory as data (log 1) -/

/-- Every byte of the machine is held in the canonical form: a node's memory, and each team's scratchpad and accumulator memory. -/
abbrev Canonical (s : State) : Prop := s.mem.wf = true ∧ ∀ t ∈ s.teams, t.scratch.wf = true ∧ t.acm.wf = true

/-- The bounds of each wave's register arrays are in order and lie in the window (R15, R29), and its open transaction and each
alternative in it stand at a depth of 1 to 15 (R183, R192). -/
abbrev Bounded (s : State) : Prop := ∀ w ∈ s.waves, (w.bndLo ≤ w.bndHi ∧ w.bndHi ≤ 88) ∧
  ∀ u ∈ w.tx, (1 ≤ u.depth ∧ u.depth ≤ 15) ∧ ∀ a ∈ u.alts, 1 ≤ a.depth ∧ a.depth ≤ 15

/-! ### Bytes that other parties can reach (R32, R33, R185, R188, R195, R340) -/

/-- Memory and scratchpad bytes as a function of their location. -/
abbrev Bytes := Loc → Byte

/-- Bytes with some locations overwritten, in order. -/
def Bytes.put (m : Bytes) (ls : List Loc) (bs : List Byte) : Bytes :=
  (ls.zip bs).foldl (fun m p => fun o => if o = p.1 then p.2 else m o) m

/-- The little-endian number at some locations (R6). -/
def Bytes.num (m : Bytes) (ls : List Loc) : Nat := ofBytes (ls.map m)

/-- Whether every location of a list lies in the physical memory of its node (R372). -/
def present (ls : List Loc) : Bool := ls.all (fun o => match o with
  | .glob a => decide (a % 2 ^ 52 + 1 ≤ physBytes)
  | .scr _ _ => true)

/-- Another wave but for what a write of a line it watches may do to it: end its transaction, or wake it (R188, R195). -/
def watcher (r : WaveRef) (v : Wave) : Option Wave :=
  if v.ref == r then none
  else some { v with yielded := none, tx := none, txCause := 0, keptBegin := none, pend := [], pcs := [], status := .ready, wake := [] }

/-- A team but for its bytes. -/
def byteless (t : Team) : Team := { t with scratch := [] }

/-- Bytes have changed to `final`, those written have lost their poison, watchers of written lines may have been woken or
aborted, and nothing else of the machine has changed but wave `w`; `k` numbers have been drawn. -/
abbrev Stored (s s' : State) (w : Wave) (k : Nat) (written : Loc → Bool) (final : Bytes) : Prop :=
  s' = { s with waves := s'.waves, deliveries := s'.deliveries, mem := s'.mem, poison := s'.poison, teams := s'.teams,
                nextNum := s.nextNum + k } ∧
  s'.teams.map byteless = s.teams.map byteless ∧ s'.waves.map (watcher w.ref) = s.waves.map (watcher w.ref) ∧
  (∀ o, s'.peek o = final o) ∧ (∀ o, written o = false → s'.peek o = s.peek o) ∧
  ∀ a, s'.poison.contains a = (s.poison.contains a && !written (.glob a))

end Sys2Proof.Safety
end

