-- ==== Sys2Proof/Certificates/Slice0/Obligations.lean ====
section
/-! DEFINITION. The statements about the model: each definition is one claim, and its docstring says which rule of the spec it
formalises. The tables that the claims use give results in the spec's own terms (bit vectors and integers). -/
namespace Sys2Proof.Claims
open Sys2Proof Sys2Proof.Machine Sys2Proof.Safety

/-! ### Integer values (R50, R66, R109, R115 to R120) -/

/-- Registers of an operand of an integer type (R14, R66). -/
def regs (t : IntTy) : Nat := if t.width = 64 then 2 else 1

/-- A register value read as a type (R109). -/
def typed (t : IntTy) (v : Nat) : Int :=
  if t.signed then (BitVec.ofNat t.width v).toInt else ((BitVec.ofNat t.width v).toNat : Int)

/-- The least value of a type. -/
def least (t : IntTy) : Int := if t.signed then -(2 : Int) ^ (t.width - 1) else 0
/-- The largest value of a type. -/
def largest (t : IntTy) : Int := if t.signed then (2 : Int) ^ (t.width - 1) - 1 else (2 : Int) ^ t.width - 1

/-- The register value of an exact integer: reduced modulo 2^w, or clamped under `sat`, then extended (R50, R109, R115). -/
def fitted (t : IntTy) (sat : Bool) (e : Int) : Nat :=
  let r := BitVec.ofInt t.width (if sat then max (least t) (min (largest t) e) else e)
  if t.signed then (r.signExtend (32 * regs t)).toNat else r.toNat

/-- What an instruction computes in each lane: its EX, its destination registers, the operands it reads (field, registers, and
the width of an immediate), and its result. -/
structure LaneRule where
  x : Option Ex
  n : Nat
  srcs : List (Field × Nat × Nat)
  f : List Nat → Nat

/-- The exact result of an arithmetic instruction of two operands (R115). -/
def intTwo (x : Option Ex) (sat : Bool) (t : IntTy) (e : Int → Int → Int) : Option LaneRule :=
  some ⟨x, regs t, [(.a, regs t, t.width), (.b, regs t, t.width)],
    fun v => fitted t sat (e (typed t (v.getD 0 0)) (typed t (v.getD 1 0)))⟩

/-- An arithmetic instruction of one operand (R115). -/
def intOne (x : Option Ex) (sat : Bool) (t : IntTy) (e : Int → Int) : Option LaneRule :=
  some ⟨x, regs t, [(.a, regs t, t.width)], fun v => fitted t sat (e (typed t (v.getD 0 0)))⟩

/-- A logic instruction of two operands on the bits of the type (R117). -/
def logicTwo (x : Option Ex) (t : IntTy) (f : BitVec t.width → BitVec t.width → BitVec t.width) : Option LaneRule :=
  some ⟨x, regs t, [(.a, regs t, t.width), (.b, regs t, t.width)],
    fun v => (f (BitVec.ofNat t.width (v.getD 0 0)) (BitVec.ofNat t.width (v.getD 1 0))).toNat⟩

/-- A shift or bit-field instruction: the bits of the type and one 32-bit operand (R117, R118). -/
def shiftTwo (x : Option Ex) (t : IntTy) (f : BitVec t.width → Nat → BitVec t.width) : Option LaneRule :=
  some ⟨x, regs t, [(.a, regs t, t.width), (.b, 1, t.width)], fun v => (f (BitVec.ofNat t.width (v.getD 0 0)) (v.getD 1 0)).toNat⟩

/-- The bits [pos, pos + L) of x under R118, with L = min(len, w − pos). -/
def field118 {w : Nat} (signed : Bool) (x : BitVec w) (y : Nat) : BitVec w :=
  let pos := y % 256
  let len := y / 256 % 256
  if len = 0 ∨ w ≤ pos then 0
  else
    let f := x.extractLsb' pos (min len (w - pos))
    if signed then f.signExtend w else f.setWidth w

/-- d with bits [pos, pos + L) replaced by x[L − 1 : 0] under R118. -/
def insert118 {w : Nat} (d x : BitVec w) (y : Nat) : BitVec w :=
  let pos := y % 256
  let len := y / 256 % 256
  if len = 0 ∨ w ≤ pos then d
  else
    let m : BitVec w := (BitVec.ofNat w (2 ^ min len (w - pos) - 1)) <<< pos
    (d &&& ~~~m) ||| ((x <<< pos) &&& m)

/-- Byte k of BPICK's result (R120). -/
def pick120 (x y k : Nat) : Nat :=
  let f := BitVec.ofNat 4 (y >>> (4 * k))
  let b := BitVec.ofNat 8 (x >>> (8 * (f.toNat % 4)))
  match f.toNat / 4 with
  | 0 => b.toNat
  | 1 => 0
  | 2 => 0xFF
  | _ => if b.msb then 0xFF else 0

/-- The rule of an integer, logic, shift or address instruction (R115, R117 to R120). -/
def intRule : Instr → Option LaneRule
  | .iadd x s t _ _ _ => intTwo x s t (fun a b => a + b)
  | .isub x s t _ _ _ => intTwo x s t (fun a b => a - b)
  | .imul x s t _ _ _ => intTwo x s t (fun a b => a * b)
  | .imulh x s t _ _ _ => intTwo x s t (fun a b => a * b / (2 : Int) ^ t.width)
  | .imad x s t _ _ _ => some ⟨x, regs t, [(.a, regs t, t.width), (.b, regs t, t.width), (.d, regs t, t.width)],
      fun v => fitted t s (typed t (v.getD 0 0) * typed t (v.getD 1 0) + typed t (v.getD 2 0))⟩
  | .imin x s t _ _ _ => intTwo x s t min
  | .imax x s t _ _ _ => intTwo x s t max
  | .iabs x s t _ _ => intOne x s t (fun a => if a < 0 then -a else a)
  | .ineg x s t _ _ => intOne x s t (fun a => -a)
  | .and x _ t _ _ _ => logicTwo x t (fun a b => a &&& b)
  | .or x _ t _ _ _ => logicTwo x t (fun a b => a ||| b)
  | .xor x _ t _ _ _ => logicTwo x t (fun a b => a ^^^ b)
  | .andn x _ t _ _ _ => logicTwo x t (fun a b => a &&& ~~~b)
  | .shl x _ t _ _ _ => shiftTwo x t (fun a y => a <<< (y % 256))
  | .shr x _ t _ _ _ => shiftTwo x t (fun a y => a >>> (y % 256))
  | .sar x _ t _ _ _ => shiftTwo x t (fun a y => a.sshiftRight (y % 256))
  | .rol x _ t _ _ _ => shiftTwo x t (fun a y => a.rotateLeft (y % 256))
  | .popc x _ t _ _ => some ⟨x, 1, [(.a, regs t, t.width)],
      fun v => (List.range t.width).countP (fun i => (BitVec.ofNat t.width (v.getD 0 0)).getLsbD i)⟩
  | .clz x _ t _ _ => some ⟨x, 1, [(.a, regs t, t.width)], fun v => (BitVec.ofNat t.width (v.getD 0 0)).clz.toNat⟩
  | .brev x _ t _ _ => some ⟨x, regs t, [(.a, regs t, t.width)], fun v => (BitVec.ofNat t.width (v.getD 0 0)).reverse.toNat⟩
  | .bfx x _ t _ _ _ => shiftTwo x t (field118 t.signed)
  | .bfi x _ t _ _ _ => some ⟨x, regs t, [(.d, regs t, t.width), (.a, regs t, t.width), (.b, 1, t.width)],
      fun v => (insert118 (BitVec.ofNat t.width (v.getD 0 0)) (BitVec.ofNat t.width (v.getD 1 0)) (v.getD 2 0)).toNat⟩
  | .lea x _ t _ _ _ => some ⟨x, 2, [(.a, 2, 64), (.b, 1, 32)],
      fun v => (BitVec.ofNat 64 (v.getD 0 0) +
        (if t.signed then (BitVec.ofNat 32 (v.getD 1 0)).signExtend 64 else BitVec.ofNat 64 (v.getD 1 0))).toNat⟩
  | .bpick x _ _ _ _ _ => some ⟨x, 1, [(.a, 1, 32), (.b, 1, 32)],
      fun v => ofBytes ((List.range 4).map (fun k => BitVec.ofNat 8 (pick120 (v.getD 0 0) (v.getD 1 0) k)))⟩
  | _ => none

/-- The operands of a rule, as a lane reads them. -/
def LaneRule.args (r : LaneRule) (s : State) (word : Word) (w : Wave) (lane : Nat) : List Nat :=
  r.srcs.map (fun f => operand s r.x word w f.1 f.2.1 f.2.2 lane)

/-- The instruction of a rule issues: it is well formed, every issue condition holds, some item acts, no operand traps, and a
k-register destination has uniform operands only (R16). -/
abbrev LaneRule.Pre (r : LaneRule) (i : Instr) (s : State) (w : Wave) (t : Team) (l : Launch) : Prop :=
  i.wf = true ∧ Issues s r.x (wordOf i) w t l ∧ Clean s r.x (wordOf i) w ∧
  (isK (wordOf i).d7 = true → ∀ f ∈ r.srcs, uniform s r.x (wordOf i) w f.1 f.2.1 = true)

/-- Every acting lane holds its result; predicates are as before, and nothing changes but what going on changes. -/
abbrev LaneRule.Post (r : LaneRule) (i : Instr) (s s' : State) (w w' : Wave) : Prop :=
  OnlyWave s s' w w' ∧ GoesOn s r.x w w' ∧ w'.preds = w.preds ∧
  LanesHold s w w' (w.active r.x) r.n (dest s r.x (wordOf i) w) (fun lane => r.f (r.args s (wordOf i) w lane))

/-- The instruction of a rule computes it in every acting lane, and nothing else changes. -/
def LaneRule.Computes (r : LaneRule) (i : Instr) : Prop :=
  ∀ s w t l, r.Pre i s w t l → ∃ s' w', exec i s = .next s' ∧ r.Post i s s' w w'


/-! ### Carry (R116) -/

/-- IADDC and ISUBB: EX, type, saturation, and whether it subtracts. -/
def carryRule : Instr → Option (Option Ex × IntTy × Bool × Bool)
  | .iaddc x s t _ _ _ => some (x, t, s, false)
  | .isubb x s t _ _ _ => some (x, t, s, true)
  | _ => none

/-- The carry of a lane as a number. -/
def carryIn (w : Wave) (lane : Nat) : Nat := if (w.pred 7).getLsbD lane then 1 else 0

/-- IADDC or ISUBB issues; its carry is a predicate, so it takes no k-register destination (R113). -/
abbrev CarryPre (x : Option Ex) (i : Instr) (s : State) (w : Wave) (t : Team) (l : Launch) : Prop :=
  i.wf = true ∧ Issues s x (wordOf i) w t l ∧ Clean s x (wordOf i) w ∧ isK (wordOf i).d7 = false

/-- Result and carry of each acting lane. -/
abbrev CarryPost (x : Option Ex) (ty : IntTy) (sat sub : Bool) (i : Instr) (s s' : State) (w w' : Wave) : Prop :=
  let op (f : Field) (lane : Nat) : Nat := operand s x (wordOf i) w f (regs ty) ty.width lane
  let un (f : Field) (lane : Nat) : Nat := (BitVec.ofNat ty.width (op f lane)).toNat
  let e (lane : Nat) : Int := if sub then typed ty (op .a lane) - typed ty (op .b lane) - (carryIn w lane : Int)
    else typed ty (op .a lane) + typed ty (op .b lane) + (carryIn w lane : Int)
  OnlyWave s s' w w' ∧ GoesOn s x w w' ∧
  LanesHold s w w' (w.active x) (regs ty) (dest s x (wordOf i) w) (fun lane => fitted ty sat (e lane)) ∧
  PredBecomes w w' (w.active x) 7 (fun lane =>
    if sub then decide (un .a lane < un .b lane + carryIn w lane) else decide (2 ^ ty.width ≤ un .a lane + un .b lane + carryIn w lane))

/-! ### Floating point in lanes (R121, R122, R124, R125, R127) -/

/-- An instruction on FP32 or packed registers: its operands and result. -/
def fpTwo (x : Option Ex) (f : Nat → Nat → Nat) : Option LaneRule :=
  some ⟨x, 1, [(.a, 1, 32), (.b, 1, 32)], fun v => f (v.getD 0 0) (v.getD 1 0)⟩

/-- An instruction on FP32 or packed registers that reads d as its addend. -/
def fpThree (x : Option Ex) (f : Nat → Nat → Nat → Nat) : Option LaneRule :=
  some ⟨x, 1, [(.a, 1, 32), (.b, 1, 32), (.d, 1, 32)], fun v => f (v.getD 0 0) (v.getD 1 0) (v.getD 2 0)⟩

/-- The format of a packed instruction (R124). -/
def half124 (f16 : Bool) : Fmt := if f16 then fp16 else bf16

/-- A result built from its two halves (R109). -/
def halves (lo hi : Nat) : Nat := (BitVec.ofNat 16 hi ++ BitVec.ofNat 16 lo).toNat
/-- The low half of a register. -/
def lo16 (v : Nat) : Nat := (BitVec.ofNat 16 v).toNat
/-- The high half of a register. -/
def hi16 (v : Nat) : Nat := (BitVec.ofNat 16 (v >>> 16)).toNat

/-- The value of a CVT (R125): `src` and `dst` are type codes of R66. -/
def cvt125 (dst src : Nat) (rm : Rm) (sat : Bool) (v : Nat) : Nat :=
  let int (c : Nat) : Option IntTy := if c < 8 then some (IntTy.ofCode c) else none
  match int src, int dst with
  | some p, some q => fitted q sat (typed p v)
  | none, some q => match ((fmtOfTy src).getD fp32).decode v with
    | .nan => 0
    | .inf neg => fitted q true (if neg then -(2 : Int) ^ 64 else (2 : Int) ^ 64)
    | .fin neg m e => fitted q true (roundInt rm neg m e)
  | some p, none => ((fmtOfTy dst).getD fp32).round rm sat (decide (typed p v < 0)) (typed p v).natAbs 0 false
  | none, none => ((fmtOfTy dst).getD fp32).ofVal rm (sat && src != dst) (((fmtOfTy src).getD fp32).decode v)

/-- The type code of a CVT source (R125). -/
def src125 (c : Nat) : Nat := [0, 1, 2, 3, 8, 9, 10, 11].getD c 0

/-- The rule of a floating-point instruction. -/
def floatRule : Instr → Option LaneRule
  | .fadd x s r _ _ _ => fpTwo x (fadd fp32 r s)
  | .fsub x s r _ _ _ => fpTwo x (fsub fp32 r s)
  | .fmul x s r _ _ _ => fpTwo x (fmul fp32 r s)
  | .ffma x s r _ _ _ => fpThree x (ffma fp32 r s)
  | .fmin x _ _ _ => fpTwo x (fminmax fp32 false)
  | .fmax x _ _ _ => fpTwo x (fminmax fp32 true)
  | .fclass x _ _ => some ⟨x, 1, [(.a, 1, 32)], fun v => fclass (v.getD 0 0)⟩
  | .fcpys x _ _ _ => fpTwo x fcpys
  | .hadd2 x m s r _ _ _ => fpTwo x (fun a b =>
      halves (fadd (half124 m) r s (lo16 a) (lo16 b)) (fadd (half124 m) r s (hi16 a) (hi16 b)))
  | .hmul2 x m s r _ _ _ => fpTwo x (fun a b =>
      halves (fmul (half124 m) r s (lo16 a) (lo16 b)) (fmul (half124 m) r s (hi16 a) (hi16 b)))
  | .hfma2 x m s r _ _ _ => fpThree x (fun a b c =>
      halves (ffma (half124 m) r s (lo16 a) (lo16 b) (lo16 c)) (ffma (half124 m) r s (hi16 a) (hi16 b) (hi16 c)))
  | .hmax2 x m _ _ _ => fpTwo x (fun a b =>
      halves (fminmax (half124 m) true (lo16 a) (lo16 b)) (fminmax (half124 m) true (hi16 a) (hi16 b)))
  | .cvt x s r _ _ dt st => some ⟨x, tyRegs dt.toNat, [(.a, tyRegs (src125 st.toNat), 32)],
      fun v => cvt125 dt.toNat (src125 st.toNat) r s (v.getD 0 0)⟩
  | .frnd x r _ _ => some ⟨x, 1, [(.a, 1, 32)], fun v => frnd r (v.getD 0 0)⟩
  | _ => none

/-! ### CVTQ (R126) -/

/-- The lanes of the 16-lane groups that hold an acting item. -/
def quantised (act : Mask) : Mask := maskOf (fun l => lanes.any (fun j => act.getLsbD j && j / 16 == l / 16))

/-- The field number that a lane's result goes to: its element of a register array where there is one, else none (R15). -/
def destOrZ (s : State) (x : Option Ex) (word : Word) (w : Wave) (lane : Nat) : Nat :=
  match arrayLane w x (s.geo w).index 1 word.d7 lane with
  | .ok c => if exXo x == 1 then c else word.d7
  | .error _ => if exXo x == 1 then 116 else word.d7

/-- CVTQ writes every lane of each group that holds an acting item; the group's inactive lanes contribute +0. -/
abbrev CvtqPost (x : Option Ex) (esc : Bool) (r : Rm) (target : Nat) (i : Instr) (s s' : State) (w w' : Wave) : Prop :=
  let vals (g : Nat) : List Nat := (List.range 16).map (fun m =>
    if (w.active x).getLsbD (16 * g + m) then operand s x (wordOf i) w .a 1 32 (16 * g + m) else 0)
  OnlyWave s s' w w' ∧ GoesOn s x w w' ∧ w'.preds = w.preds ∧
  LanesHold s w w' (quantised (w.active x)) 1 (destOrZ s x (wordOf i) w)
    (fun lane => cvtqLane target (lane % 16) (cvtqGroup target esc r (vals (lane / 16))))

/-! ### Moves and reads (R25 to R31, R131 to R135, R154, R159, R194, R260, R265) -/

/-- What an instruction that moves or reads a value writes: its EX, its registers, the value of each lane, whether that is one value
for the wave (R16), and what it requires beside R87's checks. -/
structure ReadRule where
  x : Option Ex
  n : Nat
  val : State → Wave → Team → Launch → Nat → Nat
  uni : State → Wave → Bool
  need : State → Wave → Bool := fun _ _ => true

/-- The immediate of an instruction (R62, R81). -/
def imm (x : Option Ex) (i : Instr) : Int := immOf x (wordOf i).b7

/-- The tag code of the register that a field names (R19, R154). -/
def tag154 (w : Wave) (c : Nat) : Nat :=
  let code (f : Form) : Nat := match f with
    | .u _ => 0
    | .a _ _ _ => 1
    | .alo _ _ _ => 1
    | .ahi _ _ _ => 1
    | .n _ _ _ => 2
    | .m _ => 3
  if isV c then code (w.v.getD (w.wb + c) {}).form else if isX c then code (w.x.getD (c - 112) {}).form
  else if c = 117 ∨ c = 118 ∨ c = 119 ∨ c = 120 ∨ c = 121 then 1 else 0

/-- The value of a CSR of R28 to R31 in a lane. -/
def csr28 (s : State) (w : Wave) (t : Team) (c lane : Nat) : Nat :=
  match c with
  | 0x00 => (w.trapCause.getD lane 0).toNat
  | 0x01 => (w.trapPc.getD lane 0).toNat
  | 0x02 => w.exec.toNat
  | 0x03 => if w.ord then 1 else 0
  | 0x04 => w.bndHi <<< 8 ||| w.bndLo
  | 0x05 => w.quota <<< 8 ||| w.wb
  | 0x06 => w.txstat
  | 0x07 => s.mtdone t
  | 0x08 => s.kthOf t.ref 0
  | 0x09 => s.kthOf t.ref 1
  | 0x0A => s.kthOf t.ref 2
  | 0x0B => s.kthOf t.ref 3
  | 0x0C => flgc w.flags 0
  | 0x0D => flgc w.flags 1
  | 0x0E => flgc w.flags 2
  | c => formtab w (c - 0x10)

/-- The rule of an instruction that moves or reads a value. -/
def readRule (i : Instr) : Option ReadRule :=
  let word := wordOf i
  match i with
  | .sel x n p _ _ _ => some {
      x := x, n := 1
      val := fun s w _ _ lane =>
        operand s x word w (if (w.pred p.toNat).getLsbD lane != n then .a else .b) 1 32 lane
      uni := fun s w => p == 0 && uniform s x word w .a 1 && uniform s x word w .b 1 }
  | .mov x _ _ => some {
      x := x, n := 1, val := fun s w _ _ lane => operand s x word w .a 1 32 lane, uni := fun s w => uniform s x word w .a 1 }
  | .movk x _ a _ => some {
      x := x, n := 1, val := fun s w _ _ _ => laneVal s w 1 a.toNat (imm x i).toNat, uni := fun _ _ => true
      need := fun _ w => (laneMark w a.toNat (imm x i).toNat).isNone }
  | .ldi x _ _ => some { x := x, n := 1, val := fun _ _ _ _ _ => (BitVec.ofInt 32 (imm x i)).toNat, uni := fun _ _ => true }
  | .ldiHi x _ _ => some {
      x := x, n := 1
      val := fun s w _ _ lane => ((BitVec.ofNat 32 (operand s x word w .d 1 32 lane) &&& 0x007FFFFF#32) |||
        (BitVec.ofInt 32 (imm x i) <<< 23)).toNat
      uni := fun s w => uniform s x word w .d 1 }
  | .pmovGet x _ => some {
      x := x, n := 1
      val := fun _ w _ _ lane => (List.range 8).foldl (fun b j => b ||| ((if (w.pred j).getLsbD lane then 1 else 0) <<< j)) 0
      uni := fun _ _ => false }
  | .form x _ a => some {
      x := x, n := 1, val := fun _ w _ _ _ => tag154 w a.toNat, uni := fun _ w => tag154 w a.toNat == 0 }
  | .unif x _ _ => some {
      x := x, n := 1, val := fun s w _ _ lane => operand s x word w .a 1 32 lane, uni := fun _ _ => true
      need := fun s w => uniform s x word w .a 1 }
  | .idx x _ _ k => some {
      x := x, n := 1
      val := fun s w _ l lane =>
        let v := operand s x word w .a 2 64 lane
        let ea := max 1 (l.ext.getD 0 1)
        let eb := max 1 (l.ext.getD 1 1)
        if k.toNat = 0 then v % ea else if k.toNat = 1 then v / ea % eb else v / (ea * eb)
      uni := fun _ _ => false }
  | .csrr x _ k => some {
      x := x, n := 1, val := fun s w t _ lane => csr28 s w t k.toNat lane, uni := fun _ _ => 2 ≤ k.toNat }
  | .txstat x _ => some {
      x := x, n := 1
      val := fun _ w _ _ _ => w.txCause <<< 12 + (match w.tx with
        | none => 0
        | some t => t.alts.length <<< 8 + t.depth)
      uni := fun _ _ => true }
  | .time x _ => some { x := x, n := 2, val := fun s _ _ _ _ => s.time, uni := fun _ _ => true }
  | _ => none

/-- The instruction of a rule issues. -/
abbrev ReadRule.Pre (r : ReadRule) (i : Instr) (s : State) (w : Wave) (t : Team) (l : Launch) : Prop :=
  i.wf = true ∧ Issues s r.x (wordOf i) w t l ∧ Clean s r.x (wordOf i) w ∧ r.need s w = true ∧
  (isK (wordOf i).d7 = true → r.uni s w = true)

/-- Every acting lane holds its value, and nothing else changes. -/
abbrev ReadRule.Post (r : ReadRule) (i : Instr) (s s' : State) (w w' : Wave) (t : Team) (l : Launch) : Prop :=
  OnlyWave s s' w w' ∧ GoesOn s r.x w w' ∧ w'.preds = w.preds ∧
  LanesHold s w w' (w.active r.x) r.n (dest s r.x (wordOf i) w) (r.val s w t l)

/-! ### Predicates (R128 to R131, R178) -/

/-- An instruction that writes one predicate: EX, and the truth for each lane. -/
def predRule (i : Instr) : Option (Option Ex × (State → Wave → Nat → Bool)) :=
  let word := wordOf i
  match i with
  | .icmp x q _ _ _ =>
    let t := IntTy.ofCode (exTy x)
    some (x, fun s w lane =>
      let a := typed t (operand s x word w .a (regs t) t.width lane)
      let b := typed t (operand s x word w .b (regs t) t.width lane)
      match q with
      | .eq => decide (a = b)
      | .ne => decide (a ≠ b)
      | .lt => decide (a < b)
      | .le => decide (a ≤ b)
      | .gt => decide (b < a)
      | .ge => decide (b ≤ a))
  | .fcmp x q _ _ _ =>
    let f : Fmt := if exTy x = 9 then fp16 else if exTy x = 10 then bf16 else fp32
    some (x, fun s w lane =>
      let a := f.decode (operand s x word w .a 1 32 lane)
      let b := f.decode (operand s x word w .b 1 32 lane)
      let nan := a.isNan || b.isNan
      match q with
      | .eq => !nan && a.cmp b == .eq
      | .ne => nan || a.cmp b != .eq
      | .lt => !nan && a.cmp b == .lt
      | .le => !nan && a.cmp b != .gt
      | .gt => !nan && a.cmp b == .gt
      | .ge => !nan && a.cmp b != .lt
      | .num => !nan
      | .nan => nan)
  | _ => none

/-- A comparison issues. -/
abbrev PredPre (x : Option Ex) (i : Instr) (s : State) (w : Wave) (t : Team) (l : Launch) : Prop :=
  i.wf = true ∧ Issues s x (wordOf i) w t l ∧ Clean s x (wordOf i) w

/-- Predicate p[d] of each acting item holds the result, and nothing else changes. -/
abbrev PredPost (x : Option Ex) (i : Instr) (s s' : State) (w w' : Wave) (q : Nat → Bool) : Prop :=
  OnlyWave s s' w w' ∧ GoesOn s x w w' ∧ RegsSame w w' ∧ PredBecomes w w' (w.active x) (wordOf i).d7 q

/-- PMOV.SET writes p1 to p7 of each acting item, and nothing else changes. -/
abbrev PmovSetPost (x : Option Ex) (i : Instr) (s s' : State) (w w' : Wave) : Prop :=
  OnlyWave s s' w w' ∧ GoesOn s x w w' ∧ RegsSame w w' ∧
  ∀ j ∈ [1, 2, 3, 4, 5, 6, 7], ∀ lane ∈ lanes, (w'.pred j).getLsbD lane =
    if (w.active x).getLsbD lane then (BitVec.ofNat 32 (operand s x (wordOf i) w .a 1 32 lane)).getLsbD j else (w.pred j).getLsbD lane


/-! ### LX instructions in registers (R123, R137 to R146) -/

/-- What an LX instruction that works in registers writes when it completes: its EX, its registers, whether it writes every lane
(R112), the value of each lane, what it requires, and SSTAT.ORD after its issue. -/
structure LxRule where
  x : Option Ex
  n : Nat
  all : Bool := false
  val : State → Wave → Nat → Nat
  need : State → Wave → Bool := fun _ _ => true
  ord : State → Wave → Bool := fun _ w => w.ord

/-- The source lane of SHFL (R137). -/
def lane137 (mode lane y : Nat) : Nat :=
  match mode with
  | 0 => y % 32
  | 1 => (lane + y) % 32
  | 2 => if y ≤ 5 then lane ^^^ (2 ^ y - 1) else lane
  | _ => if y ≤ 4 then lane ^^^ (2 ^ y) else lane

/-- Whether a lane of a register field bears no mark (R340, R373). -/
def clean (w : Wave) (c lane : Nat) : Bool :=
  let r : Reg := if isV c then w.v.getD (w.wb + c) {} else if isX c then w.x.getD (c - 112) {} else {}
  !r.poison.getLsbD lane && !r.world.getLsbD lane

/-- The wave that an item of SHFLX reads, if register a of it can be read (R138). -/
def wave138 (s : State) (w : Wave) (a y : Nat) : Option Wave :=
  if 128 ≤ y then none
  else match s.wave? ⟨w.ref.team, 4 * (w.ref.num / 4) + y / 32⟩ with
    | none => none
    | some v => if v.live = 0 ∨ v.quota ≤ v.wb + a then none else some v

/-- The reduction of a non-empty list under an operation of R140, in its order (R55). -/
def reduced (ty op : Nat) (rm : Rm) (sat : Bool) (vs : List Nat) : Nat :=
  if ty = 8 then
    let step (a b : Nat) : Nat := if op = 0 then fadd fp32 rm sat a b else fminmax fp32 (op != 1) a b
    fp32.ofVal rm sat (fp32.decode (vs.tail.foldl step (vs.headD 0)))
  else
    let t := IntTy.ofCode ty
    let es := vs.map (typed t)
    let bs := vs.map (BitVec.ofNat t.width)
    match op with
    | 0 => fitted t sat es.sum
    | 1 => fitted t false (es.tail.foldl min (es.headD 0))
    | 2 => fitted t false (es.tail.foldl max (es.headD 0))
    | 3 => fitted t false ((bs.foldl (fun a b => a &&& b) (BitVec.allOnes t.width)).toNat : Int)
    | 4 => fitted t false ((bs.foldl (fun a b => a ||| b) 0).toNat : Int)
    | _ => fitted t false ((bs.foldl (fun a b => a ^^^ b) 0).toNat : Int)

/-- The identity of an operation (R142). -/
def identity142 (ty op : Nat) : Nat :=
  if ty = 8 then [0, 0x7F800000, 0xFF800000].getD op 0
  else
    let t := IntTy.ofCode ty
    match op with
    | 1 => fitted t false (largest t)
    | 2 => fitted t false (least t)
    | 3 => fitted t false (-1)
    | _ => 0

/-- The length of the sorted stream of active lanes (R145). -/
def stream145 (act : Mask) (key : Nat → Int) : Nat :=
  (lanes.takeWhile (fun l => act.getLsbD l && (l == 0 || decide (key (l - 1) < key l)))).length

/-- Whether a stream of a length ended at an active lane (R145). -/
def cut145 (act : Mask) (len : Nat) : Bool := decide (len < 32) && act.getLsbD len

/-- The order of SORTK's pairs of key and index (R146). -/
def order146 (ty : Nat) (desc : Bool) (p q : Nat × Nat) : Bool :=
  let rank (k : Nat) : Int := if ty = 8 then fkey fp32 (fp32.ofVal .rn false (fp32.decode k)) else typed (IntTy.ofCode ty) k
  if rank p.1 = rank q.1 then decide (p.2 ≤ q.2) else if desc then decide (rank q.1 < rank p.1) else decide (rank p.1 < rank q.1)

/-- The rule of an LX instruction that works in registers. -/
def lxRule (i : Instr) : Option LxRule :=
  let word := wordOf i
  let one (x : Option Ex) (f : Nat → Nat) : Option LxRule :=
    some { x := x, n := 1, val := fun s w lane => f (operand s x word w .a 1 32 lane) }
  match i with
  | .frcp x _ _ _ => one x (frcp (Rm.ofCode (exRm x)) (exSat x))
  | .frsq x _ _ _ => one x (frsq (Rm.ofCode (exRm x)) (exSat x))
  | .fsqrt x _ _ _ => one x (fsqrt (Rm.ofCode (exRm x)) (exSat x))
  | .fexp2 x _ _ _ => one x (exp2To fp32 (Rm.ofCode (exRm x)) (exSat x))
  | .flog2 x _ _ _ => one x (flog2 (Rm.ofCode (exRm x)) (exSat x))
  | .fsin x _ _ _ => one x (ftrig false (Rm.ofCode (exRm x)) (exSat x))
  | .fcos x _ _ _ => one x (ftrig true (Rm.ofCode (exRm x)) (exSat x))
  | .ftanh x _ _ _ => one x (ftanh (Rm.ofCode (exRm x)) (exSat x))
  | .shfl x _ _ a _ =>
    let src (s : State) (w : Wave) (lane : Nat) : Nat := lane137 (exFx x) lane (operand s x word w .b 1 32 lane)
    some { x := x, n := 1, val := fun s w lane => laneVal s w 1 a.toNat (src s w lane)
           need := fun s w => (maskLanes (w.active x)).all (fun lane => clean w a.toNat (src s w lane)) }
  | .shflx x _ _ a _ =>
    let y (s : State) (w : Wave) (lane : Nat) : Nat := operand s x word w .b 1 32 lane
    some { x := x, n := 1
           val := fun s w lane => match wave138 s w a.toNat (y s w lane) with
             | none => 0
             | some v => laneVal s v 1 a.toNat (y s w lane % 32)
           need := fun s w => (maskLanes (w.active x)).all (fun lane => match wave138 s w a.toNat (y s w lane) with
             | none => true
             | some v => clean v a.toNat (y s w lane % 32)) }
  | .vote x _ _ a => some {
      x := x, n := 1
      val := fun s w _ =>
        let on := maskLanes (w.active x)
        let p (l : Nat) : Bool := (w.pred a.toNat).getLsbD l
        let v (l : Nat) : Nat := operand s x word w .a 1 32 l
        match exFx x with
        | 0 => if on.any p then 1 else 0
        | 1 => if on.all p then 1 else 0
        | 2 => on.foldl (fun m l => m + (if p l then 2 ^ l else 0)) 0
        | _ => if on.all (fun l => v l == v (on.headD 0)) then 1 else 0 }
  | .redux x _ _ _ _ =>
    let n := if exTy x = 2 ∨ exTy x = 3 then 2 else 1
    some { x := x, n := n
           val := fun s w _ => reduced (exTy x) (exFx x) (Rm.ofCode (exRm x)) (exSat x)
             ((maskLanes (w.active x)).map (operand s x word w .a n (32 * n)))
           need := fun _ _ => decide (exFx x < 8) }
  | .scan x _ _ _ =>
    let n := if exTy x = 2 ∨ exTy x = 3 then 2 else 1
    some { x := x, n := n
           val := fun s w lane =>
             let vs := ((maskLanes (w.active x)).filter (fun j => decide (j < lane) || (decide (exFx x < 8) && j == lane))).map
               (operand s x word w .a n (32 * n))
             if vs = [] then identity142 (exTy x) (exFx x % 8)
             else reduced (exTy x) (exFx x % 8) (Rm.ofCode (exRm x)) (exSat x) vs }
  | .rbal x _ _ _ _ => some {
      x := x, n := 2
      val := fun s w lane =>
        let upTo (j : Nat) : Nat := (((maskLanes (w.active x)).filter (fun l => decide (l < j))).map (operand s x word w .a 1 32)).sum
        let q := operand s x word w .b 1 32 0 + lane
        if q < upTo 32 then
          let j := lanes.countP (fun l => decide (upTo (l + 1) ≤ q))
          j + 2 ^ 32 * (q - upTo j)
        else 0xFFFFFFFF
      need := fun s w => uniform s x word w .b 1 }
  | .mrg x _ _ _ _ =>
    let t := IntTy.ofCode (exTy x)
    let ka (s : State) (w : Wave) (l : Nat) : Nat := operand s x word w .a 1 32 l
    let kb (s : State) (w : Wave) (l : Nat) : Nat := operand s x word w .b 1 32 l
    let la (s : State) (w : Wave) : Nat := stream145 (w.active x) (fun l => typed t (ka s w l))
    let lb (s : State) (w : Wave) : Nat := stream145 (w.active x) (fun l => typed t (kb s w l))
    let ends (s : State) (w : Wave) : Bool := cut145 (w.active x) (la s w) || cut145 (w.active x) (lb s w)
    some { x := x, n := 2, all := true
           val := fun s w lane =>
             let m := ((List.range (la s w)).map (ka s w) ++ (List.range (lb s w)).map (kb s w)).mergeSort
               (fun p q => decide (typed t p ≤ typed t q))
             let pad := if exTy x = 0 then 0x7FFFFFFF else 0xFFFFFFFF
             m.getD lane pad + 2 ^ 32 * m.getD (lane + 32) pad
           need := fun s w => exFx x == 0 || !ends s w
           ord := fun s w => w.ord || ends s w }
  | .sortk x _ _ _ => some {
      x := x, n := 2, all := true
      val := fun s w lane =>
        let m := ((maskLanes (w.active x)).map (fun l =>
          (operand s x word w .a 2 64 l % 2 ^ 32, operand s x word w .a 2 64 l / 2 ^ 32))).mergeSort (order146 (exTy x) (exFx x == 1))
        match m[lane]? with
        | none => 2 ^ 64 - 1
        | some p => (if exTy x = 8 then fp32.ofVal .rn false (fp32.decode p.1) else p.1) + 2 ^ 32 * p.2 }
  | _ => none

/-- The LX instruction of a rule issues, and its team is at work. -/
abbrev LxRule.Pre (r : LxRule) (i : Instr) (s : State) (w : Wave) (t : Team) (l : Launch) : Prop :=
  i.wf = true ∧ Issues s r.x (wordOf i) w t l ∧ Clean s r.x (wordOf i) w ∧ Completes s w t ∧ r.need s w = true

/-- After issue and completion the lanes hold the results. -/
abbrev LxRule.Post (r : LxRule) (i : Instr) (s s1 s2 : State) (w w1 w2 : Wave) : Prop :=
  LxIssued s s1 r.x (wordOf i) w w1 (r.ord s w) ∧ LxDone s1 s2 w w1 w2 ∧
  LanesHold s w w2 (if r.all then BitVec.allOnes 32 else w.active r.x) r.n (dest s r.x (wordOf i) w) (r.val s w)

/-- The four results of WORK (R158). -/
def work158 (tiles iters teams t : Nat) : List Nat :=
  let n := tiles * iters
  let start := t * n / teams
  let stop := (t + 1) * n / teams
  if iters = 0 then [0, 0, 0, 0]
  else [start, stop, (if start < stop ∧ start % iters ≠ 0 then 1 else 0) + (if start < stop ∧ stop % iters ≠ 0 then 2 else 0), start / iters]

/-- The number of teams of a launch (R12, R275). -/
def teams12 (l : Launch) : Nat :=
  let n (j : Nat) : Nat := max 1 (ceilDiv (l.ext.getD j 1) (max 1 (l.kernel.shape.getD j 1)))
  n 0 * n 1 * n 2

/-- WORK issues with uniform operands and T × I below 2^32. -/
abbrev WorkPre (x : Option Ex) (i : Instr) (s : State) (w : Wave) (t : Team) (l : Launch) : Prop :=
  i.wf = true ∧ Issues s x (wordOf i) w t l ∧ Clean s x (wordOf i) w ∧ Completes s w t ∧
  uniform s x (wordOf i) w .a 1 = true ∧ uniform s x (wordOf i) w .b 1 = true ∧
  operand s x (wordOf i) w .a 1 32 0 * operand s x (wordOf i) w .b 1 32 0 < 2 ^ 32

/-- After issue and completion the four registers of each acting lane hold the results. -/
abbrev WorkPost (x : Option Ex) (i : Instr) (s s1 s2 : State) (w w1 w2 : Wave) (l : Launch) : Prop :=
  let c := (wordOf i).d7
  let vals := work158 (operand s x (wordOf i) w .a 1 32 0) (operand s x (wordOf i) w .b 1 32 0) (teams12 l) w.ref.team.tm
  LxIssued s s1 x (wordOf i) w w1 w.ord ∧ LxDone s1 s2 w w1 w2 ∧ RegsKept s w w2 (w.active x) 4 (fun _ => c) ∧
  (c ≠ 116 → ∀ j ∈ [0, 1, 2, 3], ∀ lane ∈ maskLanes (w.active x),
    isV (c + j) || isX (c + j) || isK (c + j) → laneVal s w2 1 (c + j) lane = vals.getD j 0 % 2 ^ 32)


/-! ### Effects on the wave alone (R149 to R152, R155, R183 to R191, R200, R206, R28, R29) -/

/-- What an instruction does to its wave beside going on: no register and no predicate changes. -/
structure WaveRule where
  x : Option Ex
  need : State → Wave → Team → Launch → Bool
  eff : State → Wave → Wave

/-- The waves that share a wave's partition and could issue: those that YIELD lets go first (R152). -/
def rivals (s : State) (w : Wave) : List WaveRef :=
  let place (v : Wave) : Option (Nat × Nat × Option Nat) := (s.team? v.ref.team).map (fun t => (t.node, t.die, t.core))
  (s.waves.filter (fun v => (place v).isSome && place v == place w && v.part == w.part && v.ref != w.ref && v.live != 0 &&
    v.status == .ready)).map (·.ref)

/-- The byte address that the 21-bit offset of a BX word names (R65). -/
def target65 (w : Wave) (o : BitVec 21) : Nat := (BitVec.ofNat 32 w.groupPc + (o.signExtend 32 <<< 2)).toNat

/-- The rule of an instruction whose effect lies in its wave's own state. -/
def waveRule (i : Instr) : Option WaveRule :=
  let word := wordOf i
  match i with
  | .nop x => some ⟨x, fun _ _ _ _ => true, fun _ w => w⟩
  | .join x => some ⟨x, fun _ w _ _ => (maskLanes w.candidates).all (fun l => w.groupPc ≤ w.pcOf l), fun _ w => w⟩
  | .fence x => some ⟨x, fun s w _ _ => w.pend.isEmpty && !s.inFlight w.ref, fun _ w => w⟩
  | .waitf x n k => some ⟨x,
      fun _ w _ _ => (List.range 12).all (fun j => !(imm x (.waitf x n k)).toNat.testBit j || w.flags.getD j 0 ≤ n.toNat), fun _ w => w⟩
  | .yield x => some ⟨x, fun _ _ _ _ => true,
      fun s w => { w with yielded := if rivals s w = [] then none else some (rivals s w), yieldAt := s.time }⟩
  | .wbase x k => some ⟨x,
      fun _ w _ _ => decide (0 ≤ imm x (.wbase x k)) && (decide (imm x (.wbase x k) = 0) || decide (8 * (imm x (.wbase x k)).toNat + 87 < w.quota)),
      fun _ w => { w with wb := 8 * (imm x (.wbase x k)).toNat }⟩
  | .exit x => some ⟨x,
      fun _ w _ _ => w.live &&& ~~~(w.active x) != 0 && w.handler.all (fun h => h.running &&& (w.live &&& ~~~(w.active x)) != 0),
      fun _ w => { w with live := w.live &&& ~~~(w.active x) }⟩
  | .csrwSstat x _ => some ⟨x, fun s w _ _ => uniform s x word w .a 1,
      fun s w => { w with ord := (operand s x word w .a 1 32 0).testBit 0 }⟩
  | .csrwBnd x _ => some ⟨x,
      fun s w _ _ =>
        let v := operand s x word w .a 1 32 0
        uniform s x word w .a 1 && decide (v < 2 ^ 16) && decide (v % 256 ≤ v / 256) && decide (v / 256 ≤ 88),
      fun s w => { w with bndLo := operand s x word w .a 1 32 0 % 256, bndHi := operand s x word w .a 1 32 0 / 256 }⟩
  | .txbegin o => some ⟨none, fun s w _ _ => !w.fallback && (w.tx.map (·.depth)).getD 0 != 15 && (w.tx.isSome || !s.inFlight w.ref),
      fun s w => { w with tx := some (match w.tx with
        | none => { abortPc := target65 w o, beginPc := w.groupPc, begun := w.keptBegin.getD s.time, depth := 1, alts := [],
                    rlines := [], wlines := [], overlay := [], firstPend := s.nextNum, redux := [] }
        | some t => { t with depth := t.depth + 1 }) }⟩
  | .orelse o => some ⟨none, fun _ w _ _ => (w.tx.map (fun t => t.alts.length != 4)).getD false,
      fun _ w => { w with tx := w.tx.map (fun t => { t with
        alts := ⟨target65 w o, t.depth, t.overlay, t.wlines, t.redux⟩ :: t.alts }) }⟩
  | .orend x => some ⟨x, fun _ w _ _ => (w.tx.map (fun t => t.alts != [])).getD false,
      fun _ w => { w with tx := w.tx.map (fun t => { t with alts := t.alts.tail }) }⟩
  | _ => none

/-- The instruction of a rule issues. -/
abbrev WaveRule.Pre (r : WaveRule) (i : Instr) (s : State) (w : Wave) (t : Team) (l : Launch) : Prop :=
  i.wf = true ∧ Issues s r.x (wordOf i) w t l ∧ Clean s r.x (wordOf i) w ∧ r.need s w t l = true

/-- Its effect, and nothing else beside going on. -/
abbrev WaveRule.Post (r : WaveRule) (s s' : State) (w w' : Wave) : Prop :=
  OnlyWave s s' w w' ∧
  w' = { r.eff s w with pcs := w'.pcs, pend := w'.pend, boosted := false, group := w'.group, readyAt := s.time,
                        groupIssues := w'.groupIssues } ∧
  GroupAt w w' (fun _ => nextPc w r.x) ∧ w'.pend = w.pend.map (fun e => if e.key < s.nextNum then counted w.exec e else e)

/-! ### The end of waves, teams and launches (R151, R203, R271, R286, R287) -/

/-- The rows of an ended wave that a live wave of its team on its partition receives (R286): waves of lower numbers come first, and none
grows beyond its quota. -/
def rows286 (s : State) (w v : Wave) : Nat :=
  let takes (u : Wave) : Bool := u.ref != w.ref && u.ref.team == w.ref.team && u.part == w.part && u.live != 0
  if takes v then min (v.quota - v.rowBudget)
    (w.rowBudget - ((s.waves.filter (fun u => takes u && decide (u.ref.num < v.ref.num))).map (fun u => u.quota - u.rowBudget)).sum)
  else 0

/-- EXIT issues for the last items of its wave, which runs no handler; no phase of a barrier object of the team completes by it (R203),
and no team reduction is open (R141). -/
abbrev EndPre (x : Option Ex) (s : State) (w : Wave) (t : Team) (l : Launch) : Prop :=
  Issues s x (wordOf (.exit x)) w t l ∧ Clean s x (wordOf (.exit x)) w ∧ w.live &&& ~~~(w.active x) = 0 ∧ w.handler = none ∧
  t.round = none ∧ ∀ b ∈ t.barriers,
    popcount 32 (b.arrived ||| ((t.ended ||| maskOf (fun i => i == w.ref.num)) &&& ~~~b.ended0)).toNat < barExpect (s.barWord t b.off 0)

/-- Whether a wave is the last of its team. -/
abbrev LastWave (s : State) (w : Wave) : Prop := ∀ v ∈ s.waves, v.ref.team = w.ref.team → v.ref = w.ref

/-- The wave is gone, and its rows have gone to the waves of R286; of no other wave has anything else changed. -/
abbrev WaveEnded (s s' : State) (w : Wave) : Prop :=
  s'.waves.map (fun v => { v with yielded := none }) = (s.waves.filter (fun v => v.ref != w.ref)).map (fun v =>
    { v with yielded := none, rowBudget := v.rowBudget + rows286 s w v })

/-- Other waves of the team are left: the team counts one more as ended. -/
abbrev EndPost (s s' : State) (w : Wave) (t : Team) : Prop :=
  s' = { s with waves := s'.waves, teams := s.teams.map (fun u =>
    if u.ref = t.ref then { u with ended := u.ended ||| maskOf (fun i => i == w.ref.num) } else u) } ∧ WaveEnded s s' w

/-- No engine command of the team, and no request of its waves, is outstanding (R287, R315). -/
abbrev Settled (s : State) (t : Team) : Prop := s.outstanding t.ref = false ∧ s.teamSends t.ref = false

/-- Nothing of a team is left. -/
def without287 (s : State) (t : Team) : State :=
  { s with
    waves := s.waves.filter (fun v => v.ref.team != t.ref)
    teams := s.teams.filter (fun u => u.ref != t.ref)
    streams := s.streams.filter (fun q => match q.ref with
      | .team u _ => u != t.ref
      | .ctx _ _ => true) }

/-- The team has retired, and its launch goes on. -/
abbrev RetirePost (s s' : State) (w : Wave) (t : Team) : Prop :=
  s' = { without287 s t with waves := s'.waves } ∧ WaveEnded s s' w

/-- Where a word of a launch is written (R271), under the segments of its context as they stand when it completes. -/
def doneKey (s0 s : State) (l : Launch) (addr : Nat) : Except (Nat × Nat × Bool) Nat :=
  s.globalKey l.node l.die l.ccn (s0.segTable l.node (s0.rcbWord l.node l.region.ctxRcb 0x30 8)) l.region.world addr 4 .write

/-- The place of the launch's STATE word, the record's word at 0x2C. -/
def stateKey (s : State) (l : Launch) : Except (Nat × Nat × Bool) Nat := doneKey s s l (l.record + 0x2C)

/-- The place of DONEVAL once STATE has been written. -/
def valueKey (s : State) (l : Launch) (state : Nat) : Except (Nat × Nat × Bool) Nat :=
  doneKey s (s.wrPhys state (toBytes 4 2) none) l l.doneAddr

/-- The launch has completed too: STATE is 2, and DONEVAL stands at DONEADDR unless that is 0 (R271). -/
abbrev CompletePost (s s' : State) (w : Wave) (t : Team) (l : Launch) (state done : Nat) : Prop :=
  let put (m : Bytes) (k v : Nat) : Bytes := m.put (globLocs k 4) (toBytes 4 v)
  let final : Bytes := if l.doneAddr = 0 then put s.peek state 2 else put (put s.peek state 2) done l.doneVal
  s' = { without287 s t with
    waves := s'.waves, launches := s.launches.filter (fun m => m.num != l.num), mem := s'.mem, poison := s'.poison
    deliveries := s'.deliveries } ∧
  s'.waves.map (watcher w.ref) = ((s.waves.filter (fun v => v.ref != w.ref)).map (watcher w.ref)) ∧
  ∀ a, s'.mem.read a = final (.glob a)

/-- The launch has completed, and its completion word could not be written: a KIND 9 record says so (R271, R339). -/
abbrev CompleteFails (s s' : State) (w : Wave) (t : Team) (l : Launch) (state c d : Nat) : Prop :=
  let r : Record := ⟨9, c + 256 * d, l.region.rcb, 0, whereWord l.node l.die 0 0 0 0, 0, l.record, 0, 0, s.time⟩
  s' = { (without287 s t).publish l.node l.region.fdom r with
    waves := s'.waves, launches := s.launches.filter (fun m => m.num != l.num), mem := s'.mem, poison := s'.poison
    deliveries := s'.deliveries } ∧
  s'.waves.map (watcher w.ref) = ((s.waves.filter (fun v => v.ref != w.ref)).map (watcher w.ref)) ∧
  ∀ a, s'.mem.read a = Bytes.put s.peek (globLocs state 4) (toBytes 4 2) (.glob a)

/-- MATL gives the named register the form M; every lane's value and marks, and every other register, stay (R154). -/
abbrev MatlPost (x : Option Ex) (a : R7) (s s' : State) (w w' : Wave) : Prop :=
  let ix := (s.geo w).index
  OnlyWave s s' w w' ∧ GoesOn s x w w' ∧ w'.preds = w.preds ∧ w'.k = w.k ∧
  (∀ i, vPlace w a.toNat 1 i = false → w'.v.getD i {} = w.v.getD i {}) ∧
  (∀ i, xPlace a.toNat 1 i = false → w'.x.getD i {} = w.x.getD i {}) ∧
  (∀ i, vPlace w a.toNat 1 i = true → (w'.v.getD i {}).form.tag = 3 ∧
    ∀ l ∈ lanes, lanePart ix (w'.v.getD i {}) l = lanePart ix (w.v.getD i {}) l) ∧
  (∀ i, xPlace a.toNat 1 i = true → (w'.x.getD i {}).form.tag = 3 ∧
    ∀ l ∈ lanes, lanePart ix (w'.x.getD i {}) l = lanePart ix (w.x.getD i {}) l)

/-! ### Transfers (R65, R147, R148) -/

/-- Whether cond4 holds for an item (R65): predicate c, or the negation of predicate c − 8. -/
def cond65 (w : Wave) (c : BitVec 4) (lane : Nat) : Bool :=
  if c.toNat < 8 then (w.pred c.toNat).getLsbD lane else !(w.pred (c.toNat - 8)).getLsbD lane

/-- A transfer: EX, whether an item takes it, its target, and whether x3 receives the return address. -/
def jumpRule (i : Instr) : Option (Option Ex × (State → Wave → Nat → Bool) × (State → Wave → Nat → Nat) × Bool) :=
  let word := wordOf i
  match i with
  | .bra c o => some (none, fun _ w l => cond65 w c l, fun _ w _ => target65 w o, false)
  | .call c o => some (none, fun _ w l => cond65 w c l, fun _ w _ => target65 w o, true)
  | .brx x _ => some (x, fun _ w l => (w.active x).getLsbD l, fun s w l => operand s x word w .a 1 32 l, false)
  | .ret x _ => some (x, fun _ w l => (w.active x).getLsbD l, fun s w l => operand s x word w .a 1 32 l, false)
  | _ => none

/-- A transfer issues outside a transaction, to targets that are multiples of 4. -/
abbrev JumpPre (x : Option Ex) (take : State → Wave → Nat → Bool) (target : State → Wave → Nat → Nat) (i : Instr) (s : State)
    (w : Wave) (t : Team) (l : Launch) : Prop :=
  i.wf = true ∧ Issues s x (wordOf i) w t l ∧ Clean s x (wordOf i) w ∧ w.tx = none ∧
  ∀ lane ∈ maskLanes (w.active x), take s w lane = true → target s w lane % 4 = 0

/-- Taken items stand at their target, the group's others at the next instruction; CALL writes pc + 4 to x3 of each taken item. -/
abbrev JumpPost (x : Option Ex) (take : State → Wave → Nat → Bool) (target : State → Wave → Nat → Nat) (link : Bool)
    (s s' : State) (w w' : Wave) : Prop :=
  let goes (lane : Nat) : Bool := (w.active x).getLsbD lane && take s w lane
  let x3 (lane : Nat) : Nat := if link && goes lane then 115 else 116
  OnlyWave s s' w w' ∧ WaveFrame s w w' ∧ w'.preds = w.preds ∧
  GroupAt w w' (fun lane => if goes lane then target s w lane else nextPc w x) ∧
  w'.pend = w.pend.map (fun e => if e.key < s.nextNum then counted w.exec e else e) ∧
  LanesHold s w w' (w.active x) 1 x3 (fun _ => w.groupPc + 4)

/-! ### WQUOTA (R156, R157) -/

/-- WQUOTA issues and every check of R156 passes, for target wave `v` and `g` registers. -/
abbrev QuotaPre (x : Option Ex) (i : Instr) (s : State) (w v : Wave) (t : Team) (l : Launch) (g : Nat) : Prop :=
  i.wf = true ∧ Issues s x (wordOf i) w t l ∧ Clean s x (wordOf i) w ∧ uniform s x (wordOf i) w .a 1 = true ∧
  uniform s x (wordOf i) w .b 1 = true ∧ operand s x (wordOf i) w .b 1 32 0 = g ∧ g % 8 = 0 ∧ 8 ≤ g ∧ g ≤ 248 ∧
  s.wave? ⟨w.ref.team, operand s x (wordOf i) w .a 1 32 0⟩ = some v ∧ v.ref ≠ w.ref ∧ quotaCheck s w t (some v) g = none

/-- The quotas have moved, new registers read 0 in form U, and the rows have gone as R157 says. -/
abbrev QuotaPost (x : Option Ex) (s s' : State) (w w' v v' : Wave) (g : Nat) : Prop :=
  let rows := min w.rowBudget (w.quota - g)
  let gain := if v.part = w.part then w.rowBudget - rows else min g (s.freeRows w v.part) / 8 * 8
  s' = { s with waves := s'.waves } ∧ s'.wave? w.ref = some w' ∧ s'.wave? v.ref = some v' ∧
  w'.quota = w.quota - g ∧ v'.quota = v.quota + g ∧ w'.rowBudget = rows ∧
  v'.rowBudget = min (v.rowBudget + gain) (v.quota + g) ∧ w'.v = w.v.take (w.quota - g) ∧
  v'.v = v.v ++ List.replicate g { form := .u 0 } ∧
  (∀ u ∈ s'.waves, u.ref ≠ w.ref → u.ref ≠ v.ref → ∃ u0 ∈ s.waves, { u with yielded := none } = { u0 with yielded := none }) ∧
  GroupAt w w' (fun _ => nextPc w x) ∧ w'.x = w.x ∧ w'.k = w.k ∧ w'.preds = w.preds ∧ v'.x = v.x ∧ v'.k = v.k ∧ v'.preds = v.preds

/-! ### Secure services (R264, R372 to R377, R380, R383) -/

/-- A reply of a service: its status, and the words of k(a+1) onward that it writes. -/
abbrev Answer := Nat × List Nat

/-- Everything that a successful service changes beside the caller's registers. -/
inductive Change
  | none
  | world (region : Nat) (secure : Bool)
  | domain (f : Nat)
  | slot (m : Nat) (key : Nat)
  | drawn (n : Nat)

/-- Whether a change invalidates lines that other waves may watch or hold in a transaction (R188, R195, R377). -/
def Change.touches : Change → Bool
  | .world _ _ => true
  | _ => false

/-- Whether a digest that is read lies in the node's memory. -/
def Change.readable : Change → Bool
  | .slot _ k => decide (k % 2 ^ 52 + 64 ≤ physBytes)
  | _ => true

/-- The change is made and, the caller's wave apart, nothing else: of REGION_SET the world, and zeros where the region has become
non-secure. -/
def Change.Made (c : Change) (s s' : State) (t : Team) : Prop :=
  match c with
  | .none => s' = { s with waves := s'.waves }
  | .drawn k => s' = { s with waves := s'.waves, freeCtr := s.freeCtr + k }
  | .domain f => s' = { s with
      waves := s'.waves
      nodes := s.nodes.map (fun d => if d.num = t.node then { d with sfdom := some f } else d) }
  | .slot m k => s' = { s with
      waves := s'.waves
      nodes := s.nodes.map (fun d => if d.num = t.node then
        { d with ms := setAt d.ms m (ofBytes (sha512 (toBytes 64 (d.ms.getD m 0) ++ s.mem.readN k 64))) } else d) }
  | .world r secure =>
    s' = { s with
      waves := s'.waves, deliveries := s'.deliveries, mem := s'.mem, poison := s'.poison
      nodes := s.nodes.map (fun d => if d.num = t.node then
        { d with secure := if secure then r :: d.secure else d.secure.filter (fun q => q != r) } else d) } ∧
    ∀ b, s'.mem.read b =
      if !secure && decide (physKey t.node (r * 2 ^ 21) ≤ b) && decide (b < physKey t.node (r * 2 ^ 21) + 2 ^ 21) then 0 else s.mem.read b

/-- The service of an instruction: its EX, and its reply and change for the three argument words (R376). -/
def serviceRule (i : Instr) : Option (Option Ex × R7 × (State → Team → Launch → Nat → Nat → Nat → Answer × Change)) :=
  let bad : Answer × Change := ((0xFFFFFFFD, []), .none)
  let world : Answer × Change := ((0xFFFFFFFE, []), .none)
  let isSecure (s : State) (t : Team) (r : Nat) : Bool := (s.node? t.node).any (fun d => d.secure.contains r)
  match i with
  | .version x a => some (x, a, fun s t _ _ _ _ => ((0, [((s.node? t.node).map (·.svn)).getD 0, 7]), .none))
  | .regionSet x a => some (x, a, fun s t _ r v _ =>
      if t.world = false then world else if r ≥ 393216 ∨ v > 1 then bad
      else if isSecure s t r = decide (v = 1) then ((0, []), .none) else ((0, []), .world r (v == 1)))
  | .regionGet x a => some (x, a, fun s t _ r _ _ => if r ≥ 393216 then bad else ((0, [if isSecure s t r then 1 else 0]), .none))
  | .sfdomSet x a => some (x, a, fun _ t _ f _ _ =>
      if t.world = false then world else if f > 255 then bad else ((0, []), .domain f))
  | .measure x a => some (x, a, fun s t _ m c _ =>
      if m > 7 ∨ c > 5 then bad
      else
        let v := ((s.node? t.node).map (fun d => d.ms.getD m 0)).getD 0
        ((0, [(v >>> (96 * c)) % 2 ^ 32, (v >>> (96 * c + 32)) % 2 ^ 32, (v >>> (96 * c + 64)) % 2 ^ 32]), .none))
  | .extend x a => some (x, a, fun s t _ m lo hi =>
      if t.world = false then world else if m < 4 ∨ m > 7 then bad
      else match s.globalKey t.node t.die (s.ccnOf t.ref.launch) t.segs t.world (lo + 2 ^ 32 * hi) 64 .read with
        | .error _ => bad
        | .ok k => ((0, []), .slot m k))
  | .random x a => some (x, a, fun s _ _ _ _ _ => ((0, (List.range 3).map (fun j => (Config.randomWord (s.freeCtr + j)).toNat)), .drawn 3))
  | .powerRead x a => some (x, a, fun s _ _ b _ _ =>
      if b ≥ 2 ^ 16 ∨ b % 2 ^ 10 ≥ [160, 64, 3, 9, 3, 1, 1, 1].getD (b >>> 12) 0 then bad
      else ((0, (List.range 3).map (fun j => ((Config.powerReading b s.freeCtr).toNat >>> (32 * j)) % 2 ^ 32)), .drawn 1))
  | .swcUnknownService x a _ => some (x, a, fun _ _ _ _ _ _ => ((0xFFFFFFFF, []), .none))
  | _ => none

/-- The reply of a call: the argument words stand in k(a+1) to k(a+3). -/
def reply (a : R7) (f : State → Team → Launch → Nat → Nat → Nat → Answer × Change) (s : State) (w : Wave) (t : Team) (l : Launch) :
    Answer × Change :=
  let k (j : Nat) : Nat := (w.k.getD (a.toNat - 88 + j) 0).toNat
  f s t l (k 1) (k 2) (k 3)

/-- A call issues; a digest that EXTEND reads lies in the node's memory. -/
abbrev ServicePre (x : Option Ex) (c : Change) (i : Instr) (s : State) (w : Wave) (t : Team) (l : Launch) : Prop :=
  i.wf = true ∧ Issues s x (wordOf i) w t l ∧ Clean s x (wordOf i) w ∧
  c.readable = true

/-- k(a) holds the status and, where it is 0, the next registers the results; the machine has changed as the service says, and no
other register or mode field of the wave, and no other wave, but that one that watches a line of a region whose world changes is woken
or aborted. -/
abbrev ServicePost (x : Option Ex) (a : R7) (ans : Answer) (c : Change) (s s' : State) (w w' : Wave) (t : Team) : Prop :=
  let n := if ans.1 = 0 then ans.2.length else 0
  (w'.k.getD (a.toNat - 88) 0).toNat = ans.1 ∧
  (∀ j ∈ List.range n, (w'.k.getD (a.toNat - 87 + j) 0).toNat = ans.2.getD j 0 % 2 ^ 32) ∧
  (∀ i, i < a.toNat - 88 ∨ a.toNat - 88 + n < i → w'.k.getD i 0 = w.k.getD i 0) ∧
  WaveFrame s w w' ∧ w'.v = w.v ∧ w'.x = w.x ∧ w'.preds = w.preds ∧ GroupAt w w' (fun _ => nextPc w x) ∧ s'.wave? w.ref = some w' ∧
  s'.waves.map (if c.touches then watcher w.ref else otherWave w.ref) =
    s.waves.map (if c.touches then watcher w.ref else otherWave w.ref) ∧
  c.Made s s' t


/-! ### Taking a trap (R329 to R336, R338) -/

/-- Bytes of memory from a key on. -/
def globBytes (k n : Nat) : List Loc := (List.range n).map (fun j => .glob (k + j))

/-- Whether the live stash windows of every team lie at its own node (R171). -/
def homeWindows (s : State) : Bool :=
  s.teams.all (fun t => t.windows.all (fun q => match q with
    | none => true
    | some v => gNode v.base.toNat == 255 || gNode v.base.toNat == t.node))

/-- A trap: cause, DETAIL, group, address, resume point, EXEC and FALLBACK when it is taken, the cause with which it aborts a
transaction, each lane's faulting address or, of an axis cause, index, and the unfinished instructions that it withdraws. -/
structure Trap331 where
  cause : Nat
  detail : Nat
  group : Mask
  pc : Nat
  resume : Nat
  exec : Mask
  fallback : Bool
  abort : Nat := 9
  addr : Nat → Nat := fun _ => 0
  entries : List Pend
  indexed : Bool := cause == 8 || cause == 9

/-- TRAPCAUSE (R28). -/
def Trap331.word (p : Trap331) : Nat := p.cause + 256 * p.detail

/-- The words of a frame (R335): everything before the replay area. FADDR holds no address for axis causes, whose index LDET gives. -/
def Trap331.header (p : Trap331) (s : State) (w : Wave) : List Nat :=
  let faddr := if p.indexed then 0 else p.addr ((maskLanes p.group).headD 0)
  [(w.k.getD 22 0).toNat, (w.k.getD 23 0).toNat, p.word, p.pc, p.resume, p.group.toNat, p.exec.toNat,
    (if p.fallback then 1 else 0) + (if w.tx.isSome then 2 else 0), faddr % 2 ^ 32, faddr / 2 ^ 32 % 2 ^ 32, 2 ^ p.entries.length - 1,
    2 ^ 12 * (if w.tx.isSome then p.abort else w.txCause), s.time % 2 ^ 32, s.time / 2 ^ 32 % 2 ^ 32, 0, 0] ++
  lanes.map (fun lane => if p.group.getLsbD lane then p.addr lane % 2 ^ 32 else 0) ++ List.replicate 80 0

/-- The bytes of a frame (R335), its replay area as R336 lays the entries out. -/
def Trap331.frame (p : Trap331) (s : State) (w : Wave) : List Byte :=
  (p.header s w).flatMap (toBytes 4) ++
  (List.range 16).flatMap (fun e => ((p.entries[e]?).map (fun q => q.descriptor w.live)).getD (toBytes 32 0)) ++
  (List.range 16).flatMap (fun e =>
    ((p.entries[e]?).map (fun q => lanes.flatMap (fun lane => (q.laneOps lane).flatMap (fun v => toBytes 4 v.toNat)))).getD (toBytes 1024 0))

/-- Whether a group goes to the host (R332). -/
def host332 (l : Launch) (w : Wave) (cause : Nat) : Bool :=
  w.handler.isSome || l.kernel.hEntry.isNone || (l.region.modes.testBit 19 && cause == 0x0B) || (l.region.modes.testBit 21 && cause == 0x0E) ||
    (l.region.modes.testBit 16 && (cause == 8 || cause == 9))

/-- The wave's frame slot (R333). -/
def slot333 (l : Launch) (t : Team) (w : Wave) : Nat :=
  (l.kernel.hParam + 0x4400 * (10240 * t.die + 64 * t.core.getD 0 + 16 * w.part + w.slot)) % 2 ^ 64

/-- The key of the frame slot, if the wave may write it, at its own node or, as it is granted, at another (R32, R361). -/
def frame333 (s : State) (l : Launch) (t : Team) (w : Wave) : Option Nat :=
  match s.globalKey t.node t.die l.ccn t.segs t.world (slot333 l t w) 0x4400 .write with
  | .ok k => some k
  | .error _ => none

/-- The trap can be taken now: no update of the wave at another node is under way (R165); where it goes to the handler, the frame
slot exists. -/
abbrev Takeable (s : State) (w : Wave) (t : Team) (l : Launch) (cause : Nat) : Prop :=
  s.updating w.ref = false ∧ homeWindows s = true ∧
  (host332 l w cause = false → ∀ k ∈ frame333 s l t w, present (globBytes k 0x4400) = true)

/-- What is under way of a wave but its loads: those a withdrawn entry would issue again are dropped (R331). -/
def withoutLoads (s : State) (w : Wave) : State :=
  { s with packets := s.packets.filter (fun p => !(p.wave == some w.ref && (match p.op with
    | some (.load _ _ _ _) => true
    | _ => false))) }

/-- The wave after a trap but for its group: no transaction, the group's TRAPCAUSE and TRAPPC, the other items at `others`. -/
abbrev Trapped (p : Trap331) (code : Nat) (w w' w0 : Wave) (there others : Nat → Nat) : Prop :=
  w' = { w0 with
    pcs := w'.pcs, trapCause := w'.trapCause, trapPc := w'.trapPc, tx := none, txCause := if w.tx.isSome then p.abort else w.txCause,
    keptBegin := if w.tx.isSome then none else w.keptBegin, pend := [], group := none, boosted := w'.boosted, readyAt := w'.readyAt,
    groupIssues := w'.groupIssues } ∧
  ∀ lane ∈ lanes, w'.pcOf lane = (if p.group.getLsbD lane then there lane else others lane) ∧
    w'.trapCause.getD lane 0 = (if p.group.getLsbD lane then BitVec.ofNat 32 code else w.trapCause.getD lane 0) ∧
    w'.trapPc.getD lane 0 = (if p.group.getLsbD lane then BitVec.ofNat 32 p.pc else w.trapPc.getD lane 0)

/-- The group starts in the handler, its frame written (R333 to R336). -/
abbrev InHandler (p : Trap331) (s s' : State) (w w' : Wave) (t : Team) (l : Launch) (others : Nat → Nat) : Prop :=
  let k := (frame333 s l t w).getD 0
  let slot := slot333 l t w
  s'.wave? w.ref = some w' ∧
  Trapped p p.word w w' { w with k := w'.k, handler := some ⟨BitVec.ofNat 64 slot, p.group, p.group, p.fallback⟩ }
    (fun _ => l.kernel.hEntry.getD 0) others ∧
  (∀ j, w'.k.getD j 0 = if j = 22 then BitVec.ofNat 32 slot else if j = 23 then BitVec.ofNat 32 (slot >>> 32) else w.k.getD j 0) ∧
  Stored (withoutLoads s w) s' w 0 (fun o => (globBytes k 0x4400).contains o)
    (Bytes.put s.peek (globBytes k 0x4400) (p.frame s w))

/-- A trap as the host sees it: in the handler, or where the frame slot may not be written, it is a handler fault (R333, R334). -/
def Trap331.forHost (p : Trap331) (l : Launch) (w : Wave) : Trap331 :=
  if w.handler.isSome || !host332 l w p.cause then { p with cause := 0x11, detail := 0 } else p

/-- The wave is descheduled: its frame stands in the save pool, and a KIND 1 record is published (R338, R339). -/
abbrev AtHost (p0 : Trap331) (s s' : State) (w w' : Wave) (t : Team) (l : Launch) (others : Nat → Nat) : Prop :=
  let p := p0.forHost l w
  let where339 := t.node + 2 ^ 8 * t.die + 2 ^ 10 * t.core.getD 0 + 2 ^ 18 * w.part + 2 ^ 20 * w.slot
  s'.wave? w.ref = some w' ∧ Trapped p p.word w w' { w with status := .descheduled s.nextNum } others others ∧
  s' = { withoutLoads s w with waves := s'.waves, saves := s'.saves, nodes := s'.nodes, nextNum := s.nextNum + 1 } ∧
  s'.waves.map (otherWave w.ref) = s.waves.map (otherWave w.ref) ∧
  (∃ f ∈ s'.saves.getLast?, ∃ g ∈ f.frame, g.1 = w.ref ∧ g.2.bytes w.live = p.frame s w ∧
    s'.saves = s.saves ++ [⟨s.nextNum, t.node, some g, none, [], [], []⟩]) ∧
  s'.nodes = s.nodes.map (fun d => if d.num = t.node then
    { d with records := d.records ++ [(l.region.fdom, ⟨1, p.word, l.region.rcb, s.nextNum, where339, p.group.toNat, 0, p.pc, 0, s.time⟩)] }
    else d)

/-- A trap is taken: in the handler, or at the host (R332). -/
abbrev TrapTaken (p : Trap331) (s s' : State) (w w' : Wave) (t : Team) (l : Launch) (others : Nat → Nat) : Prop :=
  if host332 l w p.cause = false ∧ (frame333 s l t w).isSome = true then InHandler p s s' w w' t l others
  else AtHost p s s' w w' t l others

/-- Whether the end of a transaction moves a lane: while a handler group runs, the wave's other items stay held (R334). -/
def moves334 (w : Wave) (lane : Nat) : Bool := w.handler.all (fun h => h.running.getLsbD lane)

/-- Where a transaction that a trap aborts puts an item; else where the item stood. -/
def aborted189 (w : Wave) (stood : Nat → Nat) (lane : Nat) : Nat :=
  match w.tx with
  | none => stood lane
  | some tx => if moves334 w lane then tx.abortPc else stood lane

/-- Where a trapped group resumes: at the abort target of a transaction that the trap aborts (R335). -/
def resume335 (w : Wave) (pc : Nat) : Nat := (w.tx.map (·.abortPc)).getD pc

/-- The unfinished instructions that a trap withdraws: those of an aborted transaction are discarded (R189, R193). -/
def withdrawn331 (w : Wave) : List Pend :=
  match w.tx with
  | none => w.pend
  | some tx => w.pend.filter (fun e => decide (e.key < tx.firstPend))

/-! ### Traps of items (R37, R163, R330, R331) -/

/-- The handler group of an instruction whose items trap as `bad` says: its cause, the lowest; the DETAIL of the lowest lane with that
cause; and the lanes with both. -/
def group331 (act : Mask) (bad : Nat → Option (Nat × Nat)) : Option (Nat × Nat × Mask) :=
  let ts := (maskLanes act).filterMap bad
  match ts.map Prod.fst with
  | [] => none
  | c :: cs =>
    let cause := cs.foldl min c
    let detail := ((ts.find? (fun b => b.1 == cause)).map Prod.snd).getD 0
    some (cause, detail, maskOf (fun lane => act.getLsbD lane && bad lane == some (cause, detail)))

/-- The acting lanes that do not trap. -/
def good37 (act : Mask) (bad : Nat → Option (Nat × Nat)) : Mask := maskOf (fun lane => act.getLsbD lane && (bad lane).isNone)

/-- The trap of such a group, taken when the wave stands as `w1` (R331, R335). -/
def itemTrap331 (g : Nat × Nat × Mask) (addr : Nat → Nat) (w w1 : Wave) : Trap331 :=
  { cause := g.1, detail := g.2.1, group := g.2.2, pc := w.groupPc, resume := resume335 w1 w.groupPc, exec := w.exec,
    fallback := w.fallback, addr := addr, entries := withdrawn331 w1 }

/-- Some item traps, and the trap of their group can be taken. -/
abbrev ItemsTrap (act : Mask) (bad : Nat → Option (Nat × Nat)) (s : State) (w : Wave) (t : Team) (l : Launch) : Prop :=
  w.tx = none ∧ (gNode (slot333 l t w) = 255 ∨ gNode (slot333 l t w) = t.node) ∧
  (∃ lane ∈ maskLanes act, (bad lane).isSome = true) ∧ ∀ g ∈ group331 act bad, Takeable s w t l g.1

/-- The wave when the group of its instruction's trap forms: the issuing group's other items stand at the next instruction, those that
trap where they stood (R37, R331). -/
abbrev StoppedAt (s : State) (x : Option Ex) (w w1 : Wave) (bad : Nat → Option (Nat × Nat)) : Prop :=
  w1 = { w with v := w1.v, x := w1.x, k := w1.k, preds := w1.preds, pcs := w1.pcs, boosted := false, group := w1.group,
                readyAt := s.time, groupIssues := w1.groupIssues } ∧
  ∀ lane ∈ lanes, w1.pcOf lane =
    if w.exec.getLsbD lane && !((w.active x).getLsbD lane && (bad lane).isSome) then nextPc w x else w.pcOf lane

/-- The group has trapped from the state `s1` that the other items' effects have left, the wave there being `w1`. -/
abbrev GroupTrapped (act : Mask) (bad : Nat → Option (Nat × Nat)) (addr : Nat → Nat) (s1 s' : State) (w w1 w' : Wave) (t : Team)
    (l : Launch) : Prop :=
  ∀ g ∈ group331 act bad, TrapTaken (itemTrap331 g addr w w1) s1 s' w1 w' t l w1.pcOf

/-- A trap that every acting item raises, with no effect of the instruction. -/
def allTrap331 (w : Wave) (act : Mask) (cause detail : Nat) (addr : Nat → Nat) : Trap331 :=
  { cause := cause, detail := detail, group := act, pc := w.groupPc, resume := resume335 w w.groupPc, exec := w.exec,
    fallback := w.fallback, addr := addr, entries := withdrawn331 w }

/-! ### Traps at the operands (R13, R15, R111, R340, R373) -/

/-- Whether some of `n` registers of a field bears a poison or a world-violation mark in a lane. -/
def marked (w : Wave) (n c lane : Nat) : Bool × Bool :=
  let rs : List Reg := (List.range n).map (fun j => if isV (c + j) then w.v.getD (w.wb + c + j) {} else if isX (c + j) then w.x.getD (c + j - 112) {} else {})
  (rs.any (fun r => r.poison.getLsbD lane), rs.any (fun r => r.world.getLsbD lane))

/-- The DETAIL of a register-array operand of `n` registers in a lane whose index is out of bounds or, of a pair, odd. -/
def index15 (s : State) (x : Option Ex) (word : Word) (w : Wave) (f : Field) (n lane : Nat) : Option Nat :=
  let i : Int := (BitVec.ofNat 32 ((w.x.getD (exXi x) {}).form.at (s.geo w).index lane)).toInt + (f.of word : Int)
  if i < (w.bndLo : Int) ∨ (w.bndHi : Int) ≤ i ∨ (w.quota : Int) ≤ (w.wb : Int) + i then some 2
  else if n = 2 ∧ i % 2 = 1 then some 3
  else if n = 2 ∧ (w.quota : Int) ≤ (w.wb : Int) + i + 1 then some 2 else none

/-- The trap of an item of a rule's instruction at its operands: the register index first, then a world-violation mark, then poison. -/
def LaneRule.bad (r : LaneRule) (s : State) (word : Word) (w : Wave) (lane : Nat) : Option (Nat × Nat) :=
  let fields : List (Field × Nat) := (.d, r.n) :: r.srcs.map (fun f => (f.1, f.2.1))
  let array := (fields.filter (fun f => exXo r.x != 0 && exXo r.x == f.1.xo)).filterMap (fun f => index15 s r.x word w f.1 f.2 lane)
  let read := r.srcs.filter (fun f => !(f.1 == .b && exMode1 r.x))
  let mark (p : Bool × Bool → Bool) : Bool := read.any (fun f => p (marked w f.2.1 (fieldAt s r.x word w f.1 lane) lane))
  match array with
  | d :: _ => some (3, d)
  | [] => if mark Prod.snd then some (7, 1) else if mark Prod.fst then some (0x0B, 0) else none

/-- The instruction of a rule issues, some item of it traps at its operands, and every operand lies in the window. -/
abbrev LaneRule.TrapPre (r : LaneRule) (i : Instr) (s : State) (w : Wave) (t : Team) (l : Launch) : Prop :=
  i.wf = true ∧ Issues s r.x (wordOf i) w t l ∧ windowOk (wordInfo r.x (wordOf i)) r.x (wordOf i) w.view = true ∧ w.bndHi ≤ 88 ∧
  (∀ e ∈ w.pend, e.key < s.nextNum) ∧ (isK (wordOf i).d7 = true → ∀ f ∈ r.srcs, uniform s r.x (wordOf i) w f.1 f.2.1 = true) ∧
  ItemsTrap (w.active r.x) (r.bad s (wordOf i) w) s w t l

/-- The other items hold their results, and those that trap take it. -/
abbrev LaneRule.TrapPost (r : LaneRule) (i : Instr) (s s1 s' : State) (w w1 w' : Wave) (t : Team) (l : Launch) : Prop :=
  let bad := r.bad s (wordOf i) w
  OnlyWave s s1 w w1 ∧ StoppedAt s r.x w w1 bad ∧ w1.preds = w.preds ∧
  LanesHold s w w1 (good37 (w.active r.x) bad) r.n (dest s r.x (wordOf i) w) (fun lane => r.f (r.args s (wordOf i) w lane)) ∧
  GroupTrapped (w.active r.x) bad (fun _ => 0) s1 s' w w1 w' t l

/-- Items of a rule's instruction that trap at their operands take the trap of R331, and the others complete (R37). -/
def LaneRule.Traps (r : LaneRule) (i : Instr) : Prop := ∀ s w t l, r.TrapPre i s w t l →
  ∃ s1 w1 s' w', exec i s = .next s' ∧ r.TrapPost i s s1 s' w w1 w' t l

/-- An operand of a rule's instruction lies outside the window or the quota: every acting item raises the register-index trap with DETAIL
1, and nothing else changes (R13). -/
def LaneRule.Overflows (r : LaneRule) (i : Instr) : Prop := ∀ s w t l, i.wf = true → Issues s r.x (wordOf i) w t l → w.active r.x ≠ 0 →
  (isK (wordOf i).d7 = true → ∀ f ∈ r.srcs, uniform s r.x (wordOf i) w f.1 f.2.1 = true) →
  (∃ f ∈ (Field.d, r.n) :: r.srcs.map (fun f => (f.1, f.2.1)), !(exXo r.x != 0 && exXo r.x == f.1.xo) = true ∧ !(f.1 == .b && exMode1 r.x) = true ∧
    isV (f.1.of (wordOf i)) = true ∧ w.quota < w.wb + f.1.of (wordOf i) + f.2) →
  Takeable s w t l 3 → ∃ s' w', exec i s = .next s' ∧
    TrapTaken (allTrap331 w (w.active r.x) 3 1 (fun _ => 0)) s s' w w' t l (aborted189 w w.pcOf)

/-! ### Loads and stores (R160 to R169, R340) -/

/-- Bytes of an access type (R162). -/
def bytes162 (ty : Nat) : Nat := [4, 4, 8, 8, 2, 2, 1, 1, 4, 2, 2, 1, 1].getD ty 0

/-- A loaded value as a register value (R109, R162). -/
def loaded (ty n : Nat) : Nat := if ty < 8 then fitted (IntTy.ofCode ty) false (typed (IntTy.ofCode ty) n) else n

/-- The effective address of a lane (R161). -/
def addr161 (s : State) (x : Option Ex) (word : Word) (w : Wave) (sp : Space) (lane : Nat) : Nat :=
  let b := BitVec.ofNat 32 (operand s x word w .b 1 32 lane)
  if sp = .global then (BitVec.ofNat 64 (operand s x word w .a 2 64 lane) + b.signExtend 64).toNat
  else (BitVec.ofNat 32 (operand s x word w .a 1 32 lane) + b).toNat

/-- The locations that an access of `n` bytes at an address reaches at once: on this node, or where `once` says so at another that
grants it (log 14); none where it traps or leaves the node. -/
def locsAt (once : Bool) (s : State) (l : Launch) (t : Team) (sp : Space) (a : Access) (store : Bool) (n addr : Nat) : List Loc :=
  match s.land l t sp addr n a store with
  | .at_ ls => ls
  | .remote m ad => if once then (match s.reachKey t.node t.die l.ccn t.world m ad n a with
    | .ok k => globBytes k n
    | .error _ => []) else []
  | _ => []

/-- Whether an access is made at once without a trap: in accumulator memory in words, else in bytes that exist. -/
def landsAt (once : Bool) (s : State) (l : Launch) (t : Team) (sp : Space) (a : Access) (store : Bool) (n addr : Nat) : Bool :=
  match s.land l t sp addr n a store with
  | .at_ ls => present ls
  | .acm _ => decide (n ≠ 8 ∨ addr % 2 = 0)
  | .remote _ _ => once && locsAt once s l t sp a store n addr != [] && present (locsAt once s l t sp a store n addr)
  | _ => false

/-- The locations that an access reaches on this node. -/
def locs (s : State) (l : Launch) (t : Team) (sp : Space) (a : Access) (store : Bool) (n addr : Nat) : List Loc :=
  locsAt false s l t sp a store n addr

/-- Whether an access completes on this node without a trap. -/
def lands (s : State) (l : Launch) (t : Team) (sp : Space) (a : Access) (store : Bool) (n addr : Nat) : Bool :=
  landsAt false s l t sp a store n addr

/-- The node that an access goes to over the fabric (R359). -/
def leaves (s : State) (l : Launch) (t : Team) (sp : Space) (a : Access) (store : Bool) (n addr : Nat) : Option Nat :=
  match s.land l t sp addr n a store with
  | .remote m _ => some m
  | _ => none

/-- The segment checks of a global address at its own node, for reading, writing or both: not valid, rights, limit (R32, R294, R330). -/
def segment294 (t : Team) (a : Access) (n addr : Nat) : Option Nat :=
  let g := t.segs.segs.getD (gSeg addr) ⟨false, false, false, false, 0, 0⟩
  let c := match a with
    | .read => 0
    | .write => 4
    | .rmw => 8
    | .fetch => 12
  let may := match a with
    | .read => g.rd
    | .write => g.w
    | .rmw => g.rd && g.w
    | .fetch => g.x
  if g.v = false then some (2 + c) else if may = false then some (1 + c) else if g.limit < gOff addr + n then some c else none

/-- The trap of an item's access of `n` bytes in a space, if its checks fail (R33, R34, R161, R163, R169, R172, R373): scratch bounds, the
checks of window bytes, the sync region, accumulator bounds and alignment, the segment, the world. -/
def trap163 (s : State) (l : Launch) (t : Team) (sp : Space) (a : Access) (store : Bool) (n addr : Nat) : Option (Nat × Nat) :=
  let scratch (u : Team) (o detail : Nat) : Option (Nat × Nat) :=
    if l.kernel.scr + l.kernel.sync < o + n then some (4, detail)
    else match s.windowFault u o n with
      | some e => some (e.1, e.2.1)
      | none => if store = true ∧ l.kernel.scr < o + n then some (5, 0) else none
  match sp with
  | .scratch => scratch t addr 0
  | .cluster => match s.clusterTeam t addr with
    | none => some (4, 2)
    | some u => scratch u (addr % 2 ^ 21) 2
  | .acm => if n = 8 ∧ addr % 2 = 1 then some (2, 8) else if l.kernel.acm < addr + n / 4 then some (4, 1) else none
  | .global =>
    if gNode addr ≠ 255 ∧ gNode addr ≠ t.node then none
    else match segment294 t a n addr with
      | some d => some (6, d)
      | none =>
        let base := (t.segs.segs.getD (gSeg addr) ⟨false, false, false, false, 0, 0⟩).base
        if t.world = false ∧ s.secureAt (physKey t.node (base + gOff addr)) n = true then some (7, 0) else none

/-- The notices of failed world checks of a wave's items, one for each DETAIL of the list (R374). -/
def noticed374 (s : State) (t : Team) (w : Wave) (l : Launch) (ds : List Nat) : State :=
  let place := t.node + 2 ^ 8 * t.die + 2 ^ 10 * t.core.getD 0 + 2 ^ 18 * w.part + 2 ^ 20 * w.slot
  { s with nodes := s.nodes.map (fun d => if d.num = t.node then
      (match (s.node? t.node).bind (·.sfdom) with
        | none => { d with counters := modAt d.counters 4 (· + ds.length) }
        | some f => { d with records := d.records ++ ds.map (fun e => (f, ⟨8, 7 + 256 * e, l.region.rcb, 0, place, 0, 0, 0, 0, s.time⟩)) })
    else d) }

/-- The DETAILs of the items' failed world checks, or of one access that they share. -/
def worlds374 (act : Mask) (shared : Bool) (bad : Nat → Option (Nat × Nat)) : List Nat :=
  let ds := (((maskLanes act).filterMap bad).filter (fun b => b.1 == 7)).map Prod.snd
  if shared then ds.take 1 else ds

/-- A request that a wave's item sends at issue (R357 to R359). -/
def request358 (s : State) (t : Team) (l : Launch) (w : Wave) (num node addr pend : Nat) (op : RemoteOp) : Packet :=
  { num := num, stream := ⟨.request, t.node, t.die, node⟩, addr := BitVec.ofNat 64 addr, ccn := l.ccn, world := t.world, time := s.time,
    wave := some w.ref, pend := pend, op := some op, tokens := [], rcb := l.region.rcb, fdom := l.region.fdom }

/-- The requests of some lanes, in ascending lane order, numbered behind the instruction itself. -/
def requests358 (s : State) (t : Team) (l : Launch) (w : Wave) (on : List Nat) (node addr pend : Nat → Nat) (op : Nat → RemoteOp) :
    List Packet :=
  on.zipIdx.map (fun p => request358 s t l w (s.nextNum + 1 + p.2) (node p.1) (addr p.1) (pend p.1) (op p.1))

/-! ### Inside a transaction (R184 to R189) -/

/-- The bytes that an open transaction shows its own wave: the latest of its writes to each location, else memory (R186). -/
def committed (tx : Tx) (m : Bytes) : Bytes := fun o => ((tx.overlay.find? (fun p => p.1 == o)).map Prod.snd).getD (m o)

/-- The 128-byte line of a byte. -/
def line185 : Loc → Loc
  | .glob a => .glob (a - a % 128)
  | .scr t o => .scr t (o - o % 128)

/-- The lines, not yet in a set, that accesses of some bytes add to it, in their order. -/
def new185 (set : List Loc) (ls : List Loc) : List Loc := ((ls.map line185).eraseDups).filter (fun o => !set.contains o)

/-- Whether a set of `n` lines is admitted beside those of the core's other waves: up to `own` for every wave, up to `cap` for one wave
from the core's pool. -/
def admits185 (own cap pool n : Nat) (others : List Nat) : Bool :=
  decide (n ≤ own) || (decide (n ≤ cap) && decide ((others.map (fun k => k - own)).sum + (n - own) ≤ pool))

/-- The sizes of the line sets of the core's other waves. -/
def sizes185 (s : State) (w : Wave) (write : Bool) : List Nat :=
  let place (v : Wave) : Option (Nat × Nat × Option Nat) := (s.team? v.ref.team).map (fun t => (t.node, t.die, t.core))
  (s.waves.filter (fun v => v.ref != w.ref && (place v).isSome && place v == place w)).map (fun v =>
    ((v.tx.map (fun u => (if write then u.wlines else u.rlines).length))).getD 0)

/-- Whether another wave's open transaction conflicts with an access to some new lines (R188). -/
def hits188 (w : Wave) (write : Bool) (new : List Loc) (v : Wave) : Bool :=
  v.ref != w.ref && v.tx.any (fun u => new.any (fun o => u.wlines.contains o || (write && u.rlines.contains o)))

/-- The age of a transaction (R184): when it began, then its place. -/
def age184 (s : State) (v : Wave) : List Nat :=
  let b := (v.tx.map (·.begun)).getD 0
  match s.team? v.ref.team with
  | none => [b]
  | some m => [b, m.node, m.die, physCore (s.disabledOf m.node m.die) (m.core.getD 0), v.part, v.slot]

/-- Whether an older transaction conflicts: then the access aborts its own (R188). -/
def elder188 (s : State) (w : Wave) (write : Bool) (new : List Loc) : Bool :=
  s.waves.any (fun v => hits188 w write new v && decide (age184 s v < age184 s w))

/-- A wave whose transaction another one's access has aborted with cause CONFLICT (R188, R189). -/
def conflict189 (v : Wave) : Wave :=
  match v.tx with
  | none => v
  | some u => { v with
      tx := none, txCause := 1, keptBegin := some u.begun, pend := v.pend.filter (fun e => decide (e.key < u.firstPend))
      pcs := lanes.map (fun lane => if moves334 v lane then u.abortPc else v.pcOf lane) }

/-- The access is made: every other transaction that conflicts has aborted, and of the other waves nothing else has changed. -/
abbrev Conflicts (s s1 : State) (w : Wave) (write : Bool) (new : List Loc) : Prop :=
  s1.waves.map (otherWave w.ref) = s.waves.map (fun v => otherWave w.ref (if hits188 w write new v then conflict189 v else v))

/-- The instruction's own transaction has aborted with a cause, and nothing else has changed (R185, R188, R189). -/
abbrev SelfAborted (s s' : State) (w w' : Wave) (tx : Tx) (cause : Nat) : Prop :=
  s' = { s with waves := s'.waves, nextNum := s.nextNum + 1 } ∧ s'.wave? w.ref = some w' ∧
  s'.waves.map (otherWave w.ref) = s.waves.map (otherWave w.ref) ∧ (∀ a, s'.mem.read a = s.mem.read a) ∧
  w' = { w with
    pcs := w'.pcs, pend := w'.pend, tx := none, txCause := cause, keptBegin := if cause = 1 then some tx.begun else none
    boosted := false, group := w'.group, readyAt := s.time, groupIssues := w'.groupIssues } ∧
  w'.pend = (w.pend.filter (fun e => decide (e.key < tx.firstPend))).map (fun e => if e.key < s.nextNum then counted w.exec e else e) ∧
  ∀ lane ∈ lanes, w'.pcOf lane = if moves334 w lane then tx.abortPc else w.pcOf lane

/-- Whether a set may grow by some new lines (R185). -/
def admitted185 (s : State) (w : Wave) (tx : Tx) (write : Bool) (new : List Loc) : Bool :=
  new == [] || (if write then admits185 16 32 128 (tx.wlines.length + new.length) (sizes185 s w true)
    else admits185 32 64 256 (tx.rlines.length + new.length) (sizes185 s w false))

/-- The accumulator bytes of a team. -/
def acmByte (s : State) (t : TeamRef) (o : Nat) : Byte := ((s.team? t).map (fun m => m.acm.read o)).getD 0

/-- The space of a load (R166, R168, R169). -/
def loadSpace : Instr → Option (Option Ex × Space)
  | .ldg x _ _ _ _ => some (x, .global)
  | .ldu x _ _ _ _ => some (x, .global)
  | .lds x _ _ _ _ => some (x, .scratch)
  | .ldc x _ _ _ _ => some (x, .cluster)
  | .lda x _ _ _ _ => some (x, .acm)
  | _ => none

/-- Whether a lane's access meets poison (R340). -/
def poisoned (s : State) (ls : List Loc) : Bool := ls.any (fun o => match o with
  | .glob a => s.poison.contains a
  | .scr _ _ => false)

/-- Whether a load of another node is made at once: LDU to a uniform register (log 14). -/
def once166 (word : Word) : Bool := word.maj == 0x60 && isK word.d7

/-- The address sources of a load are uniform: the wave makes one access (R162). -/
def shared162 (s : State) (x : Option Ex) (word : Word) (w : Wave) (sp : Space) : Bool :=
  uniform s x word w .a (if sp = .global then 2 else 1) && uniform s x word w .b 1

/-- A load issues, and LDU has a uniform address (R168). -/
abbrev LoadStart (x : Option Ex) (sp : Space) (i : Instr) (s : State) (w : Wave) (t : Team) (l : Launch) : Prop :=
  i.wf = true ∧ Issues s x (wordOf i) w t l ∧ Clean s x (wordOf i) w ∧ Completes s w t ∧
  ((wordOf i).maj = 0x60 → shared162 s x (wordOf i) w sp = true)

/-- A load issues outside a transaction, every lane's access is made at once, and for a k-register LDU meets no poison (R168). -/
abbrev LoadPre (x : Option Ex) (sp : Space) (i : Instr) (s : State) (w : Wave) (t : Team) (l : Launch) : Prop :=
  let n := bytes162 (exTy x)
  let once := once166 (wordOf i)
  LoadStart x sp i s w t l ∧ w.tx = none ∧
  ∀ lane ∈ maskLanes (w.active x), landsAt once s l t sp .read false n (addr161 s x (wordOf i) w sp lane) = true ∧
    (once = true → poisoned s (locsAt once s l t sp .read false n (addr161 s x (wordOf i) w sp lane)) = false)

/-- After issue and completion each acting lane holds what its bytes held, poisoned where one of them was. -/
abbrev LoadPost (x : Option Ex) (sp : Space) (i : Instr) (s s1 s2 : State) (w w1 w2 : Wave) (t : Team) (l : Launch) : Prop :=
  let n := bytes162 (exTy x)
  let a (lane : Nat) : Nat := addr161 s x (wordOf i) w sp lane
  let ls (lane : Nat) : List Loc := locsAt (once166 (wordOf i)) s l t sp .read false n (a lane)
  LxIssued s s1 x (wordOf i) w w1 w.ord ∧ LxDone s1 s2 w w1 w2 ∧
  LanesHoldMarked s w w2 (w.active x) (if n = 8 then 2 else 1) (dest s x (wordOf i) w)
    (fun lane => loaded (exTy x) (if sp = .acm then ofBytes ((List.range n).map (fun j => acmByte s t.ref (4 * a lane + j)))
      else Bytes.num s.peek (ls lane)))
    (fun lane => (poisoned s (ls lane), false))

/-- Some lane's access of a load leaves the node, and every other one completes on it. -/
abbrev AwayPre (s : State) (w : Wave) (t : Team) (l : Launch) (act : Mask) (a : Access) (n : Nat) (addr : Nat → Nat) : Prop :=
  w.tx = none ∧ (∃ lane ∈ maskLanes act, (leaves s l t .global a (a == .write) n (addr lane)).isSome = true) ∧
  ∀ lane ∈ maskLanes act, (leaves s l t .global a (a == .write) n (addr lane)).isSome || lands s l t .global a (a == .write) n (addr lane)

/-- The lanes whose accesses go over the fabric. -/
def away359 (s : State) (l : Launch) (t : Team) (act : Mask) (a : Access) (n : Nat) (addr : Nat → Nat) : List Nat :=
  (maskLanes act).filter (fun lane => (leaves s l t .global a (a == .write) n (addr lane)).isSome)

/-- The node that a lane's access goes to. -/
def node359 (s : State) (l : Launch) (t : Team) (a : Access) (n : Nat) (addr : Nat → Nat) (lane : Nat) : Nat :=
  (leaves s l t .global a (a == .write) n (addr lane)).getD 0

/-- A request for each lane whose access leaves the node stands in its stream, one for the wave where the lanes share their access; the
entry waits for as many answers, and holds what the other lanes have read (R69, R162, R357, R359). -/
abbrev LoadSent (x : Option Ex) (i : Instr) (s s1 : State) (w w1 : Wave) (t : Team) (l : Launch) (shared : Bool) (addr : Nat → Nat) : Prop :=
  let n := bytes162 (exTy x)
  let d := (wordOf i).d7
  let on := away359 s l t (w.active x) .read n addr
  let reqs := requests358 s t l w (if shared then on.take 1 else on) (node359 s l t .read n addr) addr (fun _ => s.nextNum)
    (fun lane => .load (if shared then 32 else lane) d n (exTy x))
  let ls (lane : Nat) : List Loc := locs s l t .global .read false n (addr lane)
  s1 = { s with waves := s1.waves, packets := s.packets ++ reqs, nextNum := s.nextNum + 1 + reqs.length } ∧
  s1.wave? w.ref = some w1 ∧ s1.waves.map (otherWave w.ref) = s.waves.map (otherWave w.ref) ∧ (∀ a, s1.mem.read a = s.mem.read a) ∧
  LxWaveFrom s x (wordOf i) w w w1 w.ord reqs.length ∧
  ∀ e ∈ w1.pend.drop w.pend.length, e.performed = false ∧ (d ≠ 116 → ∀ lane ∈ maskLanes (w.active x), on.contains lane = false →
    ∀ j, j < (if n = 8 then 2 else 1) → (e.writes.getD j (0, {})).1 = d + j ∧
      (e.writes.getD j (0, {})).2.form.at (s.geo w).index lane = loaded (exTy x) (Bytes.num s.peek (ls lane)) / 2 ^ (32 * j) % 2 ^ 32 ∧
      (e.writes.getD j (0, {})).2.poison.getLsbD lane = poisoned s (ls lane))

/-- A load issues in an open transaction, and every lane's access is made at once. -/
abbrev TxLoadPre (x : Option Ex) (sp : Space) (i : Instr) (s : State) (w : Wave) (t : Team) (l : Launch) (tx : Tx) : Prop :=
  let n := bytes162 (exTy x)
  LoadStart x sp i s w t l ∧ w.tx = some tx ∧
  ∀ lane ∈ maskLanes (w.active x), landsAt true s l t sp .read false n (addr161 s x (wordOf i) w sp lane) = true ∧
    (once166 (wordOf i) = true → poisoned s ((locsAt true s l t sp .read false n (addr161 s x (wordOf i) w sp lane)).filter
      (fun o => !(tx.overlay.map Prod.fst).contains o)) = false)

/-- The lines that a transactional access adds to a set of its transaction. -/
def lines185 (x : Option Ex) (sp : Space) (i : Instr) (s : State) (w : Wave) (t : Team) (l : Launch) (tx : Tx) (write : Bool) : List Loc :=
  new185 (if write then tx.wlines else tx.rlines) ((maskLanes (w.active x)).flatMap (fun lane =>
    locsAt true s l t sp (if write then .write else .read) write (bytes162 (exTy x)) (addr161 s x (wordOf i) w sp lane)))

/-- The lines have joined the read set, and each acting lane holds what its transaction shows of its bytes. -/
abbrev TxLoadPost (x : Option Ex) (sp : Space) (i : Instr) (s s1 s2 : State) (w w1 w2 : Wave) (t : Team) (l : Launch) (tx : Tx) : Prop :=
  let n := bytes162 (exTy x)
  let new := lines185 x sp i s w t l tx false
  let ls (lane : Nat) : List Loc := locsAt true s l t sp .read false n (addr161 s x (wordOf i) w sp lane)
  s1 = { s with waves := s1.waves, nextNum := s.nextNum + 1 } ∧ s1.wave? w.ref = some w1 ∧ Conflicts s s1 w false new ∧
  (∀ a, s1.mem.read a = s.mem.read a) ∧
  LxWaveFrom s x (wordOf i) w { w with tx := some { tx with rlines := new.reverse ++ tx.rlines } } w1 w.ord 0 ∧ LxDone s1 s2 w w1 w2 ∧
  LanesHoldMarked s w w2 (w.active x) (if n = 8 then 2 else 1) (dest s x (wordOf i) w)
    (fun lane => loaded (exTy x) (Bytes.num (committed tx s.peek) (ls lane)))
    (fun lane => (poisoned s ((ls lane).filter (fun o => !(tx.overlay.map Prod.fst).contains o)), false))

/-- Some item of an access traps, and every other one completes on this node. -/
abbrev AccessTraps (s : State) (w : Wave) (t : Team) (l : Launch) (act : Mask) (sp : Space) (a : Access) (store : Bool) (n : Nat)
    (addr : Nat → Nat) : Prop :=
  ItemsTrap act (fun lane => trap163 s l t sp a store n (addr lane)) s w t l ∧
  (∀ lane ∈ maskLanes act, (trap163 s l t sp a store n (addr lane)).isNone = true → lands s l t sp a store n (addr lane) = true) ∧
  ∀ lane ∈ maskLanes act, ∀ b ∈ trap163 s l t sp a store n (addr lane), b.1 ≠ 0

/-- The lanes of a load that do not trap hold what their bytes held; the others' group takes its trap. -/
abbrev LoadTrapped (x : Option Ex) (sp : Space) (i : Instr) (s s1 s' : State) (w w1 w' : Wave) (t : Team) (l : Launch) : Prop :=
  let n := bytes162 (exTy x)
  let addr (lane : Nat) : Nat := addr161 s x (wordOf i) w sp lane
  let bad (lane : Nat) : Option (Nat × Nat) := trap163 s l t sp .read false n (addr lane)
  let ls (lane : Nat) : List Loc := locs s l t sp .read false n (addr lane)
  s1 = { noticed374 s t w l (worlds374 (w.active x) (shared162 s x (wordOf i) w sp) bad) with waves := s1.waves, nextNum := s.nextNum + 1 } ∧
  s1.wave? w.ref = some w1 ∧ s1.waves.map (otherWave w.ref) = s.waves.map (otherWave w.ref) ∧ (∀ a, s1.mem.read a = s.mem.read a) ∧
  StoppedAt s x w w1 bad ∧ w1.preds = w.preds ∧
  LanesHoldMarked s w w1 (good37 (w.active x) bad) (if n = 8 then 2 else 1) (dest s x (wordOf i) w)
    (fun lane => loaded (exTy x) (if sp = .acm then ofBytes ((List.range n).map (fun j => acmByte s t.ref (4 * addr lane + j)))
      else Bytes.num s.peek (ls lane)))
    (fun lane => (poisoned s (ls lane), false)) ∧
  GroupTrapped (w.active x) bad addr s1 s' w w1 w' t l

/-- The space of a store (R166, R169). -/
def storeSpace : Instr → Option (Option Ex × Space)
  | .stg x _ _ _ _ => some (x, .global)
  | .sts x _ _ _ _ => some (x, .scratch)
  | .stc x _ _ _ _ => some (x, .cluster)
  | .sta x _ _ _ _ => some (x, .acm)
  | _ => none

/-- A store issues. -/
abbrev StoreStart (x : Option Ex) (i : Instr) (s : State) (w : Wave) (t : Team) (l : Launch) : Prop :=
  i.wf = true ∧ Issues s x (wordOf i) w t l ∧ Clean s x (wordOf i) w ∧ (∀ e ∈ w.pend, e.key < s.nextNum) ∧ homeWindows s = true

/-- A store issues outside a transaction, and every lane's access completes on this node or leaves it. -/
abbrev StorePre (x : Option Ex) (sp : Space) (i : Instr) (s : State) (w : Wave) (t : Team) (l : Launch) : Prop :=
  let n := bytes162 (exTy x)
  StoreStart x i s w t l ∧ w.tx = none ∧ ∀ lane ∈ maskLanes (w.active x),
    (leaves s l t sp .write true n (addr161 s x (wordOf i) w sp lane)).isSome || lands s l t sp .write true n (addr161 s x (wordOf i) w sp lane)

/-- The data of a lane of a store. -/
def data166 (s : State) (x : Option Ex) (word : Word) (w : Wave) (lane : Nat) : List Byte :=
  toBytes (bytes162 (exTy x)) (operand s x word w .d (if bytes162 (exTy x) = 8 then 2 else 1) 64 lane)

/-- The bytes that stores of some lanes leave, in ascending lane order. -/
def stores166 (on : List Nat) (ls : Nat → List Loc) (data : Nat → List Byte) (m : Bytes) : Bytes :=
  on.foldl (fun (m : Bytes) lane => m.put (ls lane) (data lane)) m

/-- The accumulator bytes that stores of some lanes leave. -/
def storesAcm (on : List Nat) (n : Nat) (addr : Nat → Nat) (data : Nat → List Byte) (b : Nat) (v : Byte) : Byte :=
  on.foldl (fun v lane => if 4 * addr lane ≤ b ∧ b < 4 * addr lane + n then (data lane).getD (b - 4 * addr lane) 0 else v) v

/-- Accumulator bytes of the team are as `f` says, `k` numbers have been drawn, and nothing else but the wave has changed. -/
abbrev StoredAcm (s s' : State) (w : Wave) (t : Team) (k : Nat) (f : Nat → Byte) : Prop :=
  s' = { s with waves := s'.waves, teams := s'.teams, nextNum := s.nextNum + k } ∧
  s'.teams.map (fun m => if m.ref = t.ref then { m with acm := [] } else m) =
    s.teams.map (fun m => if m.ref = t.ref then { m with acm := [] } else m) ∧
  s'.waves.map (otherWave w.ref) = s.waves.map (otherWave w.ref) ∧ ∀ b, acmByte s' t.ref b = f b

/-- The low bytes of each acting lane's data stand at its address, of lanes that overlap the highest wins, and a request for each lane
whose access leaves the node stands in its stream (R357, R359). -/
abbrev Stores (x : Option Ex) (i : Instr) (s s' : State) (w w' : Wave) (t : Team) (l : Launch) (addr : Nat → Nat) : Prop :=
  let n := bytes162 (exTy x)
  let ls (lane : Nat) : List Loc := locs s l t .global .write true n (addr lane)
  let data (lane : Nat) : List Byte := data166 s x (wordOf i) w lane
  let on := away359 s l t (w.active x) .write n addr
  let here := (maskLanes (w.active x)).filter (fun lane => !on.contains lane)
  let reqs := requests358 s t l w on (node359 s l t .write n addr) addr id (fun lane => .store (data lane) w.groupPc)
  s'.wave? w.ref = some w' ∧ LxWave s x (wordOf i) w w' w.ord ∧ w'.pend = w.pend.map (counted w.exec) ∧
  Stored { s with packets := s.packets ++ reqs } s' w (1 + reqs.length) (fun o => here.any (fun lane => (ls lane).contains o))
    (stores166 here ls data s.peek)

/-- The data of every acting lane stands at its address. -/
abbrev StorePost (x : Option Ex) (sp : Space) (i : Instr) (s s' : State) (w w' : Wave) (t : Team) (l : Launch) : Prop :=
  let n := bytes162 (exTy x)
  let a (lane : Nat) : Nat := addr161 s x (wordOf i) w sp lane
  let ls (lane : Nat) : List Loc := locs s l t sp .write true n (a lane)
  let data (lane : Nat) : List Byte := data166 s x (wordOf i) w lane
  if sp = .global then Stores x i s s' w w' t l a
  else
    s'.wave? w.ref = some w' ∧ LxWave s x (wordOf i) w w' w.ord ∧ w'.pend = w.pend.map (counted w.exec) ∧
    if sp = .acm then StoredAcm s s' w t 1 (fun b => storesAcm (maskLanes (w.active x)) n a data b (acmByte s t.ref b))
    else
      Stored s s' w 1 (fun o => (maskLanes (w.active x)).any (fun lane => (ls lane).contains o))
        (stores166 (maskLanes (w.active x)) ls data s.peek)

/-- A store issues in an open transaction, and every lane's access is made at once. -/
abbrev TxStorePre (x : Option Ex) (sp : Space) (i : Instr) (s : State) (w : Wave) (t : Team) (l : Launch) (tx : Tx) : Prop :=
  StoreStart x i s w t l ∧ w.tx = some tx ∧
  ∀ lane ∈ maskLanes (w.active x), landsAt true s l t sp .write true (bytes162 (exTy x)) (addr161 s x (wordOf i) w sp lane) = true

/-- The lines have joined the write set; the transaction alone shows the data, and no byte of memory changes. -/
abbrev TxStorePost (x : Option Ex) (sp : Space) (i : Instr) (s s' : State) (w w' : Wave) (t : Team) (l : Launch) (tx tx' : Tx) : Prop :=
  let new := lines185 x sp i s w t l tx true
  let ls (lane : Nat) : List Loc := locsAt true s l t sp .write true (bytes162 (exTy x)) (addr161 s x (wordOf i) w sp lane)
  let on := maskLanes (w.active x)
  s' = { s with waves := s'.waves, nextNum := s.nextNum + 1 } ∧ s'.wave? w.ref = some w' ∧ Conflicts s s' w true new ∧
  (∀ a, s'.mem.read a = s.mem.read a) ∧ tx' = { tx with wlines := new.reverse ++ tx.wlines, overlay := tx'.overlay } ∧
  LxWaveFrom s x (wordOf i) w { w with tx := some tx' } w' w.ord 0 ∧ w'.pend = w.pend.map (counted w.exec) ∧
  (∀ o, committed tx' s.peek o = stores166 on ls (data166 s x (wordOf i) w) (committed tx s.peek) o) ∧
  ∀ o, (tx'.overlay.map Prod.fst).contains o = ((tx.overlay.map Prod.fst).contains o || on.any (fun lane => (ls lane).contains o))

/-- The lanes of a store that do not trap have written; the others' group takes its trap. -/
abbrev StoreTrapped (x : Option Ex) (sp : Space) (i : Instr) (s s1 s' : State) (w w1 w' : Wave) (t : Team) (l : Launch) : Prop :=
  let n := bytes162 (exTy x)
  let addr (lane : Nat) : Nat := addr161 s x (wordOf i) w sp lane
  let bad (lane : Nat) : Option (Nat × Nat) := trap163 s l t sp .write true n (addr lane)
  let ls (lane : Nat) : List Loc := locs s l t sp .write true n (addr lane)
  let data (lane : Nat) : List Byte := data166 s x (wordOf i) w lane
  let here := maskLanes (good37 (w.active x) bad)
  let s0 := noticed374 s t w l (worlds374 (w.active x) false bad)
  s1.wave? w.ref = some w1 ∧ StoppedAt s x w w1 bad ∧ RegsSame w w1 ∧ w1.preds = w.preds ∧
  (if sp = .acm then StoredAcm s0 s1 w t 1 (fun b => storesAcm here n addr data b (acmByte s t.ref b))
    else Stored s0 s1 w 1 (fun o => here.any (fun lane => (ls lane).contains o)) (stores166 here ls data s.peek)) ∧
  GroupTrapped (w.active x) bad addr s1 s' w w1 w' t l

/-! ### LDT and STT (R167, R299, R300) -/

/-- The handle of an LDT or STT, the index of a lane along axis `j`, and the address of its element. -/
def element167 (s : State) (x : Option Ex) (word : Word) (w : Wave) (t : Team) (l : Launch) (write : Bool) (lane : Nat) :
    State × Except (Nat × Nat × Nat) Nat :=
  (xlatOf t l).element s (operand s x word w .a 1 32 lane) (fun j => laneVal s w 1 (word.b7 + j) lane) write

/-- The rank of the object that an LDT or STT names. -/
def rank167 (s : State) (x : Option Ex) (word : Word) (w : Wave) (t : Team) (l : Launch) : Nat :=
  s.handleRank t l (operand s x word w .a 1 32 0)

/-- The address that a translation gives, if it does not fault. -/
def addr167 (r : Except (Nat × Nat × Nat) Nat) : Option Nat :=
  match r with
  | .ok a => some a
  | .error _ => none

/-- An LDT or STT issues outside a transaction; its handle and index registers are legal, and the caches hold every translation. -/
abbrev TensorStart (x : Option Ex) (write : Bool) (i : Instr) (s : State) (w : Wave) (t : Team) (l : Launch) : Prop :=
  let r := rank167 s x (wordOf i) w t l
  i.wf = true ∧ Issues s x (wordOf i) w t l ∧ Clean s x (wordOf i) w ∧ Completes s w t ∧ w.tx = none ∧ homeWindows s = true ∧
  operand s x (wordOf i) w .a 1 32 0 < 65536 ∧ (wordOf i).b7 + r ≤ 88 ∧ w.wb + (wordOf i).b7 + r ≤ w.quota ∧ 1 ≤ r ∧
  ∀ lane ∈ maskLanes (w.active x), (element167 s x (wordOf i) w t l write lane).1 = s

/-- The marks of an item's index registers: of any world violation, else of any poison. -/
def indexMark (s : State) (x : Option Ex) (word : Word) (w : Wave) (t : Team) (l : Launch) (lane : Nat) : Option (Nat × Nat) :=
  let m := marked w (rank167 s x word w t l) word.b7 lane
  if m.2 then some (7, 1) else if m.1 then some (0x0B, 0) else none

/-- The address of each lane's element. -/
def elementAt (s : State) (x : Option Ex) (word : Word) (w : Wave) (t : Team) (l : Launch) (write : Bool) (lane : Nat) : Nat :=
  (addr167 (element167 s x word w t l write lane).2).getD 0

/-- The lanes' index registers bear no mark, and every translation maps to an address whose access completes on this node, or, of STT,
leaves it. -/
abbrev TensorPre (x : Option Ex) (write : Bool) (i : Instr) (s : State) (w : Wave) (t : Team) (l : Launch) : Prop :=
  let a : Access := if write then .write else .read
  TensorStart x write i s w t l ∧ ∀ lane ∈ maskLanes (w.active x), indexMark s x (wordOf i) w t l lane = none ∧
    ∃ ad ∈ addr167 (element167 s x (wordOf i) w t l write lane).2,
      (write && (leaves s l t .global a write (bytes162 (exTy x)) ad).isSome) || lands s l t .global a write (bytes162 (exTy x)) ad

/-- After issue and completion each acting lane holds its element. -/
abbrev LdtPost (x : Option Ex) (i : Instr) (s s1 s2 : State) (w w1 w2 : Wave) (t : Team) (l : Launch) : Prop :=
  let n := bytes162 (exTy x)
  let ls (lane : Nat) : List Loc := locs s l t .global .read false n (elementAt s x (wordOf i) w t l false lane)
  LxIssued s s1 x (wordOf i) w w1 w.ord ∧ LxDone s1 s2 w w1 w2 ∧
  LanesHoldMarked s w w2 (w.active x) (if n = 8 then 2 else 1) (dest s x (wordOf i) w)
    (fun lane => loaded (exTy x) (Bytes.num s.peek (ls lane))) (fun lane => (poisoned s (ls lane), false))

/-- Some lane's element of an LDT lies at another node, the others' on this one. -/
abbrev LdtAwayPre (x : Option Ex) (i : Instr) (s : State) (w : Wave) (t : Team) (l : Launch) : Prop :=
  TensorStart x false i s w t l ∧ AwayPre s w t l (w.active x) .read (bytes162 (exTy x)) (elementAt s x (wordOf i) w t l false) ∧
  ∀ lane ∈ maskLanes (w.active x), indexMark s x (wordOf i) w t l lane = none ∧
    (addr167 (element167 s x (wordOf i) w t l false lane).2).isSome = true

/-- Whether the items of an LDT or STT share their indices: then an LDT makes one access. -/
def sharedIndex (s : State) (x : Option Ex) (word : Word) (w : Wave) (t : Team) (l : Launch) : Bool :=
  (List.range (rank167 s x word w t l)).all (fun j => isU (w.v.getD (w.wb + word.b7 + j) {}).form &&
    (w.v.getD (w.wb + word.b7 + j) {}).poison == 0 && (w.v.getD (w.wb + word.b7 + j) {}).world == 0)

/-- The trap of an item of LDT or STT: at its index registers, in its translation, or at its element (R163, R301), with the address or
index that the frame reports. -/
def tensorTrap301 (s : State) (x : Option Ex) (word : Word) (w : Wave) (t : Team) (l : Launch) (write : Bool) (lane : Nat) :
    Option ((Nat × Nat) × Nat) :=
  match indexMark s x word w t l lane with
  | some m => some (m, 0)
  | none => match (element167 s x word w t l write lane).2 with
    | .error (c, d, ix) => some ((c, d), ix)
    | .ok ad => (trap163 s l t .global (if write then .write else .read) write (bytes162 (exTy x)) ad).map (fun b => (b, ad))

/-- Some item of an LDT or STT traps, and every other one's element lies on this node. -/
abbrev TensorTraps (x : Option Ex) (write : Bool) (i : Instr) (s : State) (w : Wave) (t : Team) (l : Launch) : Prop :=
  let tr (lane : Nat) : Option ((Nat × Nat) × Nat) := tensorTrap301 s x (wordOf i) w t l write lane
  TensorStart x write i s w t l ∧ ItemsTrap (w.active x) (fun lane => (tr lane).map Prod.fst) s w t l ∧
  ∀ lane ∈ maskLanes (w.active x), (tr lane).isNone = true →
    lands s l t .global (if write then .write else .read) write (bytes162 (exTy x)) (elementAt s x (wordOf i) w t l write lane) = true

/-- The notices of an LDT's or STT's failed world checks: at its element, but not of the marks of its index registers (R374). -/
def tensorNotices (s : State) (x : Option Ex) (word : Word) (w : Wave) (t : Team) (l : Launch) (write : Bool) : State :=
  noticed374 s t w l (worlds374 (w.active x) (!write && sharedIndex s x word w t l)
    (fun lane => if (indexMark s x word w t l lane).isSome then none else (tensorTrap301 s x word w t l write lane).map Prod.fst))

/-- The lanes of an LDT that do not trap hold their elements; the others' group takes its trap. -/
abbrev LdtTrapped (x : Option Ex) (i : Instr) (s s1 s' : State) (w w1 w' : Wave) (t : Team) (l : Launch) : Prop :=
  let n := bytes162 (exTy x)
  let tr (lane : Nat) : Option ((Nat × Nat) × Nat) := tensorTrap301 s x (wordOf i) w t l false lane
  let bad (lane : Nat) : Option (Nat × Nat) := (tr lane).map Prod.fst
  let ls (lane : Nat) : List Loc := locs s l t .global .read false n (elementAt s x (wordOf i) w t l false lane)
  s1 = { tensorNotices s x (wordOf i) w t l false with waves := s1.waves, nextNum := s.nextNum + 1 } ∧
  s1.wave? w.ref = some w1 ∧ s1.waves.map (otherWave w.ref) = s.waves.map (otherWave w.ref) ∧ (∀ a, s1.mem.read a = s.mem.read a) ∧
  StoppedAt s x w w1 bad ∧ w1.preds = w.preds ∧
  LanesHoldMarked s w w1 (good37 (w.active x) bad) (if n = 8 then 2 else 1) (dest s x (wordOf i) w)
    (fun lane => loaded (exTy x) (Bytes.num s.peek (ls lane))) (fun lane => (poisoned s (ls lane), false)) ∧
  GroupTrapped (w.active x) bad (fun lane => ((tr lane).map Prod.snd).getD 0) s1 s' w w1 w' t l

/-- The lanes of an STT that do not trap have written their elements; the others' group takes its trap. -/
abbrev SttTrapped (x : Option Ex) (i : Instr) (s s1 s' : State) (w w1 w' : Wave) (t : Team) (l : Launch) : Prop :=
  let tr (lane : Nat) : Option ((Nat × Nat) × Nat) := tensorTrap301 s x (wordOf i) w t l true lane
  let bad (lane : Nat) : Option (Nat × Nat) := (tr lane).map Prod.fst
  let ls (lane : Nat) : List Loc := locs s l t .global .write true (bytes162 (exTy x)) (elementAt s x (wordOf i) w t l true lane)
  let here := maskLanes (good37 (w.active x) bad)
  s1.wave? w.ref = some w1 ∧ StoppedAt s x w w1 bad ∧ RegsSame w w1 ∧ w1.preds = w.preds ∧
  Stored (tensorNotices s x (wordOf i) w t l true) s1 w 1 (fun o => here.any (fun lane => (ls lane).contains o))
    (stores166 here ls (data166 s x (wordOf i) w) s.peek) ∧
  GroupTrapped (w.active x) bad (fun lane => ((tr lane).map Prod.snd).getD 0) s1 s' w w1 w' t l

/-! ### Prefetch and stash windows (R170 to R173) -/

/-- An LX instruction that works at once issues. -/
abbrev AtOncePre (x : Option Ex) (i : Instr) (s : State) (w : Wave) (t : Team) (l : Launch) : Prop :=
  i.wf = true ∧ Issues s x (wordOf i) w t l ∧ Clean s x (wordOf i) w ∧ ∀ e ∈ w.pend, e.key < s.nextNum

/-- Base, offset and length of the window that STW opens (R171). -/
def window171 (w : Wave) (word : Word) : Nat × Nat × Nat :=
  let k (c : Nat) : Nat := (w.k.getD (c - 88) 0).toNat
  (k word.a7 + 2 ^ 32 * k (word.a7 + 1), k word.b7, k (word.b7 + 1))

/-- The operands of STW are legal: a free slot, aligned, a range of ordinary scratchpad, no overlap with a live window, and a range
of global memory that may be read and written. -/
abbrev StwPre (x : Option Ex) (i : Instr) (s : State) (w : Wave) (t : Team) (l : Launch) : Prop :=
  let v := window171 w (wordOf i)
  AtOncePre x i s w t l ∧ t.windows.getD (wordOf i).d7 none = none ∧ v.1 % 128 = 0 ∧ v.2.1 % 128 = 0 ∧ v.2.2 % 128 = 0 ∧ v.2.2 ≠ 0 ∧
  v.2.1 + v.2.2 ≤ l.kernel.scr ∧
  (∀ u ∈ t.windows.filterMap id, overlaps v.2.1 v.2.2 u.off u.len = false ∧
    overlaps (homeAddr t.node v.1) v.2.2 (homeAddr t.node u.base.toNat) u.len = false) ∧
  ∃ k, s.globalKey t.node t.die l.ccn t.segs true v.1 v.2.2 .rmw = .ok k

/-- The window is live, and nothing else has changed. -/
abbrev StwPost (x : Option Ex) (i : Instr) (s s' : State) (w w' : Wave) (t : Team) : Prop :=
  let v := window171 w (wordOf i)
  s'.wave? w.ref = some w' ∧ LxWave s x (wordOf i) w w' w.ord ∧ w'.pend = w.pend.map (counted w.exec) ∧
  s' = { s with
    waves := s'.waves, nextNum := s.nextNum + 1
    teams := s.teams.map (fun m => if m.ref = t.ref then
      { m with windows := setAt m.windows (wordOf i).d7 (some ⟨BitVec.ofNat 64 v.1, v.2.1, v.2.2⟩) } else m) } ∧
  s'.waves.map (otherWave w.ref) = s.waves.map (otherWave w.ref) ∧ ∀ a, s'.mem.read a = s.mem.read a

/-- The window of STWB is live, and its bytes may be read and written (R172). -/
abbrev StwbPre (x : Option Ex) (i : Instr) (s : State) (w : Wave) (t : Team) (l : Launch) (v : Window) : Prop :=
  AtOncePre x i s w t l ∧ t.windows.getD (wordOf i).d7 none = some v ∧ s.windowFault t v.off v.len = none

/-- The window's slot is free, the range has become ordinary scratchpad with the bytes that it showed, and nothing else has changed. -/
abbrev StwbPost (x : Option Ex) (i : Instr) (s s' : State) (w w' : Wave) (t : Team) (v : Window) : Prop :=
  s'.wave? w.ref = some w' ∧ LxWave s x (wordOf i) w w' w.ord ∧ w'.pend = w.pend.map (counted w.exec) ∧
  s' = { s with waves := s'.waves, teams := s'.teams, nextNum := s.nextNum + 1 } ∧
  s'.teams.map (fun m => if m.ref = t.ref then { m with windows := [], scratch := [] } else m) =
    s.teams.map (fun m => if m.ref = t.ref then { m with windows := [], scratch := [] } else m) ∧
  (s'.team? t.ref).map (·.windows) = some (setAt t.windows (wordOf i).d7 none) ∧
  (∀ b, s'.peek (.scr t.ref b) = if v.off ≤ b ∧ b < v.off + v.len then s.peek (s.scrLoc t b) else s.peek (.scr t.ref b)) ∧
  s'.waves.map (otherWave w.ref) = s.waves.map (otherWave w.ref) ∧ ∀ a, s'.mem.read a = s.mem.read a


/-! ### Atomics (R175 to R178) -/

/-- The EX and space of an atomic, and whether it returns the old value (R175). -/
def atomRule : Instr → Option (Option Ex × Space × Bool)
  | .atomg x _ _ _ _ => some (x, .global, true)
  | .atoms x _ _ _ _ => some (x, .scratch, true)
  | .atomc x _ _ _ _ => some (x, .cluster, true)
  | .redg x _ _ _ => some (x, .global, false)
  | _ => none

/-- The word P of a score and an index (R177). -/
def packed177 (score index : BitVec 32) : Nat :=
  let u : BitVec 32 := if (fp32.decode score.toNat).isNan then 0x7FC00000 else score
  let key : BitVec 32 := if u.msb then ~~~u else u ||| 0x80000000
  (key ++ (0xFFFFFFFF - index)).toNat

/-- The new memory value of the table of R175, for memory m, operand y and compare value c. -/
def new175 (x : Option Ex) (m y c : Nat) : Nat :=
  let t := IntTy.ofCode (exTy x)
  let p := BitVec.ofNat t.width m
  let q := BitVec.ofNat t.width y
  match exFx x with
  | 0 => (p + q).toNat
  | 1 => fadd fp32 (Rm.ofCode (exRm x)) (exSat x) m y
  | 2 => if typed t y < typed t m then q.toNat else p.toNat
  | 3 => if typed t m < typed t y then q.toNat else p.toNat
  | 4 => (p &&& q).toNat
  | 5 => (p ||| q).toNat
  | 6 => (p ^^^ q).toNat
  | 7 => y
  | 8 => if m = c then y else m
  | _ => max m (packed177 (BitVec.ofNat 32 y) (BitVec.ofNat 32 (y >>> 32)))

/-- The sum of an address group of `.sadd`, in ascending lane order (R56, R178). -/
def sum178 (x : Option Ex) (ys : List Nat) : Nat :=
  if exTy x = 8 then ys.tail.foldl (fadd fp32 (Rm.ofCode (exRm x)) false) (ys.headD 0)
  else ys.foldl (fun n y => (n + y) % 2 ^ (IntTy.ofCode (exTy x)).width) 0

/-- The new memory value after one update of `.sadd` by a sum. -/
def add178 (x : Option Ex) (m sum : Nat) : Nat :=
  if exTy x = 8 then fadd fp32 (Rm.ofCode (exRm x)) (exSat x) m sum else (m + sum) % 2 ^ (IntTy.ofCode (exTy x)).width

/-- The bytes after the updates of an atomic, and the old value that each lane meets: items in ascending lane order (R176), and
for `.sadd` one update for each address (R178). -/
def updated (x : Option Ex) (on : List Nat) (addr : Nat → Nat) (ls : Nat → List Loc) (y c : Nat → Nat) (m : Bytes) :
    Bytes × (Nat → Nat) :=
  let n := bytes162 (exTy x)
  if exFx x = 10 then
    (on.map addr).eraseDups.foldl (fun (r : Bytes × (Nat → Nat)) a =>
      let group := on.filter (fun j => addr j == a)
      let o := ls (group.headD 0)
      let old := Bytes.num r.1 o
      (Bytes.put r.1 o (toBytes n (add178 x old (sum178 x (group.map y)))), fun j => if addr j = a then old else r.2 j)) (m, fun _ => 0)
  else
    on.foldl (fun (r : Bytes × (Nat → Nat)) j =>
      let old := Bytes.num r.1 (ls j)
      (Bytes.put r.1 (ls j) (toBytes n (new175 x old (y j) (c j))), fun i => if i = j then old else r.2 i)) (m, fun _ => 0)

/-- The address of a lane of an atomic (R161). -/
def addr176 (s : State) (x : Option Ex) (word : Word) (w : Wave) (sp : Space) (lane : Nat) : Nat :=
  operand s x word w .a (if sp = .global then 2 else 1) 64 lane

/-- An atomic issues. -/
abbrev AtomStart (x : Option Ex) (i : Instr) (s : State) (w : Wave) (t : Team) (l : Launch) : Prop :=
  i.wf = true ∧ Issues s x (wordOf i) w t l ∧ Clean s x (wordOf i) w ∧ Completes s w t ∧ w.tx = none ∧ homeWindows s = true

/-- The trap of a lane of an atomic: alignment, then the checks of its space, then a poisoned word (R163), which an item of another node
meets at issue too (log 26). -/
def trap176 (s : State) (x : Option Ex) (word : Word) (w : Wave) (t : Team) (l : Launch) (sp : Space) (lane : Nat) : Option (Nat × Nat) :=
  let n := bytes162 (exTy x)
  let a := addr176 s x word w sp lane
  if a % n ≠ 0 then some (2, 8)
  else match trap163 s l t sp .rmw false n a with
    | some b => some b
    | none => if poisoned s (locsAt true s l t sp .rmw false n a) then some (0x0B, 1) else none

/-- An atomic issues outside a transaction, and each lane's address is aligned, in bytes of this node that exist and bear no
poison. -/
abbrev AtomPre (x : Option Ex) (sp : Space) (i : Instr) (s : State) (w : Wave) (t : Team) (l : Launch) : Prop :=
  let n := bytes162 (exTy x)
  AtomStart x i s w t l ∧ ∀ lane ∈ maskLanes (w.active x), addr176 s x (wordOf i) w sp lane % n = 0 ∧
    lands s l t sp .rmw false n (addr176 s x (wordOf i) w sp lane) = true ∧
    poisoned s (locs s l t sp .rmw false n (addr176 s x (wordOf i) w sp lane)) = false

/-- Some lane's update leaves the node, every other one is made on it, and none traps. -/
abbrev AtomAwayPre (x : Option Ex) (i : Instr) (s : State) (w : Wave) (t : Team) (l : Launch) : Prop :=
  let n := bytes162 (exTy x)
  AtomStart x i s w t l ∧ AwayPre s w t l (w.active x) .rmw n (addr176 s x (wordOf i) w .global) ∧
  ∀ lane ∈ maskLanes (w.active x), trap176 s x (wordOf i) w t l .global lane = none

/-- Some lane of an atomic traps, and every other one's update is made on this node. -/
abbrev AtomTraps (x : Option Ex) (sp : Space) (i : Instr) (s : State) (w : Wave) (t : Team) (l : Launch) : Prop :=
  AtomStart x i s w t l ∧ ItemsTrap (w.active x) (trap176 s x (wordOf i) w t l sp) s w t l ∧
  ∀ lane ∈ maskLanes (w.active x), (∀ b ∈ trap176 s x (wordOf i) w t l sp lane, b.1 ≠ 0) ∧
    (trap176 s x (wordOf i) w t l sp lane = none →
      lands s l t sp .rmw false (bytes162 (exTy x)) (addr176 s x (wordOf i) w sp lane) = true)

/-- An LX instruction has issued, bytes have changed to `final`, and nothing else but its wave and what a write does to watchers. -/
abbrev LxStored (s s1 : State) (x : Option Ex) (word : Word) (w w1 : Wave) (written : Loc → Bool) (final : Bytes) : Prop :=
  s1.wave? w.ref = some w1 ∧ LxWave s x word w w1 w.ord ∧ Stored s s1 w 1 written final

/-- Updates of the acting lanes at `ls` have been made at issue, leaving the bytes `r.1`; the old values `r.2` reach d, if any, at
completion. -/
abbrev Updates (x : Option Ex) (n : Nat) (word : Word) (s s1 s2 : State) (w w1 w2 : Wave) (act : List Nat)
    (ls : Nat → List Loc) (r : Bytes × (Nat → Nat)) : Prop :=
  LxStored s s1 x word w w1 (fun o => act.any (fun lane => (ls lane).contains o)) r.1 ∧
  LxDone s1 s2 w w1 w2 ∧ LanesHold s w w2 (w.active x) n (dest s x word w) r.2

/-- The bytes after the updates of some lanes of an atomic, and the old value that each of them meets. -/
def atoms176 (s : State) (x : Option Ex) (word : Word) (w : Wave) (t : Team) (l : Launch) (sp : Space) (on : List Nat) : Bytes × (Nat → Nat) :=
  let n := bytes162 (exTy x)
  let regs := if n = 8 then 2 else 1
  updated x on (addr176 s x word w sp) (fun lane => locs s l t sp .rmw false n (addr176 s x word w sp lane)) (operand s x word w .b regs 64)
    (operand s x word w .d regs 64) s.peek

/-- The updates of an atomic. -/
abbrev AtomPost (x : Option Ex) (sp : Space) (ret : Bool) (i : Instr) (s s1 s2 : State) (w w1 w2 : Wave) (t : Team)
    (l : Launch) : Prop :=
  let n := bytes162 (exTy x)
  let ls (lane : Nat) : List Loc := locs s l t sp .rmw false n (addr176 s x (wordOf i) w sp lane)
  Updates x (if n = 8 then 2 else 1) (wordOf i) s s1 s2 w w1 w2 (maskLanes (w.active x)) ls
    (atoms176 s x (wordOf i) w t l sp (maskLanes (w.active x))) ∧
  (ret = false → s2 = s1 ∧ w1.pend = w.pend.map (counted w.exec))

/-- The lanes on this node have made their updates, a request for each other lane stands in its stream, and where a value is returned the
entry waits for as many answers and holds the old values of the others (R357, R359). -/
abbrev AtomSent (x : Option Ex) (ret : Bool) (i : Instr) (s s1 : State) (w w1 : Wave) (t : Team) (l : Launch) : Prop :=
  let n := bytes162 (exTy x)
  let word := wordOf i
  let regs := if n = 8 then 2 else 1
  let addr (lane : Nat) : Nat := addr176 s x word w .global lane
  let on := away359 s l t (w.active x) .rmw n addr
  let here := (maskLanes (w.active x)).filter (fun lane => !on.contains lane)
  let op (lane : Nat) : RemoteOp := .atomic lane word.d7 word ((x.map Ex.word).getD 0) (BitVec.ofNat 64 (operand s x word w .b regs 64 lane))
    (BitVec.ofNat 64 (if exFx x = 8 then operand s x word w .d regs 64 lane else 0))
  let reqs := requests358 s t l w on (node359 s l t .rmw n addr) addr (fun _ => if ret then s.nextNum else 0) op
  let r := atoms176 s x word w t l .global here
  s1.wave? w.ref = some w1 ∧ LxWaveFrom s x word w w w1 w.ord reqs.length ∧
  Stored { s with packets := s.packets ++ reqs } s1 w (1 + reqs.length)
    (fun o => here.any (fun lane => (locs s l t .global .rmw false n (addr lane)).contains o)) r.1 ∧
  (ret = false → w1.pend = w.pend.map (counted w.exec)) ∧
  (ret = true → w1.pend.length = w.pend.length + 1 ∧ ∀ e ∈ w1.pend.drop w.pend.length, e.performed = true ∧
    (word.d7 ≠ 116 → ∀ lane ∈ here, ∀ j, j < regs → (e.writes.getD j (0, {})).1 = word.d7 + j ∧
      (e.writes.getD j (0, {})).2.form.at (s.geo w).index lane = r.2 lane / 2 ^ (32 * j) % 2 ^ 32))

/-- The lanes that do not trap have made their updates and hold their old values; the others' group takes its trap. -/
abbrev AtomTrapped (x : Option Ex) (sp : Space) (i : Instr) (s s1 s' : State) (w w1 w' : Wave) (t : Team) (l : Launch) : Prop :=
  let n := bytes162 (exTy x)
  let bad (lane : Nat) : Option (Nat × Nat) := trap176 s x (wordOf i) w t l sp lane
  let here := maskLanes (good37 (w.active x) bad)
  let r := atoms176 s x (wordOf i) w t l sp here
  s1.wave? w.ref = some w1 ∧ StoppedAt s x w w1 bad ∧ w1.preds = w.preds ∧
  Stored (noticed374 s t w l (worlds374 (w.active x) false bad)) s1 w 1
    (fun o => here.any (fun lane => (locs s l t sp .rmw false n (addr176 s x (wordOf i) w sp lane)).contains o)) r.1 ∧
  LanesHold s w w1 (good37 (w.active x) bad) (if n = 8 then 2 else 1) (dest s x (wordOf i) w) r.2 ∧
  GroupTrapped (w.active x) bad (addr176 s x (wordOf i) w sp) s1 s' w w1 w' t l

/-! ### BIN (R144) -/

/-- BIN issues with a legal bin count and array address. -/
abbrev BinStart (x : Option Ex) (i : Instr) (s : State) (w : Wave) (t : Team) (l : Launch) : Prop :=
  let kb := operand s x (wordOf i) w .b 2 64 0
  i.wf = true ∧ Issues s x (wordOf i) w t l ∧ Clean s x (wordOf i) w ∧ Completes s w t ∧ homeWindows s = true ∧
  kb % 4 = 0 ∧ 1 ≤ kb >>> 32 ∧ kb >>> 32 ≤ 65536

/-- The bytes of a lane's count. -/
def bin144 (s : State) (x : Option Ex) (word : Word) (w : Wave) (t : Team) (l : Launch) (lane : Nat) : List Loc :=
  locs s l t .scratch .rmw false 4 (operand s x word w .b 2 64 0 % 2 ^ 32 + 4 * operand s x word w .a 1 32 lane)

/-- The acting lanes whose keys name a bin. -/
def counts144 (s : State) (x : Option Ex) (word : Word) (w : Wave) : List Nat :=
  (maskLanes (w.active x)).filter (fun lane => decide (operand s x word w .a 1 32 lane < operand s x word w .b 2 64 0 >>> 32))

/-- The trap of a lane at its count: a window byte that fails its checks, or poison. -/
def trap144 (s : State) (x : Option Ex) (word : Word) (w : Wave) (t : Team) (l : Launch) (lane : Nat) : Option (Nat × Nat) :=
  if !(counts144 s x word w).contains lane then none
  else match trap163 s l t .scratch .rmw false 4 (operand s x word w .b 2 64 0 % 2 ^ 32 + 4 * operand s x word w .a 1 32 lane) with
    | some b => some b
    | none => if poisoned s (bin144 s x word w t l lane) then some (0x0B, 1) else none

/-- Whether every count of some lanes can be reached on this node. -/
def reach144 (s : State) (x : Option Ex) (word : Word) (w : Wave) (t : Team) (l : Launch) (on : List Nat) : Bool :=
  on.all (fun lane => lands s l t .scratch .rmw false 4 (operand s x word w .b 2 64 0 % 2 ^ 32 + 4 * operand s x word w .a 1 32 lane))

/-- The counts after some lanes have been counted from bytes `m`, and what each acting lane receives: the count that its key had before
plus its rank among the lanes of that key, or all ones for a key beyond the array. -/
def counted144 (s : State) (x : Option Ex) (word : Word) (w : Wave) (t : Team) (l : Launch) (on : List Nat) (m : Bytes) : Bytes × (Nat → Nat) :=
  let key (lane : Nat) : Nat := operand s x word w .a 1 32 lane
  let ls (lane : Nat) : List Loc := bin144 s x word w t l lane
  (on.foldl (fun (m : Bytes) lane => m.put (ls lane) (toBytes 4 (Bytes.num m (ls lane) + 1))) m, fun lane =>
    if on.contains lane then Bytes.num m (ls lane) + on.countP (fun j => decide (j < lane) && key j == key lane) else 0xFFFFFFFF)

/-- BIN issues outside a transaction with legal operands, over a count array in ordinary scratchpad. -/
abbrev BinPre (x : Option Ex) (i : Instr) (s : State) (w : Wave) (t : Team) (l : Launch) : Prop :=
  let kb := operand s x (wordOf i) w .b 2 64 0
  let on := counts144 s x (wordOf i) w
  BinStart x i s w t l ∧ w.tx = none ∧ kb % 2 ^ 32 + 4 * (kb >>> 32) ≤ l.kernel.scr ∧ reach144 s x (wordOf i) w t l on = true ∧
  ∀ lane ∈ on, poisoned s (bin144 s x (wordOf i) w t l lane) = false

/-- Counts have grown by the lanes of each key, and each lane receives its place. -/
abbrev BinPost (x : Option Ex) (i : Instr) (s s1 s2 : State) (w w1 w2 : Wave) (t : Team) (l : Launch) : Prop :=
  let on := counts144 s x (wordOf i) w
  Updates x 1 (wordOf i) s s1 s2 w w1 w2 on (bin144 s x (wordOf i) w t l) (counted144 s x (wordOf i) w t l on s.peek)

/-- BIN issues in a transaction; its count lines are admitted to both sets, and no older transaction conflicts (R187). -/
abbrev TxBinPre (x : Option Ex) (i : Instr) (s : State) (w : Wave) (t : Team) (l : Launch) (tx : Tx) : Prop :=
  let kb := operand s x (wordOf i) w .b 2 64 0
  let on := counts144 s x (wordOf i) w
  let ls := on.flatMap (bin144 s x (wordOf i) w t l)
  BinStart x i s w t l ∧ w.tx = some tx ∧ kb % 2 ^ 32 + 4 * (kb >>> 32) ≤ l.kernel.scr ∧ reach144 s x (wordOf i) w t l on = true ∧
  (∀ lane ∈ on, poisoned s ((bin144 s x (wordOf i) w t l lane).filter (fun o => !(tx.overlay.map Prod.fst).contains o)) = false) ∧
  admitted185 s w tx false (new185 tx.rlines ls) = true ∧ admitted185 s w tx true (new185 tx.wlines ls) = true ∧
  elder188 s w false (new185 tx.rlines ls) = false ∧ elder188 s w true (new185 tx.wlines ls) = false

/-- The count lines have joined both sets, the counts have grown for the transaction alone, and each lane receives its place. -/
abbrev TxBinPost (x : Option Ex) (i : Instr) (s s1 s2 : State) (w w1 w2 : Wave) (t : Team) (l : Launch) (tx tx' : Tx) : Prop :=
  let on := counts144 s x (wordOf i) w
  let ls := on.flatMap (bin144 s x (wordOf i) w t l)
  let reads := new185 tx.rlines ls
  let writes := new185 tx.wlines ls
  let r := counted144 s x (wordOf i) w t l on (committed tx s.peek)
  s1 = { s with waves := s1.waves, nextNum := s.nextNum + 1 } ∧ s1.wave? w.ref = some w1 ∧ (∀ a, s1.mem.read a = s.mem.read a) ∧
  s1.waves.map (otherWave w.ref) = s.waves.map (fun v => otherWave w.ref (if hits188 w false reads v || hits188 w true writes v then conflict189 v else v)) ∧
  tx' = { tx with rlines := reads.reverse ++ tx.rlines, wlines := writes.reverse ++ tx.wlines, overlay := tx'.overlay } ∧
  LxWaveFrom s x (wordOf i) w { w with tx := some tx' } w1 w.ord 0 ∧ LxDone s1 s2 w w1 w2 ∧
  (∀ o, committed tx' s.peek o = r.1 o) ∧
  (∀ o, (tx'.overlay.map Prod.fst).contains o = ((tx.overlay.map Prod.fst).contains o || ls.contains o)) ∧
  LanesHold s w w2 (w.active x) 1 (dest s x (wordOf i) w) r.2

/-- Some lane of BIN traps at its count, and the others' counts can be reached. -/
abbrev BinTraps (x : Option Ex) (i : Instr) (s : State) (w : Wave) (t : Team) (l : Launch) : Prop :=
  let kb := operand s x (wordOf i) w .b 2 64 0
  let bad (lane : Nat) : Option (Nat × Nat) := trap144 s x (wordOf i) w t l lane
  BinStart x i s w t l ∧ kb % 2 ^ 32 + 4 * (kb >>> 32) ≤ l.kernel.scr ∧ ItemsTrap (w.active x) bad s w t l ∧
  (∀ lane ∈ counts144 s x (wordOf i) w, ∀ b ∈ bad lane, b.1 ≠ 0) ∧
  reach144 s x (wordOf i) w t l ((counts144 s x (wordOf i) w).filter (fun lane => (bad lane).isNone)) = true

/-- The lanes that do not trap have been counted and hold their places; the others' group takes its trap. -/
abbrev BinTrapped (x : Option Ex) (i : Instr) (s s1 s' : State) (w w1 w' : Wave) (t : Team) (l : Launch) : Prop :=
  let bad (lane : Nat) : Option (Nat × Nat) := trap144 s x (wordOf i) w t l lane
  let on := (counts144 s x (wordOf i) w).filter (fun lane => (bad lane).isNone)
  let r := counted144 s x (wordOf i) w t l on s.peek
  s1.wave? w.ref = some w1 ∧ StoppedAt s x w w1 bad ∧ w1.preds = w.preds ∧
  Stored (noticed374 s t w l (worlds374 (w.active x) false bad)) s1 w 1
    (fun o => on.any (fun lane => (bin144 s x (wordOf i) w t l lane).contains o)) r.1 ∧
  LanesHold s w w1 (good37 (w.active x) bad) 1 (dest s x (wordOf i) w) r.2 ∧
  GroupTrapped (w.active x) bad (fun lane => operand s x (wordOf i) w .b 2 64 0 % 2 ^ 32 + 4 * operand s x (wordOf i) w .a 1 32 lane)
    s1 s' w w1 w' t l

/-! ### REDUX at team scope (R141) -/

/-- The wave's partial result (R140). -/
def partial141 (s : State) (x : Option Ex) (word : Word) (w : Wave) : Nat :=
  reduced (exTy x) (exFx x % 8) (Rm.ofCode (exRm x)) (exSat x) ((maskLanes (w.active x)).map (operand s x word w .a 1 32))

/-- The open round of the team after this contribution (R141). -/
def round141 (s : State) (x : Option Ex) (word : Word) (w : Wave) (t : Team) : Round :=
  let r := t.round.getD ⟨operand s x word w .b 1 32 0, exFx x % 8, exTy x, exRm x, exSat x, [], []⟩
  { r with parts := (w.ref.num, BitVec.ofNat 32 (partial141 s x word w)) :: r.parts, done := w.ref.num :: r.done }

/-- Whether a wave of the team that has not ended has yet to contribute. -/
def awaited141 (s : State) (r : Round) (t : Team) : Bool :=
  s.waves.any (fun v => v.ref.team == t.ref && v.live != 0 && !r.done.contains v.ref.num)

/-- The combination that a completed round writes: the values in ascending wave number. -/
def total141 (x : Option Ex) (r : Round) : Nat :=
  reduced (exTy x) (exFx x % 8) (Rm.ofCode (exRm x)) (exSat x)
    (lanes.filterMap (fun n => (r.parts.find? (fun p => p.1 == n)).map (fun p => p.2.toNat)))

/-- A contribution issues, at a legal record, and agrees with the round that is open. -/
abbrev RoundPre (x : Option Ex) (i : Instr) (s : State) (w : Wave) (t : Team) (l : Launch) : Prop :=
  let off := operand s x (wordOf i) w .b 1 32 0
  i.wf = true ∧ Issues s x (wordOf i) w t l ∧ Clean s x (wordOf i) w ∧ Completes s w t ∧ homeWindows s = true ∧
  8 ≤ exFx x ∧ off % 4 = 0 ∧ off + 8 ≤ l.kernel.scr ∧ w.ref.num < 32 ∧ s.windowFault t off 8 = none ∧ (s.scrLocs t off 8).Nodup ∧
  present (s.scrLocs t off 8) = true ∧
  ∀ r ∈ t.round, r.done.contains w.ref.num = false ∧ (∀ p ∈ r.parts, p.1 ≠ w.ref.num) ∧
    r.off = off ∧ r.op = exFx x % 8 ∧ r.ty = exTy x ∧ r.rm = exRm x ∧ r.sat = exSat x

/-- A team but for its bytes and its round. -/
def roundless (t : Team) : Team := { t with scratch := [], round := none }

/-- d receives the partial; the round is open with it, or has completed and written both words of the record. -/
abbrev RoundPost (x : Option Ex) (i : Instr) (s s1 s2 : State) (w w1 w2 : Wave) (t : Team) : Prop :=
  let r := round141 s x (wordOf i) w t
  let ls := s.scrLocs t (operand s x (wordOf i) w .b 1 32 0) 8
  s1.wave? w.ref = some w1 ∧ LxWave s x (wordOf i) w w1 w.ord ∧ LxDone s1 s2 w w1 w2 ∧
  LanesHold s w w2 (w.active x) 1 (dest s x (wordOf i) w) (fun _ => partial141 s x (wordOf i) w) ∧
  (∀ u ∈ s1.teams, u.ref = t.ref → u.round = if awaited141 s r t then some r else none) ∧
  (∀ u ∈ s1.teams, u.ref ≠ t.ref → ∀ v ∈ s.teams, v.ref = u.ref → u.round = v.round) ∧
  s1.teams.map roundless = s.teams.map roundless ∧
  (awaited141 s r t = true → s1 = { s with waves := s1.waves, teams := s1.teams, nextNum := s.nextNum + 1 } ∧
    (∀ o, s1.peek o = s.peek o)) ∧
  (awaited141 s r t = false →
    s1 = { s with waves := s1.waves, deliveries := s1.deliveries, mem := s1.mem, poison := s1.poison, teams := s1.teams,
                  nextNum := s.nextNum + 1 } ∧
    (∀ o, s1.peek o = (Bytes.put s.peek ls
      (toBytes 4 (total141 x r) ++ toBytes 4 (Bytes.num s.peek (ls.drop 4) + 1))) o)) ∧
  s1.waves.map (watcher w.ref) = s.waves.map (watcher w.ref)

/-- In a transaction that holds no contribution yet, d receives the partial, and the contribution is held with the write set (R187). -/
abbrev RoundHeld (x : Option Ex) (i : Instr) (s s1 s2 : State) (w w1 w2 : Wave) (tx : Tx) : Prop :=
  let v := partial141 s x (wordOf i) w
  let c : Round := ⟨operand s x (wordOf i) w .b 1 32 0, exFx x % 8, exTy x, exRm x, exSat x, [(w.ref.num, BitVec.ofNat 32 v)], [w.ref.num]⟩
  s1 = { s with waves := s1.waves, nextNum := s.nextNum + 1 } ∧ s1.wave? w.ref = some w1 ∧
  s1.waves.map (otherWave w.ref) = s.waves.map (otherWave w.ref) ∧ (∀ a, s1.mem.read a = s.mem.read a) ∧
  LxWaveFrom s x (wordOf i) w { w with tx := some { tx with redux := [c] } } w1 w.ord 0 ∧ LxDone s1 s2 w w1 w2 ∧
  LanesHold s w w2 (w.active x) 1 (dest s x (wordOf i) w) (fun _ => v)


/-! ### Synchronisation objects (R180, R197 to R203, R384) -/

/-- The wave has gone on from `w0`, which differs from the issuing wave `w` only in what the instruction changed. -/
abbrev GoneFrom (s : State) (x : Option Ex) (w w0 w' : Wave) : Prop :=
  w' = { w0 with pcs := w'.pcs, pend := w'.pend, boosted := false, group := w'.group, readyAt := s.time,
                 groupIssues := w'.groupIssues } ∧
  GroupAt w w' (fun _ => nextPc w x) ∧ w'.pend = w.pend.map (fun e => if e.key < s.nextNum then counted w.exec e else e)

/-- A uniform register. -/
def kReg (w : Wave) (c : Nat) : Nat := (w.k.getD (c - 88) 0).toNat
/-- A pair of uniform registers. -/
def kPair (w : Wave) (c : Nat) : Nat := (BitVec.ofNat 32 (kReg w (c + 1)) ++ BitVec.ofNat 32 (kReg w c)).toNat

/-- An instruction that acts once for its wave issues. -/
abbrev WavePre (x : Option Ex) (i : Instr) (s : State) (w : Wave) (t : Team) (l : Launch) : Prop :=
  i.wf = true ∧ Issues s x (wordOf i) w t l ∧ Clean s x (wordOf i) w

/-- The key of a range that the wave may read and write, at its own node or, as it is granted, at another (R32, R361). -/
def key32 (s : State) (t : Team) (l : Launch) (addr n : Nat) : Option Nat :=
  match s.globalKey t.node t.die l.ccn t.segs t.world addr n .rmw with
  | .ok k => some k
  | .error _ => none

/-- ACQ or REL issues at a sync object; REL's wave has no access under way. -/
abbrev SeqPre (x : Option Ex) (rel : Bool) (i : Instr) (s : State) (w : Wave) (t : Team) (l : Launch) (k : Nat) : Prop :=
  let addr := kPair w (wordOf i).a7
  WavePre x i s w t l ∧ homeWindows s = true ∧ addr % 16 = 0 ∧ key32 s t l addr 16 = some k ∧ present (globBytes k 16) = true ∧
  poisoned s (globBytes (k + 14) 2) = false ∧ (rel = true → s.inFlight w.ref = false)

/-- SEQ, incremented by REL, is in d. -/
abbrev SeqPost (x : Option Ex) (rel : Bool) (i : Instr) (s s' : State) (w w' : Wave) (k : Nat) : Prop :=
  let ls := globBytes (k + 14) 2
  let seq := (Bytes.num s.peek ls + if rel then 1 else 0) % 2 ^ 16
  s'.wave? w.ref = some w' ∧ GoesOn s x w w' ∧ w'.preds = w.preds ∧
  LanesHold s w w' (w.active x) 1 (dest s x (wordOf i) w) (fun _ => seq) ∧
  if rel then Stored s s' w 0 (fun o => ls.contains o) (Bytes.put s.peek ls (toBytes 2 seq)) else OnlyWave s s' w w'

/-- BIND issues with legal operands (R198). -/
abbrev BindPre (x : Option Ex) (i : Instr) (s : State) (w : Wave) (t : Team) (l : Launch) (k : Nat) : Prop :=
  let addr := kPair w (wordOf i).a7
  let ctl := BitVec.ofNat 32 (kReg w ((wordOf i).b7 + 3))
  WavePre x i s w t l ∧ homeWindows s = true ∧ addr % 16 = 0 ∧ kPair w (wordOf i).b7 % 128 = 0 ∧ kReg w ((wordOf i).b7 + 2) % 128 = 0 ∧
  ctl.extractLsb' 8 2 ≠ 3 ∧ ctl.extractLsb' 0 3 ≠ 6 ∧ ctl.extractLsb' 0 3 ≠ 7 ∧ ctl.extractLsb' 3 5 = 0 ∧ ctl.extractLsb' 10 22 = 0 ∧
  key32 s t l addr 16 = some k ∧ present (globBytes k 16) = true

/-- BASE, LEN, SPACE and SCOPE stand in the object; SEQ and every other byte are as before. -/
abbrev BindPost (x : Option Ex) (i : Instr) (s s' : State) (w w' : Wave) (k : Nat) : Prop :=
  let b := (wordOf i).b7
  let ls := globBytes k 14
  s'.wave? w.ref = some w' ∧ GoneFrom s x w w w' ∧
  Stored s s' w 0 (fun o => ls.contains o)
    (Bytes.put s.peek ls (toBytes 8 (kPair w b) ++ toBytes 4 (kReg w (b + 2)) ++ toBytes 2 (kReg w (b + 3))))

/-- The fields of a barrier's word 0 (R201): EXPECT, LEVEL, HWID. -/
def expect201 (v : Nat) : Nat := ((BitVec.ofNat 32 v).extractLsb' 16 6).toNat
/-- LEVEL. -/
def level201 (v : Nat) : Nat := ((BitVec.ofNat 32 v).extractLsb' 24 3).toNat
/-- HWID. -/
def hwid201 (v : Nat) : Nat := ((BitVec.ofNat 32 v).extractLsb' 27 5).toNat

/-- ARRIVED and ENDED0 of a team's barrier object; 0 where it was never initialised (R35; log 19). -/
def masks201 (t : Team) (off : Nat) : Mask × Mask :=
  ((t.barriers.find? (fun b => b.off == off)).map (fun b => (b.arrived, b.ended0))).getD (0, 0)

/-- A state in which a team's barrier object has other masks. -/
def withMasks (s : State) (t : Team) (off : Nat) (a e : Mask) : State :=
  { s with teams := s.teams.map (fun m => if m.ref = t.ref then
      { m with barriers := ⟨off, a, e⟩ :: m.barriers.filter (fun b => b.off != off) } else m) }

/-- BARINIT issues with legal operands (R202). -/
abbrev BarinitPre (x : Option Ex) (i : Instr) (s : State) (w : Wave) (t : Team) (l : Launch) : Prop :=
  let off := kReg w (wordOf i).a7
  let v := kReg w (wordOf i).b7
  WavePre x i s w t l ∧ homeWindows s = true ∧ off % 8 = 0 ∧ l.kernel.scr ≤ off ∧ off + 8 ≤ l.kernel.scr + l.kernel.sync ∧
  1 ≤ expect201 v ∧ expect201 v ≤ 32 ∧ level201 v ≤ 4 ∧ (BitVec.ofNat 32 v).extractLsb' 22 2 = 0 ∧
  (BitVec.ofNat 32 v).extractLsb' 6 10 = 0 ∧ present (s.scrLocs t off 4) = true

/-- Word 0 stands with COUNT 0, ARRIVED is clear, ENDED0 is the team's ended waves, and PHASE is as before. -/
abbrev BarinitPost (x : Option Ex) (i : Instr) (s s' : State) (w w' : Wave) (t : Team) : Prop :=
  let off := kReg w (wordOf i).a7
  let ls := s.scrLocs t off 4
  s'.wave? w.ref = some w' ∧ GoneFrom s x w w w' ∧
  Stored (withMasks s t off 0 t.ended) s' w 0 (fun o => ls.contains o)
    (Bytes.put s.peek ls (toBytes 4 (64 * (kReg w (wordOf i).b7 / 64))))

/-- ARRIVE issues at an object in the sync region, its wave not yet arrived and with no access under way (R203). -/
abbrev ArrivePre (x : Option Ex) (i : Instr) (s : State) (w : Wave) (t : Team) (l : Launch) : Prop :=
  let off := kReg w (wordOf i).a7
  WavePre x i s w t l ∧ homeWindows s = true ∧ off % 8 = 0 ∧ l.kernel.scr ≤ off ∧ off + 8 ≤ l.kernel.scr + l.kernel.sync ∧
  s.inFlight w.ref = false ∧ (masks201 t off).1.getLsbD w.ref.num = false ∧ present (s.scrLocs t off 8) = true ∧ w.ref.num < 32 ∧
  (s.scrLocs t off 8).Nodup

/-- d holds PHASE; the wave has arrived, and where enough waves have arrived or ended the phase has completed: at LEVEL 0 PHASE has
grown by 1, at another LEVEL one arrival is under way to the hardware barrier. -/
abbrev ArrivePost (x : Option Ex) (i : Instr) (s s' : State) (w w' : Wave) (t : Team) : Prop :=
  let off := kReg w (wordOf i).a7
  let ls0 := s.scrLocs t off 4
  let ls1 := s.scrLocs t (off + 4) 4
  let v := Bytes.num s.peek ls0
  let m := masks201 t off
  let arrived := m.1 ||| BitVec.ofNat 32 (2 ^ w.ref.num)
  let full := expect201 v ≤ lanes.countP (fun j => (arrived ||| (t.ended &&& ~~~m.2)).getLsbD j)
  let count := if full then 0 else lanes.countP (fun j => arrived.getLsbD j)
  let base := withMasks s t off (if full then 0 else arrived) m.2
  s'.wave? w.ref = some w' ∧ GoesOn s x w w' ∧ w'.preds = w.preds ∧
  LanesHold s w w' (w.active x) 1 (dest s x (wordOf i) w) (fun _ => Bytes.num s.peek ls1) ∧
  Stored (if full ∧ level201 v ≠ 0 then { base with arrivals := s.arrivals ++
      [⟨level201 v, hwid201 v, barInst s t (level201 v), t.ref.launch,
        s.barGen (level201 v) (hwid201 v) (barInst s t (level201 v)) t.ref.launch, t.ref, off, s.time⟩] } else base)
    s' w 0 (fun o => ls0.contains o || ls1.contains o)
    (Bytes.put (Bytes.put s.peek ls0 (toBytes 4 (64 * (v / 64) + count))) ls1
      (toBytes 4 (Bytes.num s.peek ls1 + if full ∧ level201 v = 0 then 1 else 0)))

/-- The ring that a descriptor address names, if it can be reached: descriptor, slot-state array and NLOG (R179). -/
def ring179 (s : State) (t : Team) (l : Launch) (addr : Nat) : Option RingAt :=
  match locs s l t .global .rmw false 256 addr with
  | .glob k :: _ =>
    let nlog := ((BitVec.ofNat 32 (Bytes.num s.peek (globBytes (k + 8) 4))).extractLsb' 8 5).toNat
    let slog := ((BitVec.ofNat 32 (Bytes.num s.peek (globBytes (k + 8) 4))).extractLsb' 0 5).toNat
    if nlog = 0 then none
    else (key32 s t l ((Bytes.num s.peek (globBytes k 8) + 2 ^ (nlog + slog)) % 2 ^ 64) ((2 ^ nlog + 3) / 4)).map (fun st => ⟨k, st, nlog⟩)
  | _ => none

/-- The bytes of a ring: its descriptor and its slot states. -/
def ringBytes (r : RingAt) : List Loc := globBytes r.desc 256 ++ globBytes r.states ((2 ^ r.nlog + 3) / 4)

/-- RGDEF issues with legal operands (R180): the descriptor, the slots and the state array can be reached. -/
abbrev RgdefPre (x : Option Ex) (i : Instr) (s : State) (w : Wave) (t : Team) (l : Launch) (k st : Nat) : Prop :=
  let addr := kPair w (wordOf i).a7
  let dbase := kPair w (wordOf i).b7
  let cfg := BitVec.ofNat 32 (kReg w ((wordOf i).b7 + 2))
  let nlog := (cfg.extractLsb' 8 5).toNat
  let slog := (cfg.extractLsb' 0 5).toNat
  WavePre x i s w t l ∧ homeWindows s = true ∧ addr % 256 = 0 ∧ dbase % 128 = 0 ∧ cfg.extractLsb' 13 19 = 0 ∧ cfg.extractLsb' 5 3 = 0 ∧
  1 ≤ nlog ∧ nlog ≤ 16 ∧ 7 ≤ slog ∧ slog ≤ 16 ∧ key32 s t l addr 256 = some k ∧ (key32 s t l dbase (2 ^ (nlog + slog))).isSome = true ∧
  key32 s t l ((dbase + 2 ^ (nlog + slog)) % 2 ^ 64) (128 * (((2 ^ nlog + 3) / 4 + 127) / 128)) = some st ∧
  present (ringBytes ⟨k, st, nlog⟩) = true ∧ (k + 256 ≤ st ∨ st + (2 ^ nlog + 3) / 4 ≤ k)

/-- DBASE and CFG stand in the descriptor, the counters are 0, FREE is the number of slots, and every slot is free. -/
abbrev RgdefPost (x : Option Ex) (i : Instr) (s s' : State) (w w' : Wave) (k st : Nat) : Prop :=
  let cfg := kReg w ((wordOf i).b7 + 2)
  let nslot := 2 ^ ((BitVec.ofNat 32 cfg).extractLsb' 8 5).toNat
  let states := globBytes st ((nslot + 3) / 4)
  let put (m : Bytes) (off n v : Nat) : Bytes := m.put (globBytes (k + off) n) (toBytes n v)
  s'.wave? w.ref = some w' ∧ GoneFrom s x w w w' ∧
  Stored s s' w 0 (fun o => states.contains o || (globBytes k 28).contains o || (globBytes (k + 128) 8).contains o)
    (put (put (put (put (put (put (put (put (Bytes.put s.peek states (states.map (fun _ => 0)))
      0x00 8 (kPair w (wordOf i).b7)) 0x08 4 cfg) 0x0C 4 0) 0x10 4 0) 0x14 4 nslot) 0x18 4 0) 0x80 4 0) 0x84 4 0)

/-! ### Rings (R181) -/

/-- A counter of a ring. -/
def count181 (m : Bytes) (r : RingAt) (off : Nat) : Nat := Bytes.num m (globBytes (r.desc + off) 4)
/-- Set a counter of a ring, modulo 2^32. -/
def setCount181 (m : Bytes) (r : RingAt) (off v : Nat) : Bytes := Bytes.put m (globBytes (r.desc + off) 4) (toBytes 4 v)

/-- The state of slot q mod NSLOT: free, reserved, published or taken, by the codes 0 to 3 that the model gives them (log 20). -/
def slot181 (m : Bytes) (r : RingAt) (q : Nat) : Nat :=
  let j := q % 2 ^ r.nlog
  ((m (.glob (r.states + j / 4))).toNat >>> (2 * (j % 4))) % 4

/-- Set the state of slot q mod NSLOT. -/
def setSlot181 (m : Bytes) (r : RingAt) (q v : Nat) : Bytes :=
  let j := q % 2 ^ r.nlog
  let b := m (.glob (r.states + j / 4))
  let sh := 2 * (j % 4)
  Bytes.put m [.glob (r.states + j / 4)] [(b &&& ~~~((3 : Byte) <<< sh)) ||| ((BitVec.ofNat 8 v) <<< sh)]

/-- "q is in [x, y)". -/
def within181 (q x y : Nat) : Bool :=
  decide (BitVec.ofNat 32 q - BitVec.ofNat 32 x < BitVec.ofNat 32 y - BitVec.ofNat 32 x)

/-- How far a frontier advances over slots of a state, up to an end; no more than the ring's slots and one (a ring whose counters
are sound never has more, R179). -/
def advance181 (m : Bytes) (r : RingAt) (start stop v : Nat) : Nat :=
  ((List.range (2 ^ r.nlog + 1)).takeWhile (fun j => decide ((start + j) % 2 ^ 32 ≠ stop) && slot181 m r (start + j) == v)).length

/-- One ring instruction on one item (the table of R181): the bytes after it, and what d receives. -/
def act181 (op q : Nat) (m : Bytes) (r : RingAt) : Bytes × Nat :=
  let rsv := count181 m r 0x10
  let free := count181 m r 0x14
  let reld := count181 m r 0x18
  let pub := count181 m r 0x80
  let take := count181 m r 0x84
  match op with
  | 0 =>
    if free = 0 then (m, 0xFFFFFFFF)
    else (setCount181 (setCount181 (setSlot181 m r rsv 1) r 0x10 (rsv + 1)) r 0x14 (free - 1), rsv)
  | 1 =>
    if within181 q reld rsv && slot181 m r q == 1 then
      let m1 := setSlot181 m r q 2
      (setCount181 m1 r 0x80 (pub + advance181 m1 r pub rsv 2), 0)
    else (m, 0xFFFFFFFF)
  | 2 => if take = pub then (m, 0xFFFFFFFF) else (setCount181 (setSlot181 m r take 3) r 0x84 (take + 1), take)
  | _ =>
    if within181 q reld take && slot181 m r q == 3 then
      let m1 := setSlot181 m r q 0
      let n := advance181 m1 r reld take 0
      (setCount181 (setCount181 m1 r 0x18 (reld + n)) r 0x14 (free + n), 0)
    else (m, 0xFFFFFFFF)

/-- A ring instruction: its EX and its row of R181. -/
def ringRule : Instr → Option (Option Ex × Nat)
  | .rgrsv x _ _ _ => some (x, 0)
  | .rgpub x _ _ _ _ => some (x, 1)
  | .rgtake x _ _ _ => some (x, 2)
  | .rgfree x _ _ _ _ => some (x, 3)
  | _ => none

/-- A ring instruction issues; each lane names a ring of this node whose bytes exist and bear no poison, and rings of different lanes
are the same or lie apart. -/
abbrev RingPre (x : Option Ex) (i : Instr) (s : State) (w : Wave) (t : Team) (l : Launch) (ring : Nat → RingAt) : Prop :=
  i.wf = true ∧ Issues s x (wordOf i) w t l ∧ Clean s x (wordOf i) w ∧ Completes s w t ∧ homeWindows s = true ∧
  (∀ lane ∈ maskLanes (w.active x), operand s x (wordOf i) w .a 2 64 lane % 256 = 0 ∧
    ring179 s t l (operand s x (wordOf i) w .a 2 64 lane) = some (ring lane) ∧
    lands s l t .global .rmw false 256 (operand s x (wordOf i) w .a 2 64 lane) = true ∧
    present (ringBytes (ring lane)) = true ∧ poisoned s (ringBytes (ring lane)) = false) ∧
  (∀ p ∈ maskLanes (w.active x), (ring p).desc + 256 ≤ (ring p).states ∨ (ring p).states + (2 ^ (ring p).nlog + 3) / 4 ≤ (ring p).desc) ∧
  ∀ p ∈ maskLanes (w.active x), ∀ q ∈ maskLanes (w.active x), ring p = ring q ∨
    ∀ o ∈ ringBytes (ring p), (ringBytes (ring q)).contains o = false

/-- A ring instruction issues; every lane names a ring of another node, and none traps there (log 26). -/
abbrev RingAwayPre (x : Option Ex) (i : Instr) (s : State) (w : Wave) (t : Team) (l : Launch) : Prop :=
  i.wf = true ∧ Issues s x (wordOf i) w t l ∧ Clean s x (wordOf i) w ∧ Completes s w t ∧
  ∀ lane ∈ maskLanes (w.active x), operand s x (wordOf i) w .a 2 64 lane % 256 = 0 ∧
    ∃ m ∈ leaves s l t .global .rmw false 256 (operand s x (wordOf i) w .a 2 64 lane),
      s.awayRing t l m (operand s x (wordOf i) w .a 2 64 lane) = none

/-- A request for each lane stands in its stream, and the entry waits for as many answers (R357, R359). -/
abbrev RingSent (x : Option Ex) (op : Nat) (i : Instr) (s s1 : State) (w w1 : Wave) (t : Team) (l : Launch) : Prop :=
  let addr (lane : Nat) : Nat := operand s x (wordOf i) w .a 2 64 lane
  let reqs := requests358 s t l w (maskLanes (w.active x)) (node359 s l t .rmw 256 addr) addr (fun _ => s.nextNum)
    (fun lane => .ring lane (wordOf i).d7 op (BitVec.ofNat 32 (operand s x (wordOf i) w .b 1 32 lane)))
  s1 = { s with waves := s1.waves, packets := s.packets ++ reqs, nextNum := s.nextNum + 1 + reqs.length } ∧
  s1.wave? w.ref = some w1 ∧ s1.waves.map (otherWave w.ref) = s.waves.map (otherWave w.ref) ∧ (∀ a, s1.mem.read a = s.mem.read a) ∧
  LxWaveFrom s x (wordOf i) w w w1 w.ord reqs.length ∧ w1.pend.length = w.pend.length + 1

/-- The trap of a lane of a ring instruction (R163, R181): alignment, the segment, a poisoned descriptor, NLOG 0, a state array that cannot be
reached, a poisoned slot state. -/
def trap181 (s : State) (x : Option Ex) (word : Word) (w : Wave) (t : Team) (l : Launch) (lane : Nat) : Option (Nat × Nat) :=
  let addr := operand s x word w .a 2 64 lane
  if addr % 256 ≠ 0 then some (2, 8)
  else match trap163 s l t .global .rmw false 256 addr with
    | some b => some b
    | none => match locs s l t .global .rmw false 256 addr with
      | .glob k :: rest =>
        let cfg := BitVec.ofNat 32 (Bytes.num s.peek (globBytes (k + 8) 4))
        let nlog := (cfg.extractLsb' 8 5).toNat
        let states := (Bytes.num s.peek (globBytes k 8) + 2 ^ (nlog + (cfg.extractLsb' 0 5).toNat)) % 2 ^ 64
        if poisoned s (.glob k :: rest) then some (0x0B, 1)
        else if nlog = 0 then some (2, 8)
        else match s.globalKey t.node t.die l.ccn t.segs t.world states ((2 ^ nlog + 3) / 4) .rmw with
          | .error e => some (e.1, e.2.1)
          | .ok st => if poisoned s (globBytes st ((2 ^ nlog + 3) / 4)) then some (0x0B, 1) else none
      | _ => none

/-- Every acting lane of a ring instruction traps. -/
abbrev RingTraps (x : Option Ex) (i : Instr) (s : State) (w : Wave) (t : Team) (l : Launch) : Prop :=
  i.wf = true ∧ Issues s x (wordOf i) w t l ∧ Clean s x (wordOf i) w ∧ Completes s w t ∧ homeWindows s = true ∧
  ItemsTrap (w.active x) (trap181 s x (wordOf i) w t l) s w t l ∧
  ∀ lane ∈ maskLanes (w.active x), ∃ b ∈ trap181 s x (wordOf i) w t l lane, b.1 ≠ 0

/-- The group of R331 takes its trap, and no ring changes. -/
abbrev RingTrapped (x : Option Ex) (i : Instr) (s s1 s' : State) (w w1 w' : Wave) (t : Team) (l : Launch) : Prop :=
  let bad (lane : Nat) : Option (Nat × Nat) := trap181 s x (wordOf i) w t l lane
  s1 = { noticed374 s t w l (worlds374 (w.active x) false bad) with waves := s1.waves, nextNum := s.nextNum + 1 } ∧
  s1.wave? w.ref = some w1 ∧ s1.waves.map (otherWave w.ref) = s.waves.map (otherWave w.ref) ∧ (∀ a, s1.mem.read a = s.mem.read a) ∧
  StoppedAt s x w w1 bad ∧ RegsSame w w1 ∧ w1.preds = w.preds ∧
  GroupTrapped (w.active x) bad (fun lane => operand s x (wordOf i) w .a 2 64 lane) s1 s' w w1 w' t l

/-- The acting lanes have acted in ascending order, each on what the ones before it left. -/
abbrev RingPost (x : Option Ex) (op : Nat) (i : Instr) (s s1 s2 : State) (w w1 w2 : Wave) (ring : Nat → RingAt) : Prop :=
  Updates x 1 (wordOf i) s s1 s2 w w1 w2 (maskLanes (w.active x)) (fun lane => ringBytes (ring lane))
    ((maskLanes (w.active x)).foldl (fun (r : Bytes × (Nat → Nat)) lane =>
      let a := act181 op (operand s x (wordOf i) w .b 1 32 lane) r.1 (ring lane)
      (a.1, fun j => if j = lane then a.2 else r.2 j)) (s.peek, fun _ => 0))

/-! ### Ranked lists (R208 to R216) -/

/-- A word of a team's accumulator memory. -/
def acmWord (s : State) (t : TeamRef) (a : Nat) : Nat := ofBytes ((List.range 4).map (fun j => acmByte s t (4 * a + j)))

/-- K of a CFG word (R208). -/
def k208 (cfg : Nat) : Nat := ((BitVec.ofNat 32 cfg).extractLsb' 0 11).toNat
/-- KT of a CFG word. -/
def kt208 (cfg : Nat) : Nat := ((BitVec.ofNat 32 cfg).extractLsb' 12 2).toNat

/-- Whether a list with a CFG lies at a word address in an allocation (R210). -/
def legal210 (size l cfg : Nat) : Bool :=
  decide (l % 4 = 0) && decide (1 ≤ k208 cfg) && decide (k208 cfg ≤ 1024) && decide (kt208 cfg ≠ 3) && decide (l + 4 + 2 * k208 cfg ≤ size)

/-- The least key of a key type (R208). -/
def least208 (kt : Nat) : Nat := if kt = 0 then 0xFF800000 else if kt = 1 then 0x80000000 else 0

/-- The rank of a key in its type (R209): for .f32, −0 is below +0. -/
def rank209 (kt k : Nat) : Int :=
  let b := BitVec.ofNat 32 k
  if kt = 0 then (if b.msb then -1 - ((b &&& 0x7FFFFFFF).toNat : Int) else (b.toNat : Int)) else if kt = 1 then b.toInt else b.toNat

/-- Whether pair p stands before or with pair q: p is better, or they are alike (R209). -/
def before209 (kt : Nat) (p q : Nat × Nat) : Bool :=
  if rank209 kt p.1 = rank209 kt q.1 then decide (p.2 ≤ q.2) else decide (rank209 kt q.1 < rank209 kt p.1)

/-- The pairs of a list, the best first. -/
def pairs208 (s : State) (t : TeamRef) (l : Nat) : List (Nat × Nat) :=
  (List.range (min (acmWord s t (l + 1)) (k208 (acmWord s t l)))).map (fun j => (acmWord s t (l + 4 + 2 * j), acmWord s t (l + 5 + 2 * j)))

/-- The words of a list behind its CFG: COUNT, KTHKEY, 0, then every rank (R208). -/
def words208 (kt cap : Nat) (ps : List (Nat × Nat)) : List Nat :=
  [ps.length, if ps.length = cap then (ps.getLastD (least208 kt, 0)).1 else least208 kt, 0] ++
    (List.range cap).flatMap (fun j => [(ps.getD j (least208 kt, 0xFFFFFFFF)).1, (ps.getD j (least208 kt, 0xFFFFFFFF)).2])

/-- The K best pairs of a list and pushed pairs, a NaN key never entering (R209, R214). -/
def pushed209 (kt cap : Nat) (old new : List (Nat × Nat)) : List (Nat × Nat) :=
  ((old ++ new.filter (fun p => !(kt == 0 && (fp32.decode p.1).isNan))).mergeSort (before209 kt)).take cap

/-- A list holds its pairs in rank order, none of them a NaN. -/
def sorted209 (kt : Nat) (ps : List (Nat × Nat)) : Bool :=
  (List.range ps.length).all (fun j => decide (j + 1 = ps.length) || before209 kt (ps.getD j (0, 0)) (ps.getD (j + 1) (0, 0))) &&
    ps.all (fun p => !(kt == 0 && (fp32.decode p.1).isNan))

/-- Accumulator bytes of the team hold `words` from word `l` on, and as before elsewhere. -/
abbrev AcmHolds (s s' : State) (t : TeamRef) (l : Nat) (words : List Nat) : Prop :=
  ∀ b, acmByte s' t b = if 4 * l ≤ b ∧ b < 4 * (l + words.length)
    then (toBytes 4 (words.getD (b / 4 - l) 0)).getD (b % 4) 0 else acmByte s t b

/-- A team but for its accumulator memory and threshold slots. -/
def listless (t : Team) : Team := { t with acm := [], thr := [] }

/-- Nothing but the wave, and accumulator memory and threshold slots of its team, has changed. -/
abbrev OnlyLists (s s' : State) (w : Wave) (t : Team) (k : Nat) (thr : List (Option Nat)) : Prop :=
  s' = { s with waves := s'.waves, teams := s'.teams, nextNum := s.nextNum + k } ∧
  s'.teams.map (fun m => if m.ref = t.ref then listless m else m) = s.teams.map (fun m => if m.ref = t.ref then listless m else m) ∧
  s'.waves.map (otherWave w.ref) = s.waves.map (otherWave w.ref) ∧ (s'.team? t.ref).map (·.thr) = some thr

/-- RKINIT issues with a legal list and a CFG of K and KT alone (R211). -/
abbrev RkinitPre (x : Option Ex) (i : Instr) (s : State) (w : Wave) (t : Team) (l : Launch) : Prop :=
  let cfg := kReg w (wordOf i).b7
  WavePre x i s w t l ∧ legal210 l.kernel.acm (kReg w (wordOf i).a7) cfg = true ∧ cfg = k208 cfg + 2 ^ 12 * kt208 cfg

/-- The list is empty, and bound to no slot. -/
abbrev RkinitPost (x : Option Ex) (i : Instr) (s s' : State) (w w' : Wave) (t : Team) : Prop :=
  let l := kReg w (wordOf i).a7
  let cfg := kReg w (wordOf i).b7
  s'.wave? w.ref = some w' ∧ GoneFrom s x w w w' ∧
  OnlyLists s s' w t 0 (t.thr.map (fun q => if q = some l then none else q)) ∧
  AcmHolds s s' t.ref l (cfg :: words208 (kt208 cfg) (k208 cfg) [])

/-- RKTHR issues, with z or a legal list; threshold slots are four. -/
abbrev RkthrPre (x : Option Ex) (i : Instr) (s : State) (w : Wave) (t : Team) (l : Launch) : Prop :=
  let a := (wordOf i).a7
  WavePre x i s w t l ∧ t.thr.length = 4 ∧ (∀ q ∈ t.thr, ∀ m ∈ q, m < 2 ^ 32) ∧
  (a ≠ 116 → legal210 l.kernel.acm (kReg w a) (acmWord s t.ref (kReg w a)) = true)

/-- The slot holds the list, or none; whatever else was bound to either is unbound, and the CFG words say so (R212). -/
abbrev RkthrPost (x : Option Ex) (i : Instr) (s s' : State) (w w' : Wave) (t : Team) : Prop :=
  let slot := (wordOf i).b7
  let l := kReg w (wordOf i).a7
  let binds := (wordOf i).a7 ≠ 116
  s'.wave? w.ref = some w' ∧ GoneFrom s x w w w' ∧
  OnlyLists s s' w t 0 ((List.range 4).map (fun j => if j = slot then (if binds then some l else none)
    else if binds ∧ t.thr.getD j none = some l then none else t.thr.getD j none)) ∧
  ∀ b, acmByte s' t.ref b =
    if binds ∧ b / 4 = l then (toBytes 4 (acmWord s t.ref l % 2 ^ 16 + slot * 2 ^ 16 + 2 ^ 18)).getD (b % 4) 0
    else if t.thr.getD slot none = some (b / 4) then (toBytes 4 (acmWord s t.ref (b / 4) % 2 ^ 16)).getD (b % 4) 0 else acmByte s t.ref b

/-- The predicate of PTHR: the key of a lane is at or above KTHKEY of the list bound to the slot (R30, R213). -/
def passes213 (s : State) (t : Team) (slot key : Nat) : Bool :=
  match t.thr.getD slot none with
  | none => true
  | some l =>
    let kt := kt208 (acmWord s t.ref l)
    !(kt == 0 && (fp32.decode key).isNan) && decide (rank209 kt (acmWord s t.ref (l + 2)) ≤ rank209 kt key)

/-- PTHR writes its predicate and nothing else. -/
abbrev PthrPost (x : Option Ex) (i : Instr) (s s' : State) (w w' : Wave) (t : Team) : Prop :=
  OnlyWave s s' w w' ∧ GoesOn s x w w' ∧ RegsSame w w' ∧
  PredBecomes w w' (w.active x) (wordOf i).d7 (fun lane => passes213 s t (wordOf i).b7 (operand s x (wordOf i) w .a 1 32 lane))

/-- A legal list in rank order. -/
abbrev ListAt (s : State) (t : TeamRef) (size l : Nat) : Prop :=
  legal210 size l (acmWord s t l) = true ∧ sorted209 (kt208 (acmWord s t l)) (pairs208 s t l) = true

/-- RKPUSH issues at a list. -/
abbrev RkpushPre (x : Option Ex) (i : Instr) (s : State) (w : Wave) (t : Team) (l : Launch) : Prop :=
  AtOncePre x i s w t l ∧ ListAt s t.ref l.kernel.acm (kReg w (wordOf i).d7)

/-- The list holds the K best of its pairs and the acting lanes' pairs, in rank order. -/
abbrev RkpushPost (x : Option Ex) (i : Instr) (s s' : State) (w w' : Wave) (t : Team) : Prop :=
  let l := kReg w (wordOf i).d7
  let cfg := acmWord s t.ref l
  let new := (maskLanes (w.active x)).map (fun lane => (operand s x (wordOf i) w .a 1 32 lane, operand s x (wordOf i) w .b 1 32 lane))
  s'.wave? w.ref = some w' ∧ LxWave s x (wordOf i) w w' w.ord ∧ w'.pend = w.pend.map (counted w.exec) ∧ OnlyLists s s' w t 1 t.thr ∧
  AcmHolds s s' t.ref l (cfg :: words208 (kt208 cfg) (k208 cfg) (pushed209 (kt208 cfg) (k208 cfg) (pairs208 s t.ref l) new))

/-- The team whose accumulator memory holds the source of RKMERGE (R215). -/
def source215 (s : State) (w : Wave) (t : Team) (b : Nat) : Option TeamRef :=
  if kReg w (b + 1) = 0xFFFFFFFF then some t.ref else (s.clusterTeam t (kReg w (b + 1))).map (·.ref)

/-- RKMERGE issues at two lists of one key type. -/
abbrev RkmergePre (x : Option Ex) (i : Instr) (s : State) (w : Wave) (t : Team) (l : Launch) (u : TeamRef) : Prop :=
  let a := kReg w (wordOf i).a7
  let b := kReg w (wordOf i).b7
  WavePre x i s w t l ∧ source215 s w t (wordOf i).b7 = some u ∧ ListAt s t.ref l.kernel.acm a ∧ ListAt s u l.kernel.acm b ∧
  kt208 (acmWord s t.ref a) = kt208 (acmWord s u b)

/-- The list holds the K best of the pairs of both. -/
abbrev RkmergePost (x : Option Ex) (i : Instr) (s s' : State) (w w' : Wave) (t : Team) (u : TeamRef) : Prop :=
  let l := kReg w (wordOf i).a7
  let cfg := acmWord s t.ref l
  s'.wave? w.ref = some w' ∧ GoneFrom s x w w w' ∧ OnlyLists s s' w t 0 t.thr ∧
  AcmHolds s s' t.ref l (cfg :: words208 (kt208 cfg) (k208 cfg)
    (pushed209 (kt208 cfg) (k208 cfg) (pairs208 s t.ref l) (pairs208 s u (kReg w (wordOf i).b7))))

/-- RKREAD issues at a legal list. -/
abbrev RkreadPre (x : Option Ex) (i : Instr) (s : State) (w : Wave) (t : Team) (l : Launch) : Prop :=
  let a := kReg w (wordOf i).a7
  WavePre x i s w t l ∧ legal210 l.kernel.acm a (acmWord s t.ref a) = true ∧
  (isK (wordOf i).d7 = true → uniform s x (wordOf i) w .b 1 = true)

/-- Each acting lane holds the key and the index of its rank, beyond COUNT the least key and all ones. -/
abbrev RkreadPost (x : Option Ex) (i : Instr) (s s' : State) (w w' : Wave) (t : Team) : Prop :=
  let l := kReg w (wordOf i).a7
  OnlyWave s s' w w' ∧ GoesOn s x w w' ∧ w'.preds = w.preds ∧
  LanesHold s w w' (w.active x) 2 (dest s x (wordOf i) w) (fun lane =>
    let p := (pairs208 s t.ref l).getD (operand s x (wordOf i) w .b 1 32 lane) (least208 (kt208 (acmWord s t.ref l)), 0xFFFFFFFF)
    p.1 + 2 ^ 32 * p.2)

/-! ### The end of a transaction (R189 to R194) -/

/-- TXEND issues in a transaction, whose depth is at least 1; what it wrote exists. -/
abbrev TxendPre (x : Option Ex) (i : Instr) (s : State) (w : Wave) (t : Team) (l : Launch) (tx : Tx) : Prop :=
  WavePre x i s w t l ∧ homeWindows s = true ∧ w.tx = some tx ∧ 1 ≤ tx.depth ∧ present (tx.overlay.map Prod.fst) = true

/-- At a greater depth only DEPTH and the alternatives recorded there go. -/
abbrev InnerEnded (x : Option Ex) (s s' : State) (w w' : Wave) (tx : Tx) : Prop :=
  OnlyWave s s' w w' ∧ GoneFrom s x w { w with tx := some { tx with
    depth := tx.depth - 1, alts := tx.alts.filter (fun a => decide (a.depth < tx.depth)) } } w'

/-- At depth 1 every write of the transaction has become visible, and the transaction is closed. -/
abbrev Committed (x : Option Ex) (s s' : State) (w w' : Wave) (tx : Tx) : Prop :=
  s'.wave? w.ref = some w' ∧ GoneFrom s x w { w with tx := none, keptBegin := none } w' ∧
  Stored s s' w 0 (fun o => (tx.overlay.map Prod.fst).contains o) (committed tx s.peek)

/-- The open round of the team after a contribution that the transaction has held (R187). -/
def round187 (w : Wave) (t : Team) (c : Round) : Round :=
  let r := t.round.getD { c with parts := [], done := [] }
  { r with parts := c.parts ++ r.parts, done := w.ref.num :: r.done }

/-- The combination that a completed round writes: the identity of its operation where no wave contributed a value (R141, R142). -/
def total187 (r : Round) : Nat :=
  let vs := lanes.filterMap (fun n => (r.parts.find? (fun p => p.1 == n)).map (fun p => p.2.toNat))
  if vs = [] then identity142 r.ty r.op else reduced r.ty r.op (Rm.ofCode r.rm) r.sat vs

/-- A contribution that a transaction holds: of the wave itself, of a type and operation of R141, at a legal record, and in agreement with
the round that is open. -/
abbrev HeldRound (s : State) (w : Wave) (t : Team) (l : Launch) (c : Round) : Prop :=
  w.ref.num < 32 ∧ (c.parts = [] ∨ c.parts.map Prod.fst = [w.ref.num]) ∧ (c.ty = 0 ∨ c.ty = 1 ∨ c.ty = 8) ∧ c.op < 6 ∧ (c.ty = 8 → c.op < 3) ∧
  c.off % 4 = 0 ∧ c.off + 8 ≤ l.kernel.scr ∧
  s.windowFault t c.off 8 = none ∧ (s.scrLocs t c.off 8).Nodup ∧ present (s.scrLocs t c.off 8) = true ∧
  ∀ r ∈ t.round, r.done.contains w.ref.num = false ∧ (∀ p ∈ r.parts, p.1 ≠ w.ref.num) ∧
    r.off = c.off ∧ r.op = c.op ∧ r.ty = c.ty ∧ r.rm = c.rm ∧ r.sat = c.sat

/-- The writes have become visible, and the contribution has joined its round, which stays open or has written its record. -/
abbrev CommittedRound (x : Option Ex) (s s' : State) (w w' : Wave) (t : Team) (tx : Tx) (c : Round) : Prop :=
  let r := round187 w t c
  let open_ := awaited141 s r t
  let ls := s.scrLocs t c.off 8
  let m := committed tx s.peek
  s'.wave? w.ref = some w' ∧ GoneFrom s x w { w with tx := none, keptBegin := none } w' ∧
  s' = { s with waves := s'.waves, deliveries := s'.deliveries, mem := s'.mem, poison := s'.poison, teams := s'.teams } ∧
  s'.teams.map roundless = s.teams.map roundless ∧ s'.waves.map (watcher w.ref) = s.waves.map (watcher w.ref) ∧
  (∀ u ∈ s'.teams, u.ref = t.ref → u.round = if open_ then some r else none) ∧
  (∀ u ∈ s'.teams, u.ref ≠ t.ref → ∀ v ∈ s.teams, v.ref = u.ref → u.round = v.round) ∧
  ∀ o, s'.peek o = (if open_ then m else Bytes.put m ls (toBytes 4 (total187 r) ++ toBytes 4 (Bytes.num m (ls.drop 4) + 1))) o

/-- RETRY or TXABORT issues in a transaction; RETRY has an alternative, or a line to wait for. -/
abbrev LeavePre (x : Option Ex) (i : Instr) (s : State) (w : Wave) (t : Team) (l : Launch) (tx : Tx) : Prop :=
  WavePre x i s w t l ∧ w.tx = some tx

/-- The wave stands as its transaction leaves it: no register and no predicate changes, and no byte. -/
abbrev Left (s s' : State) (w w' w0 : Wave) : Prop :=
  OnlyWave s s' w w' ∧
  w' = { w0 with pcs := w'.pcs, boosted := false, group := w'.group, readyAt := s.time, groupIssues := w'.groupIssues }

/-- RETRY with an alternative goes to it, keeping what has been read and dropping what was written since; without one the wave sleeps
on the lines it has read, and will begin again at its outermost TXBEGIN. -/
abbrev RetryPost (s s' : State) (w w' : Wave) (tx : Tx) : Prop :=
  match tx.alts with
  | a :: rest =>
    Left s s' w w' { w with pend := w'.pend, tx := some { tx with
      depth := a.depth, alts := rest, overlay := a.overlay, wlines := a.wlines, redux := a.redux } } ∧
    w'.pend = w.pend.map (fun e => if e.key < s.nextNum then counted w.exec e else e) ∧
    ∀ lane ∈ lanes, w'.pcOf lane = if w.live.getLsbD lane && moves334 w lane then a.target else w.pcOf lane
  | [] =>
    Left s s' w w' { w with pend := w'.pend, tx := none, keptBegin := none, status := .asleep, wake := tx.rlines, sleepBegin := s.time } ∧
    w'.pend = w.pend.map (fun e => if e.key < s.nextNum then counted w.exec e else e) ∧
    ∀ lane ∈ lanes, w'.pcOf lane = if moves334 w lane then tx.beginPc else w.pcOf lane

/-- TXABORT discards the transaction's writes and unfinished instructions, records its cause, and goes to the abort target. -/
abbrev TxabortPost (s s' : State) (w w' : Wave) (tx : Tx) : Prop :=
  Left s s' w w' { w with pend := w'.pend, tx := none, txCause := 3, keptBegin := none } ∧
  w'.pend = (w.pend.filter (fun e => decide (e.key < tx.firstPend))).map (fun e => if e.key < s.nextNum then counted w.exec e else e) ∧
  ∀ lane ∈ lanes, w'.pcOf lane = if moves334 w lane then tx.abortPc else w.pcOf lane


/-! ### Issuing engine commands (R74 to R77, R207, R217 to R222, R225, R229) -/

/-- The EX of an engine command. -/
def engineRule : Instr → Option (Option Ex)
  | .copy x _ _ _ _ => some x
  | .copyx x _ _ _ _ => some (some x)
  | .gath x _ _ _ _ => some (some x)
  | .scatx x _ _ _ _ => some (some x)
  | .mma x _ _ _ => some x
  | .mmab x _ _ _ => some (some x)
  | .mmas x _ _ _ => some (some x)
  | .attn x _ _ _ _ => some x
  | .attnfin x _ _ _ => some (some x)
  | .fold x _ _ _ => some (some x)
  | .disp x _ _ _ _ => some x
  | .axedit x _ _ _ => some (some x)
  | .axsync x _ _ _ => some (some x)
  | .launch x _ _ _ => some (some x)
  | _ => none

/-- The queue of a command (R217). -/
def queue217 (word : Word) (x : Option Ex) : Queue :=
  if word.maj = 0x78 then .copy else if word.maj = 0x79 then .matrix else if word.maj = 0x7A then .attn
  else if exTy x = 1 ∨ exTy x = 2 then .axis else .disp

/-- Entries of a stream of a queue. -/
def depth217 (q : Queue) : Nat := match q with
  | .copy => 32
  | .attn => 8
  | .matrix => 16
  | .axis => 64
  | .disp => 16

/-- The stream of a wave's team in a queue, or of its context for the axis queue (R219). -/
def stream219 (t : Team) (l : Launch) (q : Queue) : StreamRef := if q = .axis then .ctx t.node l.ccn else .team t.ref q

/-- How a command signals its completion, from fl and the words behind its descriptor (R75). -/
def done75 (fl : Nat) (c : Nat → Nat) : Done :=
  let w (j : Nat) : Word := BitVec.ofNat 32 (c j)
  if fl = 12 then .ws (c 0) (w 1) else if fl = 13 then .wsa (c 0) (w 1) else if fl = 14 then .wc (w 0) (w 1)
  else if fl = 15 then .wg (w 1 ++ w 0) (w 2) else .flag fl

/-- Descriptor word `j` of a command. -/
def desc77 (w : Wave) (word : Word) (j : Nat) : Nat := kReg w (word.a7 + j)

/-- Words of a command's descriptor (R222 to R257), and of its completion operands. -/
def words77 (word : Word) (x : Option Ex) : Nat × Nat :=
  (descLen word.maj (exTy x), if word.fn < 12 then 0 else if word.fn = 15 then 3 else 2)

/-- The completion operands of a command. -/
def signal75 (w : Wave) (word : Word) (x : Option Ex) : Done :=
  done75 word.fn (fun j => desc77 w word ((words77 word x).1 + j))

/-- Whether the address of a completion word is fit to be written (R76): aligned, and of a legal place. -/
def fit76 (s : State) (l : Launch) (t : Team) (d : Done) : Bool :=
  let ok (r : Landing) : Bool := match r with
    | .trap _ _ => false
    | _ => true
  match d with
  | .ws o _ => o % 4 == 0 && ok (s.land l t .scratch o 4 .write true)
  | .wsa o _ => o % 4 == 0 && ok (s.land l t .scratch o 4 .rmw false)
  | .wc a _ => a.toNat % 4 == 0 && ok (s.land l t .cluster a.toNat 4 .write true)
  | .wg a _ => a.toNat % 4 == 0 && ok (s.land l t .global a.toNat 4 .write false)
  | _ => true

/-- Lanes of b (and of b + 1) whose marks a command consumes (R229, R340). -/
def lanes229 (word : Word) (x : Option Ex) (act : Mask) : List Nat :=
  (if word.maj = 0x78 ∧ exTy x ≤ 1 ∨ word.maj = 0x7A ∧ exTy x = 0 then [0, 1, 2, 3, 4, 5] else []) ++
    (if word.maj = 0x78 ∧ exTy x ≠ 0 ∨ word.maj = 0x7B ∧ exTy x = 0 then maskLanes act else [])

/-- Whether b is a pair: COPYX and DISP. -/
def pair229 (word : Word) (x : Option Ex) : Bool := (word.maj == 0x78 && exTy x == 1) || (word.maj == 0x7B && exTy x == 0)

/-- An engine command issues, and its stream accepts it: nothing of the wave is unfinished (R222), there is room (R77), the completion
word may be written (R76), and the descriptor passes the checks of its command (R221; `descCheck` lists them command by command). -/
abbrev CommandPre (x : Option Ex) (i : Instr) (s : State) (w : Wave) (t : Team) (l : Launch) : Prop :=
  let word := wordOf i
  let q := queue217 word x
  let dc := descCheck word.maj (exTy x) (exFx x) (desc77 w word) (w.active x)
  i.wf = true ∧ Issues s x word w t l ∧ Clean s x word w ∧ w.pend = [] ∧ s.inFlight w.ref = false ∧
  (((s.stream? (stream219 t l q)).map (fun m => decide (m.cmds.length < depth217 q))).getD true) = true ∧
  (word.fn < 12 → w.flags.getD word.fn 0 < 63) ∧ fit76 s l t (signal75 w word x) = true ∧
  dc.ok = true ∧ dc.ranges.all (fun r => r.lies l.kernel) = true ∧
  (word.b7 ≠ 116 → ∀ lane ∈ lanes229 word x (w.active x), clean w word.b7 lane = true ∧
    (pair229 word x = true → clean w (word.b7 + 1) lane = true)) ∧
  (word.maj = 0x7B ∧ exTy x = 0 → ∀ lane ∈ maskLanes (w.active x),
    laneVal s w 1 (word.b7 + 1) lane % 64 = 0 ∧ laneVal s w 1 (word.b7 + 1) lane + desc77 w word 1 ≤ l.kernel.scr)

/-- The lanes of a vector operand of a command; none for z. -/
def laneList (s : State) (w : Wave) (c : Nat) : List Word :=
  if c = 116 then [] else lanes.map (fun lane => BitVec.ofNat 32 (laneVal s w 1 c lane))

/-- The command that AFTER makes it wait for: the wave's latest in that queue that has not completed (R220, R225). -/
def after225 (s : State) (w : Wave) (x : Option Ex) : Option (Queue × Nat) :=
  let of (q : Queue) : Option (Queue × Nat) :=
    ((s.stream? (.team w.ref.team q)).bind (fun m => (m.cmds.reverse.find? (fun c => c.wave == some w.ref && c.join.isNone)))).map
      (fun c => (q, c.seq))
  match exFx x / 4 with
  | 1 => of .copy
  | 2 => of .attn
  | 3 => of .matrix
  | _ => none

/-- A stream with no command yet (R218). -/
def stream218 (s : State) (r : StreamRef) : Stream := (s.stream? r).getD ⟨r, 0, [], false, none, []⟩

/-- The stream has taken the command as its next, with its operands as they stood; its number is in d, its flag counts it; and
nothing else has changed. -/
abbrev CommandPost (x : Option Ex) (i : Instr) (s s' : State) (w w' : Wave) (t : Team) (l : Launch) : Prop :=
  let word := wordOf i
  let r := stream219 t l (queue217 word x)
  let m := stream218 s r
  let n := (words77 word x).1 + (words77 word x).2
  let pred := after225 s w x
  s'.wave? w.ref = some w' ∧
  s'.stream? r = some { m with seq := m.seq + 1, cmds := m.cmds ++ [{
    seq := m.seq + 1, wave := some w.ref, word := word, exw := (x.map Ex.word).getD 0,
    ops := (List.range n).map (fun j => BitVec.ofNat 32 (desc77 w word j)), mask := w.active x, b0 := laneList s w word.b7,
    b1 := if pair229 word x then laneList s w (word.b7 + 1) else [], done := signal75 w word x,
    state := if pred.isSome then .held else .queued, pred := pred, progress := 0, pins := [], join := none }] } ∧
  s' = { s with waves := s'.waves, streams := s'.streams } ∧
  s'.streams.filter (fun p => p.ref != r) = s.streams.filter (fun p => p.ref != r) ∧
  s'.waves.map (otherWave w.ref) = s.waves.map (otherWave w.ref) ∧
  GoneFrom s x w { w with k := w'.k, flags := w'.flags } w' ∧
  (∀ j, w'.k.getD j 0 = if word.d7 ≠ 116 ∧ j = word.d7 - 88 then BitVec.ofNat 32 (m.seq + 1) else w.k.getD j 0) ∧
  (∀ j ∈ List.range 12, w'.flags.getD j 0 = w.flags.getD j 0 + if j = word.fn then 1 else 0)

/-- The queues that QFENCE names by the bits of its mask (R207). -/
def queues207 (x : Option Ex) (i : Instr) : List Queue :=
  ([(0, Queue.copy), (1, .attn), (2, .matrix), (3, .axis), (4, .disp)].filter (fun p => (imm x i).toNat.testBit p.1)).map Prod.snd

/-- QFENCE issues; every named stream has room, and its flag can count. -/
abbrev QfencePre (x : Option Ex) (i : Instr) (s : State) (w : Wave) (t : Team) (l : Launch) : Prop :=
  WavePre x i s w t l ∧ (∀ q ∈ queues207 x i, (stream218 s (stream219 t l q)).cmds.length < depth217 q) ∧
  ((wordOf i).d7 < 12 → w.flags.getD (wordOf i).d7 0 < 63)

/-- A join stands last in each named stream, all of one number; a flag counts it, unless no queue is named. -/
abbrev QfencePost (x : Option Ex) (i : Instr) (s s' : State) (w w' : Wave) (t : Team) (l : Launch) : Prop :=
  let word := wordOf i
  let qs := queues207 x i
  let n := word.d7
  s'.wave? w.ref = some w' ∧ s' = { s with waves := s'.waves, streams := s'.streams, nextNum := s.nextNum + if qs = [] then 0 else 1 } ∧
  (∀ q ∈ qs, ∃ c ∈ (stream218 s' (stream219 t l q)).cmds.getLast?,
    stream218 s' (stream219 t l q) = { stream218 s (stream219 t l q) with cmds := (stream218 s (stream219 t l q)).cmds ++ [c] } ∧
    c.join = some (s.nextNum, qs) ∧ c.wave = some w.ref ∧ c.done = if n < 12 then .flag n else .none) ∧
  s'.streams.filter (fun p => !(qs.any (fun q => p.ref == stream219 t l q))) =
    s.streams.filter (fun p => !(qs.any (fun q => p.ref == stream219 t l q))) ∧
  s'.waves.map (otherWave w.ref) = s.waves.map (otherWave w.ref) ∧ GoneFrom s x w { w with flags := w'.flags } w' ∧
  ∀ j ∈ List.range 12, w'.flags.getD j 0 = w.flags.getD j 0 + if j = n ∧ qs ≠ [] then 1 else 0

/-! ### Traps of the word, and TRAP and BKPT -/

/-- A trap of the word itself, for every item of the issuing group (R37, R87). -/
def wordTrap87 (w : Wave) (cause detail abort : Nat) : Trap331 :=
  { cause := cause, detail := detail, group := w.exec, pc := w.groupPc, resume := resume335 w w.groupPc, exec := w.exec,
    fallback := w.fallback, abort := abort, entries := withdrawn331 w }

/-- A wave issues. -/
abbrev AtIssue (s : State) (w : Wave) (t : Team) (l : Launch) : Prop :=
  s.stuck = none ∧ s.cur = .wave w.ref ∧ s.wave? w.ref = some w ∧ s.team? w.ref.team = some t ∧ s.launch? w.ref.team.launch = some l

/-- The cause and DETAIL of an illegal word (R88). -/
def illegal88 : Instr → Option (Nat × Nat)
  | .unassignedMajor v => some (1, if v.maj = 0x7E then 4 else 1)
  | .reservedFnValue _ _ => some (1, 2)
  | .exMisuse _ _ => some (1, 3)
  | _ => none

/-- The EX of an instruction, as its encoding gives it. -/
def exAt (i : Instr) : Option Ex :=
  match encode i with
  | [e, _] => some (Ex.ofWord e)
  | _ => none

/-- Whether an instruction stands in program text, other than an illegal word. -/
def issues87 (i : Instr) : Bool := encode i != [] && (illegal88 i).isNone

/-- Of EXIT and TRET, which may end a handler: some item of the group, and of a handler that the wave runs, is live. -/
def lives87 (w : Wave) : Instr → Bool
  | .exit _ => w.exec != 0 && w.handler.all (fun h => h.running &&& w.live != 0)
  | .tret _ => w.exec != 0 && w.handler.all (fun h => h.running &&& w.live != 0)
  | _ => true

/-- The handler-only instructions (R259). -/
def handlerOnly259 : Instr → Bool
  | .tret _ => true
  | .replay _ _ => true
  | .rqdrop _ _ => true
  | _ => false

/-- TRAP and BKPT: EX, cause and code (R153, R263). -/
def code329 : Instr → Option (Option Ex × Nat × Nat)
  | .trap x i => some (x, 0x0F, i.toNat)
  | .bkpt x i => some (x, 0x0E, i.toNat)
  | _ => none

/-- The trap of the acting items of TRAP or BKPT; it is counted in the windows, and its items resume after it (R329, R336). -/
def codeTrap329 (x : Option Ex) (cause code : Nat) (s : State) (w : Wave) : Trap331 :=
  { cause := cause, detail := code, group := w.active x, pc := w.groupPc, resume := resume335 w (w.groupPc + insLen x),
    exec := w.exec, fallback := w.fallback,
    entries := (withdrawn331 w).map (fun e => if e.key < s.nextNum then counted w.exec e else e) }

/-- Where the items stand that a TRAP or BKPT does not stop: the group's others have gone on. -/
def past329 (x : Option Ex) (w : Wave) (lane : Nat) : Nat :=
  aborted189 w (fun l => if w.exec.getLsbD l && !(w.active x).getLsbD l then nextPc w x else w.pcOf l) lane

/-! ### Traps of operand values, for every acting item (R28, R29, R137 to R158) -/

/-- The checks of R156 in order, for a giver, the number of the target wave and `g` registers; with the moves of R157 for the last. -/
def quota156 (s : State) (w : Wave) (t : Team) (a g : Nat) : Option Nat :=
  match s.wave? ⟨w.ref.team, a⟩ with
  | none => some 1
  | some v =>
    let rows := min w.rowBudget (w.quota - g)
    let gain := if v.part = w.part then w.rowBudget - rows else min g (s.freeRows w v.part) / 8 * 8
    let area (quota budget : Nat) : Nat := 128 * (quota - budget)
    let kept := (s.useOf w).spill - (area w.quota w.rowBudget + area v.quota v.rowBudget)
    if v.ref = w.ref ∨ v.live = 0 then some 1
    else if w.quota < g + 8 ∨ w.quota < g + w.wb + 88 then some 2
    else if 256 < v.quota + g then some 3
    else if (w.v.drop (w.quota - g)).any (fun r => r.form.tag == 2 || r.form.tag == 3) = true then some 4
    else if (24 - ((s.core? t.node t.die (t.core.getD 0)).map (·.split)).getD 0) * 2 ^ 16 <
        kept + area (w.quota - g) rows + area (v.quota + g) (min (v.rowBudget + gain) (v.quota + g)) then some 5
    else none

/-- The cause and DETAIL of an instruction whose operand values it does not accept: EX, and the trap that a wave's values raise. -/
def valueRule (i : Instr) : Option (Option Ex × (State → Wave → Team → Option (Nat × Nat))) :=
  let word := wordOf i
  let uni (x : Option Ex) (s : State) (w : Wave) (f : Field) (d : Nat) : Option (Nat × Nat) :=
    if uniform s x word w f 1 then none else some (2, d)
  match i with
  | .mrg x _ _ _ _ => some (x, fun s w _ =>
      let ends (f : Field) : Bool := cut145 (w.active x) (stream145 (w.active x) (fun lane =>
        typed (IntTy.ofCode (exTy x)) (operand s x word w f 1 32 lane)))
      if exFx x = 1 ∧ (ends .a || ends .b) = true then some (0x0D, (if ends .a then 1 else 0) + (if ends .b then 2 else 0)) else none)
  | .wquota x _ _ => some (x, fun s w t =>
      let g := operand s x word w .b 1 32 0
      ((uni x s w .a 2).or (uni x s w .b 3)).or (if g % 8 ≠ 0 ∨ g = 0 ∨ 248 < g then some (2, 8)
        else (quota156 s w t (operand s x word w .a 1 32 0) g).map (fun d => (0x0C, d))))
  | .csrwSstat x _ => some (x, fun s w _ => uni x s w .a 2)
  | .csrwBnd x _ => some (x, fun s w _ =>
      let v := operand s x word w .a 1 32 0
      (uni x s w .a 2).or (if v >>> 16 ≠ 0 ∨ v / 256 < v % 256 ∨ 88 < v / 256 then some (2, 8) else none))
  | .rbal x _ _ _ _ => some (x, fun s w _ => uni x s w .b 3)
  | .work x _ _ _ _ => some (x, fun s w _ =>
      ((uni x s w .a 2).or (uni x s w .b 3)).or
        (if 2 ^ 32 ≤ operand s x word w .a 1 32 0 * operand s x word w .b 1 32 0 then some (2, 8) else none))
  | _ => none

/-- Such an instruction issues, and its values raise the trap. -/
abbrev ValuePre (x : Option Ex) (i : Instr) (c d : Nat) (s : State) (w : Wave) (t : Team) (l : Launch) : Prop :=
  i.wf = true ∧ Issues s x (wordOf i) w t l ∧ Clean s x (wordOf i) w ∧ Takeable s w t l c ∧
  ∀ q ∈ valueRule i, q.2 s w t = some (c, d)

/-- An instruction whose operand values are not accepted traps for every acting item, and nothing else changes. -/
def ValueTraps (i : Instr) : Prop := ∀ x v, valueRule i = some (x, v) → ∀ s w t l c d, ValuePre x i c d s w t l →
  ∃ s' w', exec i s = .next s' ∧ TrapTaken (allTrap331 w (w.active x) c d (fun _ => 0)) s s' w w' t l (aborted189 w w.pcOf)

/-! ### In the handler (R262, R337) and HALT (R263) -/

/-- An instruction of a handler issues: the wave is in one, and its frame can be read and written. -/
abbrev HandlerPre (x : Option Ex) (i : Instr) (s : State) (w : Wave) (t : Team) (l : Launch) (h : Handler) (k : Nat) : Prop :=
  WavePre x i s w t l ∧ homeWindows s = true ∧ w.handler = some h ∧ s.frameKey t h .rmw = some k ∧ s.frameKey t h .read = some k ∧
  present (globBytes k 0x4400) = true

/-- The number of valid entries of a frame (R336). -/
def valid336 (s : State) (k : Nat) : Nat :=
  ((List.range 16).takeWhile (fun e => (Bytes.num s.peek (globBytes (k + 0x28) 4)).testBit e)).length

/-- Entry `e` has gone from a frame: the later ones have moved down, and one fewer is valid. -/
def dropped337 (s : State) (k e : Nat) : Bytes :=
  let n := valid336 s k
  let m := s.peek
  let m1 := Bytes.put m (globBytes (k + 0x200 + 32 * e) (32 * (n - e)))
    ((globBytes (k + 0x200 + 32 * (e + 1)) (32 * (n - 1 - e))).map m ++ List.replicate 32 0)
  let m2 := Bytes.put m1 (globBytes (k + 0x400 + 1024 * e) (1024 * (n - e)))
    ((globBytes (k + 0x400 + 1024 * (e + 1)) (1024 * (n - 1 - e))).map m ++ List.replicate 1024 0)
  m2.put (globBytes (k + 0x28) 4) (toBytes 4 (2 ^ (n - 1) - 1))

/-- Where a frame's removal of an entry writes. -/
def changed337 (s : State) (k e : Nat) (o : Loc) : Bool :=
  let n := valid336 s k
  (globBytes (k + 0x200 + 32 * e) (32 * (n - e))).contains o || (globBytes (k + 0x400 + 1024 * e) (1024 * (n - e))).contains o ||
    (globBytes (k + 0x28) 4).contains o

/-- The entry has gone (RQDROP e), or every entry (RQDROP 127). -/
abbrev RqdropPost (x : Option Ex) (e : Nat) (s s' : State) (w w' : Wave) (k : Nat) : Prop :=
  s'.wave? w.ref = some w' ∧ GoneFrom s x w w w' ∧
  if e = 127 then
    Stored s s' w 0 (fun o => (globBytes (k + 0x28) 4).contains o) (Bytes.put s.peek (globBytes (k + 0x28) 4) (toBytes 4 0))
  else Stored s s' w 0 (changed337 s k e) (dropped337 s k e)

/-- A performed entry's captured return value stands in its destination, and the entry has gone from the frame (R337): `c` is its
destination, `n` its registers, `act` its lanes. -/
abbrev ReplayPost (x : Option Ex) (e c n : Nat) (act : Mask) (s s' : State) (w w' : Wave) (k : Nat) : Prop :=
  let ret (lane : Nat) : Nat := Bytes.num s.peek (globBytes (k + 0x400 + 1024 * e + 32 * lane + 24) (4 * n))
  s'.wave? w.ref = some w' ∧ GoneFrom s x w { w with v := w'.v, x := w'.x, k := w'.k } w' ∧
  Stored s s' w 1 (changed337 s k e) (dropped337 s k e) ∧
  LanesHold s w w' act n (fun _ => c) ret

/-- The descriptor of entry `e` of a frame: its word, EX, mask and STAT. -/
def descriptor336 (s : State) (k e j : Nat) : Word := BitVec.ofNat 32 (Bytes.num s.peek (globBytes (k + 0x200 + 32 * e + 4 * j) 4))

/-- REPLAY issues at a valid performed entry of an atomic that returns a value to vector registers (R165, R337). -/
abbrev ReplayPre (x : Option Ex) (e : R7) (s : State) (w : Wave) (t : Team) (l : Launch) (h : Handler) (k : Nat) : Prop :=
  let word := descriptor336 s k e.toNat 0
  let exw := descriptor336 s k e.toNat 1
  HandlerPre x (.replay x e) s w t l h k ∧ e.toNat < valid336 s k ∧ descriptor336 s k e.toNat 2 &&& w.live ≠ 0 ∧
  (descriptor336 s k e.toNat 3).getLsbD 1 = true ∧
  (word.maj = 0x68 ∨ word.maj = 0x69 ∨ word.maj = 0x6A) ∧ isV word.d7 = true ∧
  checkWord (if exw = 0 then none else some (Ex.ofWord exw)) word = none ∧
  windowOk (wordInfo (if exw = 0 then none else some (Ex.ofWord exw)) word) (if exw = 0 then none else some (Ex.ofWord exw)) word w.view = true

/-- The space of an entry that is a load of R166 or R169. -/
def space337 (p : Pend) : Option Space :=
  if p.word.maj = 0x58 then some .global else if p.word.maj = 0x5A then some .scratch else if p.word.maj = 0x5C then some .cluster
  else if p.word.maj = 0x61 then some .acm else none

/-- The address of a lane of such an entry, from its captured operands (R161, R336). -/
def addr337 (p : Pend) (sp : Space) (lane : Nat) : Nat :=
  let b : BitVec 32 := if exMode1 p.ex then BitVec.ofInt 32 (immOf p.ex p.word.b7) else BitVec.ofNat 32 (p.cb.at lane)
  if sp = .global then (BitVec.ofNat 64 (p.ca.at lane) + b.signExtend 64).toNat else (BitVec.ofNat 32 (p.ca.at lane) + b).toNat

/-- The lanes for which an entry is issued again. -/
def lanes337 (p : Pend) (w : Wave) : Mask := p.mask &&& w.live

/-- Whether an entry is a load not yet performed, to vector registers, for some live lane, whose accesses complete on this node (R165,
R337). -/
def loads337 (s : State) (w : Wave) (t : Team) (l : Launch) (p : Pend) : Bool :=
  !p.performed && lanes337 p w != 0 && isV p.word.d7 && (checkWord p.ex p.word).isNone && (match space337 p with
    | none => false
    | some sp => (maskLanes (lanes337 p w)).all (fun lane => lands s l t sp .read false (bytes162 (exTy p.ex)) (addr337 p sp lane)))

/-- What such an entry reads for a lane, in memory as it stands now, and whether it is poisoned. -/
def value337 (s : State) (t : Team) (l : Launch) (p : Pend) (lane : Nat) : Nat × Bool :=
  let n := bytes162 (exTy p.ex)
  match space337 p with
  | none => (0, false)
  | some sp =>
    let a := addr337 p sp lane
    let ls := locs s l t sp .read false n a
    (loaded (exTy p.ex) (if sp = .acm then ofBytes ((List.range n).map (fun j => acmByte s t.ref (4 * a + j))) else Bytes.num s.peek ls),
      poisoned s ls)

/-- Registers that a load fills. -/
def regs337 (p : Pend) : Nat := if bytes162 (exTy p.ex) = 8 then 2 else 1

/-- REPLAY issues at a valid entry that is a load not yet performed. -/
abbrev ReloadPre (x : Option Ex) (e : R7) (s : State) (w : Wave) (t : Team) (l : Launch) (h : Handler) (k : Nat) (p : Pend) : Prop :=
  HandlerPre x (.replay x e) s w t l h k ∧ e.toNat < valid336 s k ∧ w.tx = none ∧ loads337 s w t l p = true ∧
  p = s.frameEntry k e.toNat (s.handleRank t l) (Bytes.num s.peek (globBytes (k + 0xC) 4)) ∧
  windowOk (wordInfo p.ex p.word) p.ex p.word w.view = true

/-- The load has read memory afresh and its lanes hold what it read; the entry has gone from the frame (R337). -/
abbrev ReloadPost (x : Option Ex) (e : R7) (s s' : State) (w w' : Wave) (t : Team) (l : Launch) (k : Nat) (p : Pend) : Prop :=
  s'.wave? w.ref = some w' ∧ GoneFrom s x w { w with v := w'.v, x := w'.x, k := w'.k } w' ∧
  Stored s s' w 1 (changed337 s k e.toNat) (dropped337 s k e.toNat) ∧
  LanesHoldMarked s w w' (lanes337 p w) (regs337 p) (fun _ => p.word.d7) (fun lane => (value337 s t l p lane).1)
    (fun lane => ((value337 s t l p lane).2, false))

/-- Lanes that still run a handler after TRET: those that have not run it and are live. -/
def running262 (x : Option Ex) (w : Wave) (h : Handler) : Mask := h.running &&& ~~~(w.active x) &&& w.live

/-- Whether an entry of a frame is performed, of a word that may be issued again, with a result to come. -/
def kept337 (p : Pend) : Bool := p.performed && isLx p.word.maj && (checkWord p.ex p.word).isNone && !p.writes.isEmpty

/-- The handler can end: RESUMEPC is aligned, and each entry still in the frame is performed, or a load. -/
abbrev Ends337 (s : State) (w : Wave) (t : Team) (l : Launch) (k : Nat) : Prop :=
  Bytes.num s.peek (globBytes (k + 0x10) 4) % 4 = 0 ∧
  (s.frameEntries k (s.handleRank t l)).all (fun p => kept337 p || (w.tx.isNone && loads337 s w t l p)) = true

/-- TRET issues in a handler, which can end where the last item runs it. -/
abbrev TretPre (x : Option Ex) (s : State) (w : Wave) (t : Team) (l : Launch) (h : Handler) (k : Nat) : Prop :=
  HandlerPre x (.tret x) s w t l h k ∧ w.pend = [] ∧ (running262 x w h = 0 → Ends337 s w t l k)

/-- An entry has been issued again under a number of its own, with its window: a performed one with the value that it captured, a load with
what memory holds now (R165, R337). -/
abbrev Reissued337 (s : State) (w : Wave) (t : Team) (l : Launch) (key : Nat) (p q : Pend) : Prop :=
  if p.performed then q = { p with key := key }
  else q = { p with key := key, mask := lanes337 p w, writes := q.writes } ∧
    ∀ lane ∈ maskLanes (lanes337 p w), ∀ j, j < regs337 p → (q.writes.getD j (0, {})).1 = p.word.d7 + j ∧
      (q.writes.getD j (0, {})).2.form.at (s.geo w).index lane = (value337 s t l p lane).1 / 2 ^ (32 * j) % 2 ^ 32 ∧
      (q.writes.getD j (0, {})).2.poison.getLsbD lane = (value337 s t l p lane).2

/-- The wave `w` has left its handler `h` (R262, R337): k22 and k23 are restored, every live item of the group stands at RESUMEPC, the
others where `past` says, and the frame's entries stand among the unfinished instructions again, the oldest first. -/
abbrev Left337 (s s' : State) (w w' : Wave) (t : Team) (l : Launch) (h : Handler) (k : Nat) (past : Nat → Nat) : Prop :=
  let word (o : Nat) : Nat := Bytes.num s.peek (globBytes (k + o) 4)
  let es := s.frameEntries k (s.handleRank t l)
  s' = { s with waves := s'.waves, nextNum := s.nextNum + es.length } ∧ w'.handler = none ∧
  w'.k = setFile 0 (setFile 0 w.k 22 (BitVec.ofNat 32 (word 0))) 23 (BitVec.ofNat 32 (word 4)) ∧
  (∀ lane ∈ maskLanes w.live, w'.pcOf lane = if h.group.getLsbD lane then word 0x10 else past lane) ∧
  w'.pend.length = es.length ∧ ∀ j, j < es.length → ∀ p ∈ es[j]?, ∀ q ∈ w'.pend[j]?, Reissued337 s w t l (s.nextNum + j) p q

/-- EXIT ends the last items that run a handler, and items of the wave remain. -/
abbrev HandlerEndPre (x : Option Ex) (s : State) (w : Wave) (t : Team) (l : Launch) (h : Handler) (k : Nat) : Prop :=
  HandlerPre x (.exit x) s w t l h k ∧ w.pend = [] ∧ w.tx = none ∧ running262 x w h = 0 ∧ w.live &&& ~~~(w.active x) ≠ 0 ∧
  Ends337 s { w with live := w.live &&& ~~~(w.active x) } t l k

/-- They have ended, and the core has acted for the group. -/
abbrev HandlerEndPost (x : Option Ex) (s s' : State) (w w' : Wave) (t : Team) (l : Launch) (h : Handler) (k : Nat) : Prop :=
  let w0 := { w with live := w.live &&& ~~~(w.active x) }
  s'.wave? w.ref = some w' ∧ s'.waves.map (otherWave w.ref) = s.waves.map (otherWave w.ref) ∧ (∀ a, s'.mem.read a = s.mem.read a) ∧
  w' = { w0 with k := w'.k, pcs := w'.pcs, pend := w'.pend, handler := w'.handler, boosted := false, group := none, readyAt := s.time,
                 groupIssues := w'.groupIssues } ∧
  Left337 s s' w0 w' t l h k (fun lane => if w.exec.getLsbD lane then nextPc w x else w.pcOf lane)

/-- TRET of a lane that is not the last holds it at its resume point; the last ends the handler. -/
abbrev TretPost (x : Option Ex) (s s' : State) (w w' : Wave) (t : Team) (l : Launch) (h : Handler) (k : Nat) : Prop :=
  let past (lane : Nat) : Nat := if w.exec.getLsbD lane && !(w.active x).getLsbD lane then nextPc w x else w.pcOf lane
  s'.wave? w.ref = some w' ∧ s'.waves.map (otherWave w.ref) = s.waves.map (otherWave w.ref) ∧ (∀ a, s'.mem.read a = s.mem.read a) ∧
  w' = { w with k := w'.k, pcs := w'.pcs, pend := w'.pend, handler := w'.handler, boosted := false, group := none, readyAt := s.time,
                groupIssues := w'.groupIssues } ∧
  if running262 x w h = 0 then Left337 s s' w w' t l h k past
  else
    s' = { s with waves := s'.waves } ∧ w'.handler = some { h with running := h.running &&& ~~~(w.active x) } ∧ w'.k = w.k ∧ w'.pend = [] ∧
    ∀ lane ∈ lanes, w'.pcOf lane = past lane

/-- A context's waves, streams and launches as a pre-emption leaves them (R343, R346): transactions aborted with cause PREEMPT,
unfinished instructions in the replay queues, pins released, cores left. -/
abbrev HaltPost (x : Option Ex) (code : R7) (s s' : State) (w w' : Wave) (t : Team) (l : Launch) : Prop :=
  let mine (r : TeamRef) : Bool := s.teams.any (fun m => m.ref == r && m.core.isSome && (s.launch? r.launch).any (fun n => n.node == t.node && n.ccn == l.ccn))
  let rcb := ((s.ctxs.find? (fun c => c.node == t.node && c.ccn == l.ccn)).map (·.rcb)).getD 0
  let where339 := t.node + 2 ^ 8 * t.die + 2 ^ 10 * t.core.getD 0 + 2 ^ 18 * w.part + 2 ^ 20 * w.slot
  s'.wave? w.ref = some w' ∧ GroupAt w w' (fun _ => nextPc w x) ∧ w'.v = w.v ∧ w'.x = w.x ∧ w'.k = w.k ∧ w'.preds = w.preds ∧
  s'.waves.map (·.ref) = s.waves.map (·.ref) ∧
  (∀ v ∈ s'.waves, mine v.ref.team = true → v.tx = none ∧ v.group = none ∧ v.yielded = none ∧ v.boosted = false ∧
    v.pend.all (fun e => e.waits == 0 && (e.performed || e.writes == [])) = true) ∧
  s'.teams = s.teams.map (fun m => if mine m.ref then { m with core := none, saved := true, waitSince := s.time, mt := s.mtOf m } else m) ∧
  s'.launches = s.launches.map (fun n => if n.node = t.node ∧ n.ccn = l.ccn then { n with held := true } else n) ∧
  s'.ctxs = s.ctxs.map (fun c => if c.node = t.node ∧ c.ccn = l.ccn then { c with held := some s.nextNum } else c) ∧
  s'.saves = s.saves ++ [⟨s.nextNum, t.node, none, some (3, rcb, s.time), [], [], []⟩] ∧
  s'.nodes = s.nodes.map (fun d => if d.num = t.node then
    { d with records := d.records ++ [(l.region.fdom, ⟨7, code.toNat, l.region.rcb, s.nextNum, where339, 0, 0, 0, 0, s.time⟩)] } else d) ∧
  (∀ a, s'.mem.read a = s.mem.read a) ∧
  s' = { s with waves := s'.waves, teams := s'.teams, launches := s'.launches, ctxs := s'.ctxs, streams := s'.streams, packets := s'.packets,
                saves := s'.saves, nodes := s'.nodes, nextNum := s.nextNum + 1 }

/-- HALT issues, and every wave of the context can stop: none of their updates at other nodes is under way (R165). -/
abbrev HaltPre (x : Option Ex) (i : Instr) (s : State) (w : Wave) (t : Team) (l : Launch) : Prop :=
  WavePre x i s w t l ∧ t.core.isSome = true ∧ l.node = t.node ∧ w.handler = none ∧ w.live = w.exec ∧ s.waves.all (fun v => !s.updating v.ref) = true


/-! ### The scheduler's events (R150, R152, R195, R289) -/

/-- A state in which the wave of a reference has changed. -/
def withWave (s : State) (r : WaveRef) (f : Wave → Wave) : State := { s with waves := s.waves.map (fun v => if v.ref = r then f v else v) }

/-- The program counters of the groups of a wave that are not held at a JOIN (R150). -/
def free150 (s : State) (w : Wave) (t : Team) (l : Launch) : List Nat :=
  ((maskLanes w.candidates).map w.pcOf).filter (fun p => !s.groupHeld w t l p)

/-- The group that issues next: the next higher program counter, or the lowest, of those that are not held. -/
abbrev Next150 (w : Wave) (free : List Nat) (p : Nat) : Prop :=
  p ∈ free ∧ if free.any (fun q => decide (w.groupPc < q)) = true
    then w.groupPc < p ∧ ∀ q ∈ free, w.groupPc < q → p ≤ q
    else ∀ q ∈ free, p ≤ q

/-- A wave that a write of a watched line, or the host, has woken (R195). -/
def woken195 (w : Wave) : Wave := if w.status = .asleep then { w with status := .ready, wake := [], txCause := 4 } else w

/-! ### The engines' events (R75, R207, R223, R225, R226, R306, R341, R369) -/

/-- Command `c` is the next of stream `q`, which performs commands, and belongs to team `t` of launch `l`, which has a wave. -/
abbrev Front (s : State) (q : StreamRef) (c : Cmd) (t : Team) (l : Launch) : Prop :=
  s.stuck = none ∧ (stream218 s q).halted = false ∧ s.streamRuns q = true ∧ (stream218 s q).front = some c ∧ c.join = none ∧
  c.team.bind s.team? = some t ∧ c.team.bind (fun r => s.launch? r.launch) = some l ∧ t.cut = true ∧
  (s.waves.any (fun v => v.ref.team == t.ref)) = true ∧ (stream218 s q).ref = q ∧ s.team? t.ref = some t

/-- The engine of a command at its start. -/
def engine223 (s : State) (c : Cmd) (t : Team) (l : Launch) : Eng := { s := s, t := t, l := l, c := c, pins := c.pins }

/-- The commands of a stream but for those of a sequence number. -/
def others223 (s : State) (q : StreamRef) (c : Cmd) : List Cmd := (stream218 s q).cmds.filter (fun d => d.join.isSome || d.seq != c.seq)

/-- A state in which one stream has changed. -/
def withStream (s : State) (q : StreamRef) (m : Stream) : State := { s with streams := s.streams.map (fun n => if n.ref = q then m else n) }

/-- A state in which command `c` of stream `q` stands as `d`. -/
def withCmd (s : State) (q : StreamRef) (c d : Cmd) : State :=
  withStream s q { stream218 s q with cmds := (stream218 s q).cmds.map (fun e => if e.join = none ∧ e.seq = c.seq then d else e) }

/-- The failed check of a completion word that its own node drops (R76, R172, R362), with its cause and DETAIL. -/
def drop76 (s : State) (t : Team) (d : Done) : Option (Nat × Nat) :=
  let scr (u : Team) (o : Nat) : Option (Nat × Nat) := (s.windowFault u o 4).map (fun e => (e.1, e.2.1))
  match d with
  | .ws o _ => scr t o
  | .wsa o _ => scr t o
  | .wc a _ => (s.clusterTeam t a.toNat).bind (fun u => scr u (a.toNat % 2 ^ 21))
  | .wg a _ => match s.resolve t.node t.segs t.world a.toNat 4 .write with
    | .trap c e => some (c, e)
    | _ => none
  | _ => none

/-- Where a completion word is written, and the bytes of it (R75, R76). -/
def signal76 (s : State) (t : Team) (d : Done) : List Loc × List Byte :=
  if (drop76 s t d).isSome then ([], [])
  else match d with
  | .ws o v => (s.scrLocs t o 4, toBytes 4 v.toNat)
  | .wsa o v => (s.scrLocs t o 4, toBytes 4 (Bytes.num s.peek (s.scrLocs t o 4) + v.toNat))
  | .wc a v => match s.clusterTeam t a.toNat with
    | some u => (s.scrLocs u (a.toNat % 2 ^ 21) 4, toBytes 4 v.toNat)
    | none => ([], [])
  | .wg a v => match s.resolve t.node t.segs t.world a.toNat 4 .write with
    | .ok k => (globBytes k 4, toBytes 4 v.toNat)
    | _ => ([], [])
  | _ => ([], [])

/-- The bytes of a completion word exist. -/
def home76 (s : State) (t : Team) (d : Done) : Bool := present (signal76 s t d).1

/-- The packet of a completion word of another node (R76, R357, R359). -/
def packet76 (s : State) (c : Cmd) (t : Team) (l : Launch) : List Packet :=
  match c.done with
  | .wg a v => match s.resolve t.node t.segs t.world a.toNat 4 .write with
    | .remote n => [{ num := s.nextNum, stream := ⟨.request, t.node, t.die, n⟩, addr := a, ccn := l.ccn, world := t.world, time := s.time, wave := none
                      pend := c.seq, op := some (.word v (engine223 s c t l).where_), tokens := [], rcb := l.region.rcb, fdom := l.region.fdom }]
    | _ => []
  | _ => []

/-- Whether a command's completion lowers flag `j` of wave `r`. -/
def flag75 (c : Cmd) (r : WaveRef) (j : Nat) : Bool := c.wave == some r && c.done == .flag j

/-- A wave but for its flags and what a write of a line that it watches does. -/
def flagless (v : Wave) : Wave :=
  { v with flags := [], tx := none, txCause := 0, keptBegin := none, pend := [], pcs := [], status := .ready, wake := [] }

/-- Each flag has fallen by the number of commands of `gone` that name it, but not below 0 (R25). -/
abbrev FlagsFall (s s' : State) (gone : List Cmd) : Prop :=
  ∀ p ∈ s.waves.zip s'.waves, ∀ j ∈ List.range 12, p.2.flags.getD j 0 = p.1.flags.getD j 0 - gone.countP (fun d => flag75 d p.1.ref j)

/-- The nodes after the notice of a failed world check at a node (R374): a KIND 8 record for its security domain, or its count where
it has none. -/
def nodes374 (s : State) (node code rcb wh : Nat) : List Node :=
  s.nodes.map (fun d => if d.num = node then
      (match (s.node? node).bind (·.sfdom) with
        | none => { d with counters := modAt d.counters 4 (· + 1) }
        | some f => { d with records := d.records ++ [(f, ⟨8, code, rcb, 0, wh, 0, 0, 0, 0, s.time⟩)] })
    else d)

/-- The nodes of a state, one of which has one more record for a domain. -/
def withRecord (s : State) (node fdom : Nat) (r : Record) : List Node :=
  s.nodes.map (fun d => if d.num = node then { d with records := d.records ++ [(fdom, r)] } else d)

/-- The fault record of a failed command (R226, R339). -/
def record226 (s : State) (c : Cmd) (status : Nat) (t : Team) (l : Launch) : Record :=
  ⟨2, status, l.region.rcb, 0, (engine223 s c t l).where_, 0, c.seq, 0, 0, s.time⟩

/-- The nodes after a completion word has been dropped: its KIND 2 record (R362), and the notice of a failed world check (R374). -/
def nodes76 (s : State) (c : Cmd) (t : Team) (l : Launch) : List Node :=
  match drop76 s t c.done with
  | none => s.nodes
  | some e =>
    let ns := withRecord s t.node l.region.fdom (record226 s c 10 t l)
    if e.1 = 7 then nodes374 { s with nodes := ns } t.node (7 + 256 * e.2) l.region.rcb (engine223 s c t l).where_ else ns

/-- The command has left its stream, after its flag has fallen or its completion word stands, has been sent to its node, or has been dropped;
nothing else has changed. -/
abbrev CommandDone (s s' : State) (q : StreamRef) (c : Cmd) (t : Team) (l : Launch) : Prop :=
  let sg := signal76 s t c.done
  s' = { s with waves := s'.waves, deliveries := s'.deliveries, mem := s'.mem, poison := s'.poison, teams := s'.teams, streams := s'.streams
                nodes := nodes76 s c t l, packets := s.packets ++ packet76 s c t l, nextNum := s.nextNum + (packet76 s c t l).length } ∧
  s'.teams.map byteless = s.teams.map byteless ∧ s'.waves.map flagless = s.waves.map flagless ∧ FlagsFall s s' [c] ∧
  (∀ o, s'.peek o = (Bytes.put s.peek sg.1 sg.2) o) ∧
  (∀ a, s'.poison.contains a = (s.poison.contains a && !sg.1.contains (.glob a))) ∧
  s'.streams = (withStream s q { stream218 s q with cmds := others223 s q c }).streams

/-- A failed command's record stands (R226, R339), its flag has fallen, and its stream is halted without it. The halt ends with a reset
once that record has been published, or, where the region's MODES bit 19 says so, by the host (R341). -/
abbrev FailPost (s s' : State) (q : StreamRef) (c : Cmd) (status : Nat) (t : Team) (l : Launch) : Prop :=
  s' = { s with waves := s'.waves, streams := s'.streams, nodes := withRecord s t.node l.region.fdom (record226 s c status t l) } ∧
  s'.waves.map flagless = s.waves.map flagless ∧ FlagsFall s s' [c] ∧
  s'.streams = (withStream s q { stream218 s q with
    cmds := others223 s q c, halted := true, failed := (stream218 s q).failed ++ [c.seq]
    resetOn := if l.region.modes.testBit 19 then none else some (record226 s c status t l) }).streams

/-- Nothing but its flag signals a command, and its stream holds no join and no command of another team. -/
abbrev Alone (s : State) (q : StreamRef) (t : Team) : Prop :=
  ∀ d ∈ (stream218 s q).cmds, d.join = none ∧ d.team = some t.ref

/-- Whether an AXEDIT waits (R306): for a shoot-down of its axis, or for a pin on it that was taken under an older GEN. -/
def waits306 (s : State) (c : Cmd) (t : Team) (l : Launch) : Bool :=
  let h := (c.ops.getD 0 0).toNat % 2 ^ 16
  let j := (c.ops.getD 0 0).toNat / 2 ^ 16 % 2 ^ 3
  let own (q : StreamRef) : Bool := match q with
    | .team u _ => s.ccnOf u.launch == l.ccn
    | .ctx _ n => n == l.ccn
  s.shoots.any (fun x => x.edit == .ctx t.node l.ccn && x.handle == h && x.axis == j) ||
  s.streams.any (fun q => own q.ref && q.cmds.any (fun d => d.pins.any (fun p => p.handle == h && p.axis == j && p.gen != c.progress)))

/-- The context number of an edit's stream. -/
def ccn306 (x : Shoot) : Nat := match x.edit with
  | .ctx _ c => c
  | .team _ _ => 0

/-- The object and the entries of an axis leave a core's caches (R306). -/
abbrev ShootPost (s s' : State) (j : Nat) (x : Shoot) : Prop :=
  s' = { s with shoots := s'.shoots, cores := s'.cores } ∧
  s'.shoots = (List.range s.shoots.length).filterMap (fun i => if i = j then some { x with arrived := true } else s.shoots[i]?) ∧
  s'.cores = s.cores.map (fun k => if k.node = x.node ∧ k.die = x.die ∧ k.num = x.core then { k with
    objs := k.objs.filter (fun o => !(o.1 == ccn306 x && o.2.1 == x.handle))
    atc := k.atc.filter (fun e => !(e.1 == ccn306 x && e.2.1 == x.handle && e.2.2.1 == x.axis)) } else k)

/-- The generation that a DISP names (R254), and the generations of its context (R369). -/
def gen369 (c : Cmd) : Nat := (c.ops.getD 2 0).toNat % 2 ^ 16
/-- The generations of the context of a launch on its node. -/
def gener369 (s : State) (t : Team) (l : Launch) : Gener := (engine223 s { seq := 0, wave := none, word := 0, exw := 0, ops := [], mask := 0, b0 := [], b1 := [], done := .none, state := .queued, pred := none, progress := 0, pins := [], join := none } t l).gener

/-- A DISP of a retired generation of the window that has been retired for LT or longer. -/
abbrev RetireStart (s : State) (q : StreamRef) (c : Cmd) (t : Team) (l : Launch) (d : Node) : Prop :=
  Front s q c t l ∧ c.state = .queued ∧ (engine223 s c t l).behind = false ∧ c.is 0x7B 0 = true ∧ (engine223 s c t l).dispWaits = true ∧ s.node? t.node = some d ∧
  ∀ p ∈ (gener369 s t l).retired, p.1 = gen369 c → p.2 + lifetime ≤ s.time

/-- The generation is no longer held as retired. -/
abbrev RetirePassed (s s' : State) (c : Cmd) (t : Team) (l : Launch) : Prop :=
  s' = { s with nodes := s'.nodes } ∧ (gener369 s' t l).retired = (gener369 s t l).retired.filter (fun p => p.1 != gen369 c) ∧
  (gener369 s' t l).cur = (gener369 s t l).cur ∧ (engine223 s' c t l).dispWaits = false


/-! ### Bytes that a party other than a wave has written -/

/-- A wave but for what a write of a line it watches may do to it: end its transaction, or wake it (R188, R195). -/
def watchless (v : Wave) : Wave :=
  { v with yielded := none, tx := none, txCause := 0, keptBegin := none, pend := [], pcs := [], status := .ready, wake := [] }

/-- Bytes of memory and scratchpads have changed to `final`; watchers of written lines may have been woken or aborted. -/
abbrev BytesNow (s s' : State) (final : Bytes) : Prop :=
  s'.teams.map byteless = s.teams.map byteless ∧ s'.waves.map watchless = s.waves.map watchless ∧ ∀ o, s'.peek o = final o

/-! ### Taking a launch record (R269 to R272) -/

/-- A context's queue after the record at `addr` was taken: HEAD moved to its NEXT, and the last record noted while its NEXT is 0. -/
def headed269 (s : State) (k node ccn addr : Nat) (r : LaunchRec) : State :=
  (s.wrPhys k (toBytes 8 r.next) none).watchRecord node ccn (if r.next == 0 then addr else 0)

/-- A field of a kernel record, little-endian (R102). -/
def field102 (b : List Byte) (off n : Nat) : Nat := ofBytes ((b.drop off).take n)

/-- The core counts of the stage sets that a kernel record declares. -/
def stages102 (b : List Byte) : List Nat := (List.range (field102 b 29 1)).map (fun j => field102 b (48 + 4 * j) 2)

/-- Whether a kernel record keeps the limits of R95, R96 and R102: of its quota, team shape, scratchpad and sync region against its split,
accumulator words, stage sets, parameter block, entry and reserved bytes. -/
def limits102 (b : List Byte) : Bool :=
  let shape := field102 b 10 2 * field102 b 12 2 * field102 b 14 2
  let scr := field102 b 16 4
  let sync := field102 b 20 4
  decide ((field102 b 8 2 % 8 = 0 ∧ 8 ≤ field102 b 8 2 ∧ field102 b 8 2 ≤ 256) ∧ (1 ≤ shape ∧ shape ≤ 1024) ∧
    (field102 b 28 1 ≤ 24 ∧ scr % 128 = 0 ∧ sync % 128 = 0 ∧ scr + sync ≤ 2 ^ 16 * field102 b 28 1) ∧ field102 b 24 4 ≤ 65536 ∧
    (field102 b 29 1 ≤ 16 ∧ ∀ n ∈ stages102 b, 1 ≤ n ∧ n ≤ 160) ∧ (field102 b 36 4 % 4 = 0 ∧ field102 b 36 4 ≤ 96) ∧
    field102 b 4 4 % 16 = 0 ∧ field102 b 30 2 = 0 ∧ field102 b 44 4 = 0 ∧ field102 b 112 16 = 0)

/-- A kernel as a placed image and its record give it. -/
def kernel102 (k : Kernel) (b : List Byte) : Kernel :=
  { k with entry := field102 b 4 4, quota := field102 b 8 2, shape := [field102 b 10 2, field102 b 12 2, field102 b 14 2], scr := field102 b 16 4,
           sync := field102 b 20 4, acm := field102 b 24 4, split := field102 b 28 1,
           stages := (stages102 b).zipIdx.map (fun c => (c.1, field102 b (50 + 4 * c.2) 2)) }

/-- The placed kernel that a launch record names, as its kernel record stands in memory: none where the image is not placed, or the
record cannot be read or breaks a limit. -/
def kernel270 (s : State) (node ccn : Nat) (segs : SegTable) (world : Bool) (r : LaunchRec) : Option Placed :=
  (s.placed.find? (fun p => p.node == node && p.ccn == ccn && sameAddr node p.kernel.krec r.krec)).bind (fun p =>
    (s.seqRead node ccn segs world r.krec 128).bind (fun b => if limits102 b then some { p with kernel := kernel102 p.kernel b } else none))

/-- The parameter bytes of a record, if its block can be read. -/
def params270 (s : State) (node ccn : Nat) (segs : SegTable) (world : Bool) (r : LaunchRec) : Option (List Byte) :=
  if r.psize = 0 then some [] else s.seqRead node ccn segs world r.paddr r.psize

/-- The launch of a record with its kernel and parameter words (R16, R271). -/
def launch271 (s : State) (node ccn addr : Nat) (segs : SegTable) (r : LaunchRec) (g : Region) (p : Placed) (bs : List Byte) : Launch :=
  launchOf s.nextNum node ccn addr r g p segs ((List.range 24).map (fun i => BitVec.ofNat 32 (ofBytes ((bs.drop (4 * i)).take 4))))

/-- Whether DONEADDR of a record fails its checks (R270). -/
def doneBad270 (node : Nat) (segs : SegTable) (r : LaunchRec) : Bool :=
  r.doneAddr % 4 != 0 || (r.doneAddr != 0 && (r.doneAddr / 2 ^ 56 == 255 || r.doneAddr / 2 ^ 56 == node) &&
    (match segs.check (gSeg r.doneAddr) (gOff r.doneAddr) 4 .write with
      | .ok _ => false
      | .error _ => true))

/-- The checks of R270 on a record without GANG, in the order of the status table: the status, and whether the check fails. -/
def checks270 (s : State) (node ccn addr ctxRcb : Nat) (segs : SegTable) (r : LaunchRec) : List (Nat × Bool) :=
  let die := r.flags / 2 ^ 8 % 16
  match s.region? node r.rcb with
  | none => [(1, true)]
  | some g => match kernel270 s node ccn segs g.world r with
  | none => [(1, !sameAddr node g.ctxRcb ctxRcb), (2, r.ext.contains 0 || decide (2 ^ 40 < r.items)), (3, true)]
  | some p =>
    let teams := teamCount r.ext p.kernel.shape
    let staged := !p.kernel.stages.isEmpty
    let bs := params270 s node ccn segs g.world r
    [(1, !sameAddr node g.ctxRcb ctxRcb), (2, r.ext.contains 0 || decide (2 ^ 40 < r.items)), (3, staged && die != 15 && die != p.die),
     (4, r.flags.testBit 0 && !s.resident (launch271 s node ccn addr segs r g p (bs.getD [])) teams),
     (5, r.gang != 0 || r.sched != 0 || decide (96 < r.psize) || r.psize % 4 != 0 || (decide (3 < die) && decide (die < 15)) || r.flags / 2 ^ 3 % 32 != 0 ||
       r.flags / 2 ^ 12 % 2 ^ 20 != 0 || r.rest != 0 || bs.isNone || doneBad270 node segs r),
     (6, staged && decide ((p.kernel.stages.map Prod.fst).sum < teams))]

/-- The status of a record: that of the first check that fails. -/
def status270 (s : State) (node ccn addr ctxRcb : Nat) (segs : SegTable) (r : LaunchRec) : Option Nat :=
  ((checks270 s node ccn addr ctxRcb segs r).find? (fun c => c.2)).map Prod.fst

/-- A record without GANG is offered, its queue's HEAD lies at `k` and its STATE at `ks`; `g` is the region that its STATE is written
under. -/
abbrev TakePre (s : State) (node ccn : Nat) (region : Region) (segs : SegTable) (lq addr : Nat) (r : LaunchRec) (k ks : Nat) (g : Region) : Prop :=
  s.stuck = none ∧ s.takeable node ccn = some (region, segs, lq, addr, r) ∧ r.flags.testBit 2 = false ∧
  (s.globalKey node 0 ccn segs region.world lq 8 .write).toOption = some k ∧ present (globBytes k 8) = true ∧ present (globBytes ks 4) = true ∧
  g = ((headed269 s k node ccn addr r).region? node r.rcb).getD region ∧
  ((headed269 s k node ccn addr r).globalKey node 0 ccn segs g.world (addr + 0x2C) 4 .write).toOption = some ks

/-- The DETAILs of the world checks that fail where the sequencer reads what a rejected record names: its kernel record for status 3, its
parameter block for status 5 (R270, R374). -/
def worlds270 (s : State) (node ccn : Nat) (segs : SegTable) (world : Bool) (r : LaunchRec) (status : Nat) : List Nat :=
  let reads : List (Nat × Nat) := if status = 3 then [(r.krec, 128)] else if status = 5 ∧ r.psize ≠ 0 then [(r.paddr, r.psize)] else []
  reads.filterMap (fun q => match s.globalKey node 0 ccn segs world q.1 q.2 .read with
    | .error (7, d, _) => some d
    | _ => none)

/-- The nodes after the notices of failed world checks of a node's sequencer (R374). -/
def noticed270 (s : State) (node rcb : Nat) (ds : List Nat) : List Node :=
  s.nodes.map (fun d => if d.num = node then
      (match (s.node? node).bind (·.sfdom) with
        | none => { d with counters := modAt d.counters 4 (· + ds.length) }
        | some f => { d with records := d.records ++ ds.map (fun e => (f, ⟨8, 7 + 256 * e, rcb, 0, node, 0, 0, 0, 0, s.time⟩)) })
    else d)

/-- The launches once a region has been read for one of them: every launch of that region has its values (R268, R364). -/
def spread268 (ls : List Launch) (node : Nat) (g : Region) : List Launch :=
  ls.map (fun m => if m.node = node ∧ sameAddr node m.region.rcb g.rcb = true then { m with region := g } else m)

/-- HEAD and STATE have been written, and the record is noted. -/
abbrev TakenPost (s s' : State) (node ccn addr : Nat) (r : LaunchRec) (k ks state : Nat) : Prop :=
  s' = { s with waves := s'.waves, deliveries := s'.deliveries, mem := s'.mem, poison := s'.poison, teams := s'.teams,
                nodes := s'.nodes, ctxs := s'.ctxs, launches := s'.launches, nextNum := s'.nextNum } ∧
  BytesNow s s' (Bytes.put (Bytes.put s.peek (globBytes k 8) (toBytes 8 r.next)) (globBytes ks 4) (toBytes 4 state)) ∧
  s'.ctxs = s.ctxs.map (fun c => if c.node = node ∧ c.ccn = ccn then { c with watch := if r.next = 0 then addr else 0 } else c)

/-! ### Placing and pre-empting teams (R275 to R280, R291) -/

/-- The values of a launch's region as the sequencer reads them again to place a team (R268). -/
def region268 (s : State) (l : Launch) : Region := (s.region? l.node l.region.rcb).getD l.region

/-- A team fits first on core `c`, with slots and row budgets `p` for its waves, in the world of its region as it is read now (R277). -/
abbrev FitsFirst (s : State) (m : Team) (l : Launch) (c : Nat) (p : List (Nat × Nat × Nat)) : Prop :=
  let n := { l with region := region268 s l }
  let u := { m with world := n.region.world }
  s.fitTeam u n c = some p ∧ c ∈ s.candidates n m.ref.tm ∧ ∀ d ∈ (s.candidates n m.ref.tm).takeWhile (fun d => d != c), s.fitTeam u n d = none

/-- A saved team whose waves have performed entries only in their replay queues. -/
abbrev Resumable (s : State) (t : TeamRef) : Prop :=
  (∀ w ∈ s.waves, w.ref.team = t → w.pend.all kept337 = true) ∧ ((s.waves.filter (fun w => w.ref.team == t)).map (·.ref)).Nodup

/-- A waiting team that is placed alone fits first on core `c`. -/
abbrev PlacePre (s : State) (t : TeamRef) (m : Team) (l : Launch) (c : Nat) (p : List (Nat × Nat × Nat)) : Prop :=
  s.stuck = none ∧ s.team? t = some m ∧ m.ref = t ∧ s.launch? t.launch = some l ∧ s.waiting m = true ∧ l.whole = false ∧
  (m.saved = true → Resumable s t) ∧ FitsFirst s m l c p

/-- A team as it is loaded on its core. -/
def loaded278 (s : State) (m : Team) (l : Launch) (c : Nat) (p : List (Nat × Nat × Nat)) : Team :=
  { m with core := some c, placeTime := s.time, slots := slotList (waveCount l.kernel.shape) p, world := (region268 s l).world
           segs := s.segTable l.node (s.rcbWord l.node (region268 s l).ctxRcb 0x30 8) }

/-- A wave in its slot. -/
def slotted278 (s : State) (t : TeamRef) (p : List (Nat × Nat × Nat)) (w : Wave) : Wave :=
  match (if w.ref.team = t then p.find? (fun (q : Nat × Nat × Nat) => q.1 == w.ref.num) else none) with
  | none => w
  | some q => { w with slot := q.2.1, rowBudget := q.2.2, readyAt := s.time }

/-- The cores once a team has been placed on core `c`: a core without a team takes its split, its world and MTDONE as the team brings it, and
in another world than before its translation caches are empty (R279, R371). -/
def claimed279 (s : State) (m : Team) (l : Launch) (c : Nat) : List Core :=
  let w := (region268 s l).world
  let here (k : Core) : Bool := k.node == l.node && k.die == l.die && k.num == c
  if s.cores.any here = false then s.cores ++ [⟨l.node, l.die, c, l.kernel.split, w, m.mt.1, m.mt.2, [], []⟩]
  else if s.teamsOn l.node l.die c = [] then
    s.cores.map (fun k => if here k then ⟨k.node, k.die, k.num, l.kernel.split, w, m.mt.1, m.mt.2, if k.world = w then k.objs else [], if k.world = w then k.atc else []⟩ else k)
  else s.cores

/-- A team has been loaded on its core, its waves in their slots; its context's turn has begun, and every launch of its region has the
values that have been read. -/
def loadedState278 (s : State) (m : Team) (l : Launch) (c : Nat) (p : List (Nat × Nat × Nat)) : State :=
  { s with
    teams := s.teams.map (fun u => if u.ref = m.ref then loaded278 s m l c p else u)
    waves := s.waves.map (slotted278 s m.ref p)
    launches := spread268 (s.launches.map (fun n => if n.num = l.num then { l with region := region268 s l } else n)) l.node (region268 s l)
    cores := claimed279 s m l c
    ctxs := s.ctxs.map (fun d => if d.node = l.node ∧ d.ccn = l.ccn ∧ d.deficit.getD l.die 0 ≤ 0 then
      { d with deficit := modAt d.deficit l.die (fun n => n + ((region268 s l).slice : Int)) } else d) }

/-- A wave of a saved team goes on: a sleeper is woken, and its performed entries stand among the unfinished instructions again, each with
a number of its own (R165, R344); one that the debugger has stopped stays so. -/
abbrev Resumed349 (w v : Wave) : Prop :=
  if w.status = .stopped then v = w
  else v = { woken195 w with pend := v.pend } ∧ v.pend.map (fun e => { e with key := 0 }) = w.pend.map (fun e => { e with key := 0 })

/-- A loaded team goes on; a saved one resumes (R349). -/
abbrev StartedPost (s s' : State) (m : Team) : Prop :=
  if m.saved = false then s' = s
  else s' = { s with teams := s.teams.map (fun u => if u.ref = m.ref then { u with saved := false } else u), waves := s'.waves, nextNum := s'.nextNum } ∧
    s'.waves.length = s.waves.length ∧ ∀ q ∈ s.waves.zip s'.waves, if q.1.ref.team = m.ref then Resumed349 q.1 q.2 else q.2 = q.1

/-- A placed team that is pre-empted alone, and can be. -/
abbrev Preemptable (s : State) (v : Team) (n : Launch) : Prop :=
  s.team? v.ref = some v ∧ s.launch? v.ref.launch = some n ∧ n.whole = false ∧ v.core.isSome = true ∧ s.canStop v.ref = true

/-- A wave as a pre-emption leaves it (R343): no register, predicate or flag has changed. -/
abbrev Stopped343 (w v : Wave) : Prop :=
  v = { w with tx := none, group := none, yielded := none, boosted := false, pend := v.pend, pcs := v.pcs, txCause := v.txCause, keptBegin := v.keptBegin } ∧
  v.pend.all (fun e => e.waits == 0 && (e.performed || e.writes == [])) = true

/-- One team has been pre-empted under a save image. -/
abbrev PreemptPost (s s1 : State) (v : Team) (n : Launch) (reason : Nat) : Prop :=
  s1 = { s with teams := s1.teams, waves := s1.waves, streams := s1.streams, packets := s1.packets, saves := s1.saves, nextNum := s.nextNum + 1 } ∧
  s1.teams = s.teams.map (fun u => if u.ref = v.ref then { u with core := none, saved := true, waitSince := s.time, mt := s.mtOf u } else u) ∧
  s1.saves = s.saves ++ [⟨s.nextNum, v.node, none, some (reason, n.region.ctxRcb, s.time), [], [], []⟩] ∧
  s1.waves.length = s.waves.length ∧ (∀ p ∈ s.waves.zip s1.waves, if p.1.ref.team = v.ref then Stopped343 p.1 p.2 else p.2 = p.1) ∧
  s1.streams.map (·.ref) = s.streams.map (·.ref)

/-! ### The waiting budget (R352, R353) -/

/-- A region's wait counter exceeds its WAITB as it was last read for a launch or a placement (R268), and the region waits. -/
abbrev BudgetPre (s : State) (node rcb : Nat) (r : Region) (c : Ctx) : Prop :=
  s.stuck = none ∧ s.regionOf node rcb = some r ∧ s.ctxs.find? (fun d => d.node == node && sameAddr node d.rcb r.ctxRcb) = some c ∧
  r.waitb < c.waited rcb ∧ c.held = none ∧ s.regionWaits node rcb = true

/-- The KIND 5 record of a region that waits (R352). -/
def record352 (s : State) (node rcb save : Nat) : Record := ⟨5, 0, rcb, save, node, 0, 0, 0, 0, s.time⟩

/-- The context is held under an image with its snapshot, and the record names it. -/
abbrev SnapshotPost (s s' : State) (node rcb : Nat) (r : Region) (c : Ctx) : Prop :=
  let mine (t : Team) : Bool := t.core.isSome && (s.launch? t.ref.launch).any (fun l => l.node == node && l.ccn == c.ccn)
  s'.nodes = withRecord s node r.fdom (record352 s node rcb s.nextNum) ∧
  s'.ctxs = s.ctxs.map (fun d => if d.node = node ∧ d.ccn = c.ccn then { d with held := some s.nextNum } else d) ∧
  s'.teams = s.teams.map (fun t => if s.teams.any (fun u => u.ref == t.ref && mine u) then
    { t with core := none, saved := true, waitSince := s.time, mt := s.mtOf t } else t) ∧
  (∀ a, s'.mem.read a = s.mem.read a) ∧ s'.nextNum = s.nextNum + 1 ∧
  ∃ v ∈ s'.saves, v.num = s.nextNum ∧ v.node = node ∧ v.image.map (fun i => (i.1, i.2.2)) = some (4, s.time) ∧
    v.snapshot = (s.waves.filter (fun w => w.status == .asleep && (s.teams.any (fun t => t.ref == w.ref.team && mine t)))).map (fun w => (w.ref, w.wake)) ∧
    v.barriers = (s.teams.filter mine).flatMap (fun t => t.barriers.map (fun b =>
      (t.ref, [b.off, s.barWord t b.off 1, b.arrived.toNat, barExpect (s.barWord t b.off 0)])))


/-! ### Requests at their target and answers (R340, R357 to R362) -/

/-- Whether two requests are updates of one instruction of a wave (R176, R181, R319). -/
def mates319 (p q : Packet) : Bool :=
  let upd (r : Packet) : Bool := match r.op with
    | some (.atomic _ _ _ _ _ _) => true
    | some (.ring _ _ _ _) => true
    | _ => false
  p.wave.isSome && q.wave == p.wave && q.pend == p.pend && upd p && upd q

/-- The packets of the stream of a packet, in the order in which they were sent. -/
def stream357 (s : State) (p : Packet) : List Packet := s.packets.filter (fun q => q.stream == p.stream)

/-- A team of which a wave is left, which therefore does not retire (R287). -/
def stays287 (s : State) (r : Option WaveRef) : Bool := r.all (fun r => s.waves.any (fun w => w.ref.team == r.team))

/-- Packet `p` is the next of its stream, which lives as the stream of the answers does, and it is not older than LT. -/
abbrev Deliverable (s : State) (p : Packet) (op : RemoteOp) : Prop :=
  s.stuck = none ∧ s.packets.find? (fun q => q.num == p.num) = some p ∧ p.op = some op ∧ (stream357 s p).head?.map (·.num) = some p.num ∧
  s.deadStreams.contains p.stream = false ∧ s.deadStreams.contains ⟨.response, p.stream.dst, p.stream.die, p.stream.node⟩ = false ∧
  s.time ≤ p.time + lifetime ∧ stays287 s p.wave = true

/-- No other request is performed together with this one. -/
abbrev Single (s : State) (p : Packet) : Prop := ∀ q ∈ ((stream357 s p).drop 1).head?, mates319 p q = false ∧ q.num ≠ p.num

/-- The key of a request at its target, where its checks pass (R361). -/
def key361 (s : State) (p : Packet) (n : Nat) (a : Access) : Option Nat :=
  (s.remoteKey p.stream.dst p.ccn p.world p.addr.toNat n a).toOption

/-- The result that an entry holds for a lane, in `n` registers. -/
def held359 (e : Pend) (n lane : Nat) : Nat :=
  let reg (i : Nat) : Nat := (e.writes.getD i (116, {})).2.form.at (fun _ _ => 0) lane
  if n = 2 then reg 0 + 2 ^ 32 * reg 1 else reg 0

/-- An answer for a lane (or, with tag 32, for every lane) has reached an entry: one answer less is awaited, and the lane holds the
value and its marks (R340, R359). Where `keeps` holds of what the entry held for another lane, it holds it still. -/
abbrev Answered (e e' : Pend) (tag reg n v : Nat) (poison world : Bool) (keeps : Nat → Bool) : Prop :=
  e' = { e with writes := e'.writes, waits := e.waits - 1 } ∧
  (reg ≠ 116 → ∀ lane ∈ lanes,
    (if lane = tag ∨ tag = 32 then held359 e' n lane = v else keeps (held359 e n lane) = true → held359 e' n lane = held359 e n lane) ∧
    ((e'.writes.headD (116, {})).2.poison.getLsbD lane =
      ((e.writes.headD (116, {})).2.poison.getLsbD lane || (poison && (lane == tag || (tag == 32 && e.mask.getLsbD lane))))) ∧
    ((e'.writes.headD (116, {})).2.world.getLsbD lane =
      ((e.writes.headD (116, {})).2.world.getLsbD lane || (world && (lane == tag || (tag == 32 && e.mask.getLsbD lane))))))

/-- The answer to a packet has reached its entry, and no other entry and nothing else of a wave has changed. -/
abbrev AnswerReached (ws ws' : List Wave) (p : Packet) (ans : Pend → Pend → Bool) : Prop :=
  ws'.length = ws.length ∧ ∀ q ∈ ws.zip ws', q.2 = { q.1 with pend := q.2.pend } ∧ q.2.pend.length = q.1.pend.length ∧
    ∀ e ∈ q.1.pend.zip q.2.pend, if p.wave = some q.1.ref ∧ e.1.key = p.pend then ans e.1 e.2 = true else e.2 = e.1

/-- A packet has been delivered. -/
def delivered (s : State) (p : Packet) : List Packet := s.packets.filter (fun q => q.num != p.num)

/-- Whether a value is one of a type that is loaded from `n` bytes (R162). -/
def loaded162 (ty n v : Nat) : Bool := loadVal ty (v % 2 ^ (8 * n)) == v

/-- The bytes of a request's target have changed, its packet is gone, and its answer has arrived. -/
abbrev PerformedPost (s s' : State) (p : Packet) (final : Bytes) : Prop :=
  s' = { s with waves := s'.waves, deliveries := s'.deliveries, mem := s'.mem, poison := s'.poison, teams := s'.teams, packets := delivered s p } ∧
  BytesNow s s' final

/-- The EX of a request's word. -/
def ex361 (exw : Word) : Option Ex := if exw = 0 then none else some (Ex.ofWord exw)

/-- The new value of a remote atomic (R175). -/
def new361 (x : Option Ex) (m y c : Nat) : Nat := if exFx x = 10 then add178 x m y else new175 x m y c

/-- The registers of a type's value. -/
def regs361 (x : Option Ex) : Nat := if bytes162 (exTy x) = 8 then 2 else 1

/-- Whether a request is an update of R175 with a valid type and function: a wave's word, or a host adapter's. -/
def update175 (word exw : Word) : Bool :=
  (decide (0x68 ≤ word.maj) && decide (word.maj ≤ 0x6B) && decide (checkWord (ex361 exw) word = none)) ||
    (decide (exFx (ex361 exw) ≤ 9) && extOk (wordInfo (ex361 exw) atomgWord) (ex361 exw) atomgWord)

/-- A request with an answer: its lane, its register, the registers of its value, the bytes of its answer, and the values of another
lane that stand as they are. -/
def answer362 : RemoteOp → Option (Nat × Nat × Nat × Nat × (Nat → Bool))
  | .load tag reg n ty => some (tag, reg, if n = 8 then 2 else 1, n, loaded162 ty n)
  | .atomic lane reg _ exw _ _ => some (lane, reg, regs361 (ex361 exw), bytes162 (exTy (ex361 exw)), fun v => decide (v < 2 ^ 32) || regs361 (ex361 exw) == 2)
  | .ring lane reg _ _ => some (lane, reg, 1, 4, fun v => decide (v < 2 ^ 32))
  | _ => none

/-- The access of a request at its target: its bytes, and its class (R361). -/
def access361 : RemoteOp → Nat × Access
  | .load _ _ n _ => (n, .read)
  | .store d _ => (d.length, .write)
  | .poison d => (d.length, .write)
  | .atomic _ _ _ exw _ _ => (bytes162 (exTy (ex361 exw)), .rmw)
  | .ring _ _ _ _ => (256, .rmw)
  | .word _ _ => (4, .write)

/-- The answer to a request has gone to its wave, where the value is `v`, or to the host adapter that sent it, which has the bytes of
`raw` (R359, R361). -/
abbrev AnswerGone (s s' : State) (p : Packet) (op : RemoteOp) (v raw : Nat) (poison world : Bool) : Prop :=
  let a := (answer362 op).getD (0, 0, 0, 0, fun _ => true)
  (answer362 op).isSome = true ∧
    AnswerReached s.waves s'.waves p (fun e e' => decide (Answered e e' a.1 a.2.1 a.2.2.1 v poison world a.2.2.2.2)) ∧
    s'.answers = if p.wave = none then s.answers ++ [⟨p.stream.node, p.stream.dst, p.pend, toBytes a.2.2.2.1 raw, poison, world⟩] else s.answers

/-- The request packet of a host adapter's operation, under the CCN that the host gives it and in the world that the node's firmware
names for the adapter (R361, R371). -/
def hostPacket361 (s : State) (q : HostReq) : Packet :=
  { num := s.nextNum, stream := ⟨.request, q.adapter, 0, q.node⟩, addr := q.addr, ccn := q.ccn,
    world := Config.adapterSecure (((s.node? q.node).map (·.fwDigest)).getD 0) q.adapter, time := s.time, wave := none, pend := q.tag,
    op := some (hostRemote q.op), tokens := [], rcb := 0, fdom := 0 }

/-- A refused request fails a check of cause `c` and DETAIL `d` at its target (R361). -/
abbrev Refused (s : State) (p : Packet) (op : RemoteOp) (c d : Nat) : Prop :=
  Deliverable s p op ∧ Single s p ∧ s.remoteKey p.stream.dst p.ccn p.world p.addr.toNat (access361 op).1 (access361 op).2 = .error (c, d)

/-- The nodes with the notice of a refusal, where it is a failed world check (R362, R374). -/
def refused374 (s : State) (p : Packet) (c d : Nat) : List Node :=
  if c = 7 then nodes374 s p.stream.dst (c + 256 * d) p.rcb (s.whereOf p) else s.nodes

/-! ### Failed streams (R342, R358) -/

/-- The node at which the arrivals of a caldera barrier meet (R204; log 42). -/
def root204 (s : State) : Nat := (s.nodes.head?.map (·.num)).getD 0

/-- The stream of an arrival to a caldera barrier: the requests of its team's die to the node where the arrivals meet (R204, R357). -/
def arriving204 (s : State) (a : HwArrival) : Option FabStream :=
  (s.team? a.team).bind (fun t => if a.level = 4 ∧ t.node ≠ root204 s then some ⟨.request, t.node, t.die, root204 s⟩ else none)

/-- The packets that a failed stream loses. -/
def lost342 (s : State) (f : FabStream) : List Packet := s.packets.filter (fun p => p.stream == f)

/-- Whether the answer to a lost packet was awaited by an entry of a wave: its lane and register. -/
def awaited342 (p : Packet) (r : WaveRef) (key : Nat) : Option (Nat × Nat) :=
  if p.wave == some r && p.pend == key then match p.op with
    | some (.load tag reg _ _) => some (tag, reg)
    | some (.atomic lane reg _ _ _ _) => some (lane, reg)
    | some (.ring lane reg _ _) => some (lane, reg)
    | _ => none
  else none

/-- The parties that lost a packet, or domain 0 where none did. -/
def parties342 (s : State) (f : FabStream) : List (Nat × Nat) :=
  if lost342 s f = [] then [(0, 0)] else ((lost342 s f).map (fun p => (p.fdom, p.rcb))).eraseDups

/-- The answer that a host adapter has to a lost packet. -/
def hostAnswer342 (p : Packet) : Option HostAnswer :=
  if p.wave.isSome then none
  else (p.op.bind answer362).map (fun a => ⟨p.stream.node, p.stream.dst, p.pend, toBytes a.2.2.2.1 0, true, false⟩)

/-- A stream has failed: its packets are lost, their results poisoned, and every party has a KIND 4 record; `aged` counts the packets
discarded for age. -/
abbrev StreamFailed (s s' : State) (f : FabStream) (aged : Nat) : Prop :=
  s' = { s with packets := s.packets.filter (fun p => p.stream != f), deadStreams := s.deadStreams ++ [f], waves := s'.waves, nodes := s'.nodes,
                arrivals := s.arrivals.filter (fun a => arriving204 s a != some f), answers := s'.answers } ∧
  s'.answers = s.answers ++ (lost342 s f).filterMap hostAnswer342 ∧
  s'.nodes = s.nodes.map (fun d => if d.num = f.node then { d with
      records := d.records ++ (parties342 s f).map (fun p => (p.1, ⟨4, 0, p.2, 0, f.dst % 256, 0, 0, 0, 0, s.time⟩))
      counters := modAt (modAt d.counters 1 (· + aged)) 2 (· + 1) }
    else if f.cls = .dispatch ∧ d.num = f.dst then { d with frags := d.frags.filter (fun g => !(g.srcNode == f.node && g.srcDie == f.die)) } else d) ∧
  s'.waves.length = s.waves.length ∧ ∀ q ∈ s.waves.zip s'.waves, q.2 = { q.1 with pend := q.2.pend } ∧ q.2.pend.length = q.1.pend.length ∧
    ∀ e ∈ q.1.pend.zip q.2.pend,
      e.2 = { e.1 with writes := e.2.writes, waits := e.1.waits - (lost342 s f).countP (fun p => (awaited342 p q.1.ref e.1.key).isSome) } ∧
      ∀ p ∈ lost342 s f, (awaited342 p q.1.ref e.1.key).all (fun a => a.1 == 32 || (e.2.writes.headD (116, {})).2.poison.getLsbD a.1) = true

/-- The lost packets were to write registers. -/
abbrev LosesResults (s : State) (f : FabStream) : Prop :=
  s.stuck = none ∧ s.deadStreams.contains f = false ∧ f.node ≠ f.dst ∧ ∀ p ∈ lost342 s f, stays287 s p.wave = true ∧ p.wave.all (fun r => (awaited342 p r p.pend).all (fun a => decide (a.1 ≤ 32) && decide (a.2 ≠ 116))) = true

/-! ### Fault records (R339, R341) -/

/-- No stream waits for a record's publication. -/
abbrev Unawaited (s : State) (r : Record) : Prop := ∀ m ∈ s.streams, (m.halted && m.resetOn == some r) = false

/-- Stream `q` alone waits for a record's publication; its commands are of teams that do not retire, and none is a join. -/
abbrev Awaited (s : State) (q : StreamRef) (r : Record) : Prop :=
  (stream218 s q).ref = q ∧ (stream218 s q).halted = true ∧ (stream218 s q).resetOn = some r ∧
  (∀ m ∈ s.streams, m.ref ≠ q → (m.halted && m.resetOn == some r) = false) ∧ (s.streams.countP (fun m => m.ref == q)) = 1 ∧
  ∀ c ∈ (stream218 s q).cmds, c.join = none ∧ stays287 s c.wave = true

/-- Stream `q` has been reset (R341): its commands are discarded, their flags have fallen, and it performs new commands. -/
abbrev ResetPost (s s' : State) (q : StreamRef) : Prop :=
  s'.waves.map flagless = s.waves.map flagless ∧ FlagsFall s s' (stream218 s q).cmds ∧
  s'.streams = (withStream s q { stream218 s q with
    cmds := [], halted := false, resetOn := none, failed := (stream218 s q).failed ++ (stream218 s q).cmds.map (·.seq) }).streams

/-- The 128 bytes of a fault record. -/
def record339 (r : Record) : List Byte :=
  [(4, r.kind), (4, r.code), (8, r.rcb), (8, r.save), (4, r.where_), (4, r.mask), (8, r.seq), (4, r.pc), (4, r.gen), (8, r.time), (72, 0)].flatMap
    (fun p => toBytes p.1 p.2)

/-- The first record of a domain, and the records behind it. -/
abbrev FirstRecord (d : Node) (fdom : Nat) (r : Record) (before after : List (Nat × Record)) : Prop :=
  d.records = before ++ (fdom, r) :: after ∧ before.all (fun p => p.1 != fdom) = true

/-- The ring of a domain's entry, as the record's party reaches it, and the key of the slot that it reserves next. -/
abbrev RingFor (s : State) (node ring : Nat) (r : Record) (g : RingAt) (slot : Nat) : Prop :=
  ring ≠ 0 ∧ ((s.recordRes node r ring 256).toOption = some g.desc) ∧ (s.ringAt (s.recordRes node r) g.desc).toOption = some g ∧
  present (ringBytes g) = true ∧ (g.desc + 256 ≤ g.states ∨ g.states + (2 ^ g.nlog + 3) / 4 ≤ g.desc) ∧
  (s.recordRes node r (s.mem.word g.desc 8 + (s.ringWord g 0x10 % 2 ^ g.nlog) * 2 ^ (s.mem.word (g.desc + 8) 4 % 32)) 128).toOption = some slot ∧
  present (globBytes slot 128) = true ∧ ∀ o ∈ globBytes slot 128, (ringBytes g).contains o = false



/-! ### Hardware barriers (R204) -/

/-- The barrier that an arrival reaches, as it stands, or a new one of the arrival's generation. -/
def barrier204 (s : State) (a : HwArrival) : HwBarrier :=
  (s.barriers.find? (fun b => b.takes a)).getD ⟨a.level, a.hwid, a.inst, a.launch, a.gen, [], false, [], 0⟩

/-- The teams that have arrived with an arrival. -/
def arrived204 (b : HwBarrier) (a : HwArrival) : List (TeamRef × Nat) := b.teams.filter (fun p => p.1 != a.team) ++ [(a.team, a.off)]

/-- Whether a team takes part in the barrier of an arrival: its launch's teams of the instance, or its gang's. -/
def takesPart204 (s : State) (a : HwArrival) (t : Team) : Bool :=
  if a.level = 4 then (s.launch? t.ref.launch).any (fun l => l.flags.testBit 2 && l.gang == a.inst)
  else t.ref.launch == a.launch && barInst s t a.level == a.inst

/-- A node's counter has grown by one (R370). -/
def counted370 (s : State) (node i : Nat) : List Node :=
  s.nodes.map (fun d => if d.num = node then { d with counters := modAt d.counters i (· + 1) } else d)

/-- An element leaves a list. -/
def without {α : Type} (l : List α) (j : Nat) : List α := l.take j ++ l.drop (j + 1)

/-- Whether an arrival waits: its generation's number was retired less than LT ago (R369; log 42). -/
def waits369 (s : State) (a : HwArrival) : Bool := (barrier204 s a).retired.any (fun p => p.1 == a.gen && decide (s.time < p.2 + lifetime))

/-- Whether every team that takes part in the barrier of an arrival has arrived, none of its gang's being still to be dealt. -/
def complete204 (s : State) (a : HwArrival) : Bool :=
  s.teams.all (fun t => !takesPart204 s a t || (arrived204 (barrier204 s a) a).any (fun p => p.1 == t.ref)) &&
    !(a.level == 4 && s.launches.any (fun l => l.flags.testBit 2 && l.gang == a.inst && !l.dealt))

/-- The barrier of the next generation: the one that leaves the window is retired now, and one retired for LT is forgotten. -/
def next204 (b : HwBarrier) (now : Nat) : HwBarrier :=
  let gone := (b.gen + 65521) % 65536
  { b with teams := [], gen := (b.gen + 1) % 65536,
           retired := ((gone, now) :: b.retired.filter (fun p => p.1 != gone)).filter (fun p => decide (now < p.2 + lifetime)) }

/-- The barriers after an arrival of the current generation: the last one completes the phase, and the next generation begins. -/
def counted204 (s : State) (a : HwArrival) : List HwBarrier :=
  let b := { barrier204 s a with teams := arrived204 (barrier204 s a) a }
  s.barriers.filter (fun c => !c.takes a) ++
    if complete204 s a then [{ b with releasing := true, sent := s.time, retired := [] }, next204 b s.time] else [b]

/-- An arrival is on time, on a stream that lives, and its generation's number may be used. -/
abbrev Arrives (s : State) (j : Nat) (a : HwArrival) : Prop :=
  s.stuck = none ∧ s.arrivals[j]? = some a ∧ waits369 s a = false ∧
  ∀ f ∈ arriving204 s a, s.deadStreams.contains f = false ∧ s.time ≤ a.time + lifetime

/-- Where PHASE of a team's barrier object lies. -/
def phase201 (s : State) (t : Team) (off : Nat) : List Loc := s.scrLocs t (off + 4) 4

/-- The stream of a caldera barrier's release to a team of another node (R204, R357). -/
def releasing204 (s : State) (b : HwBarrier) (t : Team) : Option FabStream :=
  if b.level = 4 ∧ t.node ≠ root204 s then some ⟨.response, root204 s, 0, t.node⟩ else none

/-- The barriers once a release has gone to the first of the teams that it is to reach. -/
def left204 (s : State) (j : Nat) (b : HwBarrier) (rest : List (TeamRef × Nat)) : List HwBarrier :=
  if rest = [] then without s.barriers j else s.barriers.take j ++ { b with teams := rest } :: s.barriers.drop (j + 1)

/-- A release goes to a team that is there; `old` says that it is older than LT. -/
abbrev Releases (s : State) (j : Nat) (b : HwBarrier) (t : Team) (off : Nat) (rest : List (TeamRef × Nat)) (old : Bool) : Prop :=
  s.stuck = none ∧ s.barriers[j]? = some b ∧ b.releasing = true ∧ b.teams = (t.ref, off) :: rest ∧ s.team? t.ref = some t ∧
  (∀ f ∈ releasing204 s b t, s.deadStreams.contains f = false) ∧
  old = ((releasing204 s b t).isSome && decide (b.sent + lifetime < s.time))

/-- The current generation of a barrier's instance: the release is that of the phase before it. -/
abbrev Current204 (s : State) (j : Nat) (b : HwBarrier) (rest : List (TeamRef × Nat)) : Prop :=
  (b.gen + 1) % 65536 = (((left204 s j b rest).find? (fun c => !c.releasing && c.level == b.level && c.hwid == b.hwid && c.inst == b.inst &&
    (b.level == 4 || c.launch == b.launch))).map (·.gen)).getD 0

/-- A release has reached the first team that it is to reach: its PHASE has grown by one. -/
abbrev ReleasePost (s s' : State) (j : Nat) (b : HwBarrier) (t : Team) (off : Nat) (rest : List (TeamRef × Nat)) : Prop :=
  s' = { s with waves := s'.waves, deliveries := s'.deliveries, mem := s'.mem, poison := s'.poison, teams := s'.teams, barriers := s'.barriers } ∧
  BytesNow s s' (Bytes.put s.peek (phase201 s t off) (toBytes 4 ((Bytes.num s.peek (phase201 s t off) + 1) % 2 ^ 32))) ∧
  s'.barriers = left204 s j b rest

/-! ### Geyser (R367 to R369) -/

/-- The first `n` tokens of a queue fill a packet: they share ring, context and generation, they take 4 flits at most, and the next token
is of another kind or does not fit. -/
abbrev Packed367 (ts : List Token) (n : Nat) : Prop :=
  1 ≤ n ∧ n ≤ ts.length ∧ (∀ t ∈ ts.take n, (ts.headD ⟨0, 0, false, 0, [], false, 0, 0, 0, 0, 0⟩).shares t = true) ∧
  ((ts.take n).map (fun t => (t.payload.length + 63) / 64)).sum ≤ 4 ∧
  ∀ t ∈ (ts.drop n).head?, (ts.headD ⟨0, 0, false, 0, [], false, 0, 0, 0, 0, 0⟩).shares t = false ∨
    4 < ((ts.take (n + 1)).map (fun t => (t.payload.length + 63) / 64)).sum

/-- A queue holds tokens, may send, and has had no new token for 128 cycles; its first token fits one packet. -/
abbrev IdleQueue (s : State) (node die dst : Nat) (d : Node) (q : SendQ) : Prop :=
  s.stuck = none ∧ s.node? node = some d ∧ d.sendq die dst = q ∧ q.tokens ≠ [] ∧ q.blocked = false ∧ q.since + 128 ≤ s.time ∧
  (q.tokens.all (fun t => decide (1 ≤ t.payload.length) && decide (t.payload.length ≤ 256))) = true ∧ q.die = die ∧ q.dst = dst

/-- The packet of the first `n` tokens of a queue. -/
def packet367 (s : State) (node : Nat) (q : SendQ) (n : Nat) : Packet :=
  let t := q.tokens.headD ⟨0, 0, false, 0, [], false, 0, 0, 0, 0, 0⟩
  { num := s.nextNum, stream := ⟨.dispatch, node, q.die, q.dst⟩, addr := t.ring, ccn := t.ccn, world := t.world, time := s.time, wave := none,
    pend := t.gen, op := none, tokens := q.tokens.take n, rcb := t.srcRcb, fdom := t.srcFdom }

/-- The packets of a token above 256 bytes: its pieces of 256 bytes, each but the last with others behind it. -/
def pieces367 (s : State) (node : Nat) (q : SendQ) (t : Token) : List Packet :=
  let n := (t.payload.length + 255) / 256
  let piece (i : Nat) : Token := { t with payload := (t.payload.drop (256 * i)).take 256, more := decide (i + 1 < n) }
  (List.range n).map (fun i =>
    { num := s.nextNum + i, stream := ⟨.dispatch, node, q.die, q.dst⟩, addr := t.ring, ccn := t.ccn, world := t.world, time := s.time,
      wave := none, pend := t.gen, op := none, tokens := [piece i], rcb := t.srcRcb, fdom := t.srcFdom })

/-- How a receiving Geyser reaches an address for a token (R361, R368). -/
def reach368 (s : State) (dst : Nat) (t : Token) (a n : Nat) : Except (Nat × Nat) Nat := s.remoteKey dst t.ccn t.world a n .write

/-- A token's ring at its receiver, with a slot that holds its payload. -/
abbrev TokenRing (s : State) (dst : Nat) (t : Token) (g : RingAt) (slot : Nat) : Prop :=
  (reach368 s dst t t.ring.toNat 256).toOption = some g.desc ∧ (s.ringAt (reach368 s dst t) g.desc).toOption = some g ∧
  t.payload.length ≤ 2 ^ (s.mem.word (g.desc + 8) 4 % 32) ∧
  (reach368 s dst t ((s.mem.word g.desc 8 + (s.ringWord g 0x10 % 2 ^ g.nlog) * 2 ^ (s.mem.word (g.desc + 8) 4 % 32)) % 2 ^ 64)
    t.payload.length).toOption = some slot ∧
  present (ringBytes g) = true ∧ present (globBytes slot t.payload.length) = true ∧
  (g.desc + 256 ≤ g.states ∨ g.states + (2 ^ g.nlog + 3) / 4 ≤ g.desc) ∧
  ∀ o ∈ globBytes slot t.payload.length, (ringBytes g).contains o = false

/-- The bytes after a token's delivery: RSV, the payload at the slot's start, PUB; and what RSV gives. -/
def delivery368 (m : Bytes) (g : RingAt) (slot : Nat) (t : Token) : Bytes × Nat :=
  let q := act181 0 0 m g
  ((act181 1 q.2 (Bytes.put q.1 (globBytes slot t.payload.length) t.payload) g).1, q.2)

/-- A dispatch packet is the next of its stream, which lives; one from another node is not older than LT; no delivery of its queue waits,
and no packet has its number. -/
abbrev Dispatched (s : State) (p : Packet) (d : Node) : Prop :=
  s.stuck = none ∧ s.packets.find? (fun q => q.num == p.num) = some p ∧ p.stream.cls = .dispatch ∧ s.isNext p = true ∧
  s.deadStreams.contains p.stream = false ∧ (p.stream.node = p.stream.dst ∨ s.time ≤ p.time + lifetime) ∧ s.node? p.stream.dst = some d ∧
  s.packets.countP (fun q => q.num == p.num) = 1 ∧ s.deliveries.any (fun x => x.node == p.stream.dst && x.srcNode == p.stream.node && x.srcDie == p.stream.die) = false

/-- The packet's generation is in the window of its context at the receiver (R369). -/
abbrev InWindow (p : Packet) (d : Node) : Prop := -16 < genDelta (d.gener p.ccn).cur p.pend ∧ genDelta (d.gener p.ccn).cur p.pend ≤ 0

/-- The pieces of a token that a node has received from a die. -/
def pieced367 (d : Node) (p : Packet) : List Byte := ((d.frags.find? (fun f => f.srcNode == p.stream.node && f.srcDie == p.stream.die)).map (·.bytes)).getD []

/-- A node that holds no piece of a token from a packet's die. -/
def unpieced367 (d : Node) (p : Packet) : Node := { d with frags := d.frags.filter (fun f => !(f.srcNode == p.stream.node && f.srcDie == p.stream.die)) }

/-- The nodes of a state, one of which has changed. -/
def withNode (s : State) (n : Nat) (f : Node → Node) : List Node := s.nodes.map (fun d => if d.num = n then f d else d)

/-- A state in which a packet carries other tokens. -/
def withTokens (s : State) (p : Packet) (ts : List Token) : State :=
  { s with packets := s.packets.map (fun q => if q.num = p.num then { q with tokens := ts } else q) }

/-- The window of a context moved on to a newer generation: those that leave it are retired now (R369). -/
def moved369 (x : Gener) (g now : Nat) : Gener :=
  let window (cur : Nat) : List Nat := (List.range 16).map (fun i => (cur + 65536 - i) % 65536)
  let gone := (window x.cur).filter (fun n => !(window g).contains n)
  { x with cur := g, retired := gone.map (fun n => (n, now)) ++ x.retired.filter (fun p => !gone.contains p.1) }

/-- The KIND 2 record of a token that its receiver has refused, for its sender (R368). -/
def refused368 (t : Token) (now : Nat) : Record := ⟨2, 10, t.srcRcb, 0, t.wref, 0, t.seq, 0, 0, now⟩

/-- The nodes after a token has been refused at `dst`: the notice of a failed world check, the receiver's count, the sender's record. -/
def dropped368 (s : State) (dst : Nat) (t : Token) (c d : Nat) : List Node :=
  let n1 := if c = 7 then nodes374 s dst (c + 256 * d) t.srcRcb t.wref else s.nodes
  let n2 := counted370 { s with nodes := n1 } dst 3
  withRecord { s with nodes := n2 } t.srcNode t.srcFdom (refused368 t s.time)

/-- Bytes have changed, and nothing else but what `keep` puts back. -/
abbrev DeliveredPost (s s' : State) (final : Bytes) : Prop :=
  s' = { s with waves := s'.waves, deliveries := s'.deliveries, mem := s'.mem, poison := s'.poison, teams := s'.teams, packets := s'.packets, nodes := s'.nodes } ∧
  BytesNow s s' final

/-- The deliveries but for whether they are to be tried again. -/
def waiting368 (ds : List Delivery) : List Delivery := ds.map (fun d => { d with retry := false })


/-! ### Gangs (R350, R351) -/

/-- A node whose gang state has changed. -/
def withGang (s : State) (node : Nat) (f : GangNode → GangNode) : List Node :=
  s.nodes.map (fun d => if d.num = node then { d with gang := f d.gang } else d)

/-- Slice boundary `k` of schedule `c` has fallen due on a node that prepares no change (R351). -/
abbrev BoundaryDue (s : State) (node : Nat) (d : Node) (c : GangSched) (k : Nat) : Prop :=
  s.stuck = none ∧ s.node? node = some d ∧ d.gang.sched = some c ∧ d.gang.prep = none ∧ c.t0 + d.gang.slice * c.slice ≤ s.time ∧
  1 ≤ c.slice ∧ 1 ≤ c.gangs.length ∧ k = (s.time - c.t0) / c.slice

/-- Whether a launch is one of a gang that runs on a node. -/
def gangOn (node : Nat) (l : Launch) : Bool := l.node == node && l.flags.testBit 2 && !l.held

/-- Whether a team is a placed one of such a launch. -/
def gangTeam (s : State) (node : Nat) (t : Team) : Bool := t.core.isSome && (s.launch? t.ref.launch).any (gangOn node)

/-- The outgoing gang has been saved under one image (R343, R350): its launches are held, its teams have left their cores, and their waves
have stopped. -/
abbrev SavedGang (s s1 : State) (node : Nat) : Prop :=
  let mine (t : TeamRef) : Bool := s.teams.any (fun u => u.ref == t && gangTeam s node u)
  s1 = { s with launches := s.launches.map (fun l => if gangOn node l then { l with held := true } else l)
                teams := s.teams.map (fun t => if mine t.ref then { t with core := none, saved := true, waitSince := s.time, mt := s.mtOf t } else t)
                saves := s.saves ++ [⟨s.nextNum, node, none, some (5, ((s.launches.find? (gangOn node)).map (·.region.ctxRcb)).getD 0, s.time), [], [], []⟩]
                nextNum := s.nextNum + 1, waves := s1.waves, streams := s1.streams, packets := s1.packets } ∧
  s1.waves.length = s.waves.length ∧ (∀ p ∈ s.waves.zip s1.waves, if mine p.1.ref.team = true then Stopped343 p.1 p.2 else p.2 = p.1) ∧
  s1.streams.map (·.ref) = s.streams.map (·.ref)

/-- Some teams are loaded, one after another, each on the first core that it fits (R277, R350). -/
def TeamsLoaded : List TeamRef → State → State → Prop
  | [], s, s' => s' = s
  | t :: ts, s, s' => ∃ m l c p, s.team? t = some m ∧ s.launch? t.launch = some l ∧ FitsFirst s m l c p ∧ TeamsLoaded ts (loadedState278 s m l c p) s'

/-- The waiting teams of a launch. -/
def unloaded350 (s : State) (n : Nat) : List TeamRef := (s.teams.filter (fun t => t.ref.launch == n && t.core.isNone)).map (·.ref)

/-- The teams of some launches are loaded, those of one launch all or none (R280, R350). -/
def GangLoaded : List Nat → State → State → Prop
  | [], s, s' => s' = s
  | n :: ns, s, s' => (∃ s1, TeamsLoaded (unloaded350 s n) s s1 ∧ GangLoaded ns s1 s') ∨
    ((∀ s1, ¬ TeamsLoaded (unloaded350 s n) s s1) ∧ GangLoaded ns s s')

/-- The held launches of a gang on a node. -/
def heldOf350 (s : State) (node gang : Nat) : List Nat :=
  (s.launches.filter (fun l => l.node == node && l.flags.testBit 2 && l.gang == gang && l.held)).map (·.num)

/-- The outgoing gang has been saved, and the images of the slice's gang are loaded, every wave held at its first issue. -/
abbrev PreparedPost (s s' : State) (node k : Nat) (c : GangSched) : Prop :=
  let next := c.gangs.getD (k % c.gangs.length) 0
  ∃ s1 s2, SavedGang s s1 node ∧ GangLoaded (heldOf350 s1 node next) s1 s2 ∧
    s' = { s2 with nodes := withGang s2 node (fun x => { x with prep := some (k, next), slice := k, arrivedAt := none }) }

/-- The nodes that hold a gang schedule. -/
def scheduled350 (s : State) : List Nat := (s.nodes.filter (fun d => d.gang.sched.isSome)).map (·.num)

/-- The root after an arrival: it commits once every node with a schedule has arrived by T + G. -/
def root350 (s : State) (r : GangRoot) (node : Nat) : GangRoot :=
  let arrived := if r.arrived.contains node then r.arrived else r.arrived ++ [node]
  { r with arrived := arrived, decision := if (scheduled350 s).all arrived.contains && decide (s.time ≤ r.boundary + r.grace) then some true else none }

/-- A node has prepared slice `k` of schedule `c`, and its arrival has not left it. -/
abbrev Prepared (s : State) (node : Nat) (d : Node) (c : GangSched) (k gang : Nat) : Prop :=
  s.stuck = none ∧ s.node? node = some d ∧ d.gang.sched = some c ∧ d.gang.prep = some (k, gang) ∧ d.gang.arrivedAt = none

/-- The KIND 6 record of an aborted change (R350). -/
def late350 (s : State) (node gen : Nat) (cur : Option Nat) : Nat × Record :=
  match s.launches.find? (fun l => l.node == node && l.flags.testBit 2 && some l.gang == cur) with
  | none => (0, ⟨6, 0, 0, 0, node, 0, 0, 0, gen, s.time⟩)
  | some l => (l.region.fdom, ⟨6, 0, l.region.rcb, 0, node, 0, 0, 0, gen, s.time⟩)

/-- The launches of a gang on a node go on. -/
def released350 (s : State) (node : Nat) (gang : Option Nat) : List Launch :=
  s.launches.map (fun l => if l.node = node ∧ l.flags.testBit 2 = true ∧ gang = some l.gang then { l with held := false } else l)

/-- No placed team of a gang has still to resume. -/
abbrev NoneSaved (s : State) (node : Nat) (gang : Option Nat) : Prop :=
  ∀ t ∈ s.teams, t.core.isSome = true → (s.launch? t.ref.launch).any (fun l => l.node == node && l.flags.testBit 2 && some l.gang == gang) = true → t.saved = false

/-- One placed team alone of a gang has still to resume. -/
abbrev OneSaved (s : State) (node gang : Nat) (m : Team) : Prop :=
  s.teams.filter (fun t => t.core.isSome && (s.launch? t.ref.launch).any (fun l => l.node == node && l.flags.testBit 2 && l.gang == gang)) = [m] ∧
  m.saved = true ∧ s.team? m.ref = some m ∧ Resumable s m.ref

/-- The teams once the loaded images of a gang have been discarded (R350). -/
def discarded350 (s : State) (node gang : Nat) : List Team :=
  s.teams.map (fun t => if (s.launch? t.ref.launch).any (fun l => l.node == node && l.flags.testBit 2 && l.gang == gang && l.held) then { t with core := none } else t)

/-! ### Management requests (R363) -/

/-- A booted node that a request reaches. -/
abbrev Reached (s : State) (h : Mgmt) (d : Node) : Prop := s.stuck = none ∧ s.node? h.node = some d ∧ d.booted = true ∧ d.num = h.node

/-- A state with one more reply to the host. -/
def replied (s : State) (h : Mgmt) (code status : Nat) (data : List Byte) : State :=
  { s with replies := s.replies ++ [⟨h.adapter, h.node, code, h.tag, status, data⟩] }

/-- A request of a management-enabled adapter is answered; any other is dropped and counted. -/
def answered363 (s : State) (h : Mgmt) (d : Node) (code : Nat) (a : State × Nat × List Byte) : State :=
  if d.manages h then replied a.1 h code a.2.1 a.2.2 else { s with nodes := counted370 s h.node 5 }

/-- An answer that a mode bit of the request's region lets through: STATUS 2 where there is no region, 1 where the bit is clear. -/
def moded363 (s : State) (h : Mgmt) (bit : Nat) (a : State × Nat × List Byte) : State × Nat × List Byte :=
  match s.region? h.node h.rcb with
  | none => (s, 2, [])
  | some r => if r.modes.testBit bit then a else (s, 1, [])

/-- A peer table entry from its two words (R360). -/
def peer360 (ccn lo hi : Nat) : Peer :=
  ⟨ccn, lo, hi.testBit 0, (BitVec.ofNat 64 hi).extractLsb' 32 16, (BitVec.ofNat 64 hi).extractLsb' 48 16⟩

/-- Whether the two words are those of an entry: RCB 256-aligned, reserved bits 0. -/
def peerOk360 (ccn lo hi : Nat) : Bool :=
  decide (ccn < 4096) && lo % 256 == 0 && decide (lo < 2 ^ 64) && decide (hi < 2 ^ 64) && hi % 2 ^ 32 / 2 == 0

/-- PEER_SET: the entry is written, and a valid one makes its context known on the node. -/
def peerSet360 (s : State) (node ccn lo hi : Nat) : State × Nat × List Byte :=
  if peerOk360 ccn lo hi then
    ({ s with
        nodes := s.nodes.map (fun d => if d.num = node then { d with peers := peer360 ccn lo hi :: d.peers.filter (fun q => q.ccn != ccn) } else d)
        ctxs := if hi.testBit 0 = false then s.ctxs
          else if s.ctxs.any (fun c => c.node == node && c.ccn == ccn) then
            s.ctxs.map (fun c => if c.node = node ∧ c.ccn = ccn then { c with rcb := lo } else c)
          else s.ctxs ++ [⟨node, ccn, lo, [0, 0, 0, 0], none, [], [], 0⟩] }, 0, [])
  else (s, 2, [])

/-- FDOM_SET: an entry of the fault domain table. -/
def fdomSet339 (s : State) (node n ring : Nat) : State × Nat × List Byte :=
  if n < 256 ∧ ring % 256 = 0 ∧ ring < 2 ^ 64 then
    ({ s with nodes := s.nodes.map (fun d => if d.num = node then { d with fdoms := (n, ring) :: d.fdoms.filter (fun p => p.1 != n) } else d) }, 0, [])
  else (s, 2, [])

/-- A node with a directory entry written. -/
def routed365 (d : Node) (r : RouteDir) : Node :=
  { d with routes := r :: d.routes.filter (fun e => !(e.die == r.die && e.ccn == r.ccn && e.table == r.table)) }

/-- A node with an entry of a table in its save pool written. -/
def hosted365 (d : Node) (r : RouteWord) : Node :=
  { d with hostRoutes := r :: d.hostRoutes.filter (fun e =>
             !(e.die == r.die && e.ccn == r.ccn && e.table == r.table && e.expert == r.expert)) }

/-- ROUTE_SET: an entry of the routing directory, or, under MODES bit 18, of a table in the save pool. -/
def routeSet365 (s : State) (h : Mgmt) (die ccn : Nat) (r : RouteArg) : State × Nat × List Byte :=
  if 4 ≤ die ∨ 4096 ≤ ccn then (s, 2, [])
  else match r with
    | .dir table addr count =>
      if table < 16 ∧ addr % 8 = 0 ∧ addr < 2 ^ 64 ∧ count < 2 ^ 32 then
        ({ s with nodes := s.nodes.map (fun d => if d.num = h.node then routed365 d ⟨die, ccn, table, addr, count⟩ else d) }, 0, [])
      else (s, 2, [])
    | .entry table expert w =>
      if 16 ≤ table then (s, 2, [])
      else moded363 s h 18
        ({ s with nodes := s.nodes.map (fun d => if d.num = h.node then hosted365 d ⟨die, ccn, table, expert, w⟩ else d) }, 0, [])

/-- A number of `n` bytes in a record. -/
def recordField (bs : List Byte) (o n : Nat) : Nat := ofBytes ((bs.drop o).take n)

/-- The schedule of a gang schedule record, if it is within its limits (R351). -/
def schedule351 (bs : List Byte) : Option GangSched :=
  let f := recordField bs
  if bs.length = 64 ∧ 10000 ≤ f 8 8 ∧ 1000 ≤ f 0x10 4 ∧ f 0x10 4 ≤ 10000000 ∧ 1 ≤ f 0x14 4 ∧ f 0x14 4 ≤ 8 ∧ f 0x38 8 = 0 then
    some ⟨f 0 8, f 8 8, f 0x10 4, (List.range (f 0x14 4)).map (fun i => f (0x18 + 4 * i) 4)⟩
  else none

/-- GANG_SCHED: under MODES bit 17 the host installs the schedule. -/
def gangSched351 (s : State) (h : Mgmt) (bs : List Byte) : State × Nat × List Byte :=
  moded363 s h 17 (match schedule351 bs with
    | none => (s, 2, [])
    | some g => ({ s with nodes := withGang s h.node (fun x => { x with sched := some g, hosted := true, slice := 0 }) }, 0, []))

/-- A stream of a node that is halted. -/
abbrev HaltedOn (s : State) (node : Nat) (q : StreamRef) (t : Team) : Prop :=
  s.streamOn node q = true ∧ (stream218 s q).halted = true ∧ (stream218 s q).ref = q ∧ s.team? t.ref = some t ∧ t.cut = true ∧
  (s.waves.any (fun v => v.ref.team == t.ref)) = true ∧ Alone s q t

/-! ### Reading and writing a node's memory (R363, R381) -/

/-- MEM of a node: STATUS 2 for a length above 192 or bytes that no node has, 3 for the save pool and for a secure region that the
adapter may not reach, of which a notice is published (R374); else the bytes read, or written. -/
abbrev MemAnswer (s : State) (h : Mgmt) (d : Node) (addr len : Nat) (data : Option (List Byte)) (s1 : State) (status : Nat)
    (bs : List Byte) : Prop :=
  let k := 2 ^ 52 * d.num + addr
  if 192 < len ∨ physBytes < addr + len ∨ data.any (fun b => b.length != len) = true then s1 = s ∧ status = 2 ∧ bs = []
  else if d.booted = true ∧ Config.inSavePool d.fwDigest addr len = true then s1 = s ∧ status = 3 ∧ bs = []
  else if s.secureAt k len = true ∧ Config.adapterSecure d.fwDigest h.adapter = false then
    status = 3 ∧ bs = [] ∧ s1 = { s with nodes := match d.sfdom with
      | none => counted370 s d.num 4
      | some f => withRecord s d.num f ⟨8, 7, h.rcb, 0, d.num, 0, 0, 0, 0, s.time⟩ }
  else if data = none then s1 = s ∧ status = 0 ∧ bs = (globBytes k len).map s.peek
  else status = 0 ∧ bs = [] ∧
    s1 = { s with waves := s1.waves, deliveries := s1.deliveries, mem := s1.mem, poison := s1.poison, teams := s1.teams } ∧
    BytesNow s s1 (Bytes.put s.peek (globBytes k len) (data.getD []))

/-! ### Resuming and ending waves and contexts (R263, R307, R338, R349) -/

/-- A wave is descheduled for replay, with its frame in a slot of its node's save pool; its team is at work and holds another wave. -/
abbrev Descheduled (s : State) (node : Nat) (r : WaveRef) (w : Wave) (n : Nat) (f : Frame) (t : Team) (l : Launch) : Prop :=
  s.wave? r = some w ∧ w.ref = r ∧ w.status = .descheduled n ∧
  ((s.saves.find? (fun v => v.num == n && v.node == node)).bind (·.frame)).map Prod.snd = some f ∧
  s.team? r.team = some t ∧ s.launch? r.team.launch = some l ∧ s.runs t l = true

/-- The wave goes on as by a TRET from its frame: k22 and k23 restored, its group at RESUMEPC, its performed entries among the
unfinished instructions, the oldest first. -/
abbrev ResumePost (s s1 : State) (r : WaveRef) (w : Wave) (n : Nat) (f : Frame) : Prop :=
  s1 = { s with waves := s1.waves, saves := s.saves.filter (fun v => v.num != n), nextNum := s.nextNum + f.entries.length } ∧
  s1.waves.map (otherWave r) = s.waves.map (otherWave r) ∧
  ∃ w' ∈ s1.wave? r, w' = { w with status := .ready, pcs := w'.pcs, group := none
                                   k := setFile 0 (setFile 0 w.k 22 f.k22) 23 f.k23
                                   pend := f.entries.zipIdx.map (fun p => { p.1 with key := s.nextNum + p.2 }) } ∧
    ∀ lane ∈ lanes, w'.pcOf lane = if f.tmask.getLsbD lane && w.live.getLsbD lane then f.resume else w.pcOf lane

/-- Every item of the wave has ended, and its entries with it; its team goes on. -/
abbrev WaveGone (s s1 : State) (r : WaveRef) (n : Nat) (t : Team) : Prop :=
  s1.wave? r = none ∧ s1.saves = s.saves.filter (fun v => v.num != n) ∧ s1.launches = s.launches ∧ s1.streams = s.streams ∧
  (s1.waves.map (·.ref)) = (s.waves.map (·.ref)).filter (fun q => q != r) ∧
  (s1.team? r.team).map (·.ended) = some (t.ended ||| maskOf (fun i => i == r.num)) ∧ ∀ a, s1.mem.read a = s.mem.read a

/-- A context that is held goes on: its image is used up, its wait counters start again, and the launches of gangs that do not run
stay held (R350). -/
def resume349 (s : State) (node ccn : Nat) (d : Node) : State × Nat × List Byte :=
  match s.ctxs.find? (fun c => c.node == node && c.ccn == ccn) with
  | none => (s, 2, [])
  | some c => match c.held with
    | none => (s, 2, [])
    | some n => ({ s with
        saves := s.saves.filter (fun v => v.num != n)
        ctxs := s.ctxs.map (fun c => if c.node = node ∧ c.ccn = ccn then { c with held := none, waits := [], reported := [] } else c)
        launches := s.launches.map (fun l =>
          if l.node = node ∧ l.flags.testBit 2 = true ∧ d.gang.runs l.gang = false then { l with held := true }
          else if l.node = node ∧ l.ccn = ccn then { l with held := false } else l) }, 0, [])

/-- Whether a launch number is one of a context. -/
def owns363 (s : State) (node ccn n : Nat) : Bool := (s.launch? n).any (fun l => l.node == node && l.ccn == ccn)

/-- Nothing of the context is left, and nothing of any other has changed. -/
abbrev DestroyPost (s s1 : State) (node ccn : Nat) (rcb : Nat) : Prop :=
  s1.ctxs = s.ctxs.filter (fun c => !(c.node == node && c.ccn == ccn)) ∧
  s1.launches = s.launches.filter (fun l => !(l.node == node && l.ccn == ccn)) ∧
  s1.teams = s.teams.filter (fun t => !owns363 s node ccn t.ref.launch) ∧
  s1.waves = s.waves.filter (fun w => !owns363 s node ccn w.ref.team.launch) ∧
  s1.placed = s.placed.filter (fun p => !(p.node == node && p.ccn == ccn)) ∧
  s1.streams = s.streams.filter (fun q => match q.ref with
    | .team t _ => !owns363 s node ccn t.launch
    | .ctx n m => !(n == node && m == ccn)) ∧
  (∀ v ∈ s.saves, v ∈ s1.saves ∨ v.node = node) ∧
  (∀ v ∈ s1.saves, v ∈ s.saves ∧ (v.node = node → v.frame.all (fun f => !owns363 s node ccn f.1.team.launch) = true ∧
    (v.frame = none → v.image.all (fun i => i.2.1 != rcb) = true))) ∧
  (∀ d ∈ s1.nodes, d.num = node → d.peers.all (fun p => p.ccn != ccn) && d.routes.all (fun e => e.ccn != ccn) && d.geners.all (fun x => x.ccn != ccn) = true) ∧
  s1.nodes.map (·.records) = s.nodes.map (·.records) ∧ ∀ a, s1.mem.read a = s.mem.read a


/-! ### The debugger (R343, R344, R354, R355) -/

/-- Whether the references name waves of the region of a request, on its node. -/
def named354 (s : State) (h : Mgmt) (rs : List WaveRef) : Bool :=
  rs.all (fun r => (s.wave? r).isSome && (s.launch? r.team.launch).any (fun l => l.node == h.node && l.region.rcb == h.rcb))

/-- Whether a wave is descheduled for replay, or stopped by the debugger. -/
def aside354 (w : Wave) : Bool := match w.status with
  | .ready => false
  | .asleep => false
  | _ => true

/-- The named waves have stopped as by a pre-emption, a sleeper with its lines; no other wave has changed, and no register. -/
abbrev StopPost (s s1 : State) (rs : List WaveRef) : Prop :=
  s1 = { s with waves := s1.waves, packets := s1.packets } ∧ s1.waves.map (·.ref) = s.waves.map (·.ref) ∧
  ∀ w ∈ s.waves, ∀ v ∈ s.wave? w.ref, ∀ v' ∈ s1.wave? w.ref,
    if rs.contains w.ref = false ∨ aside354 v = true then v' = v else v'.status = .stopped ∧ Stopped343 { v with status := .stopped } v'

/-- A stopped wave without replay entries goes on: in a team at work a sleeper is woken once (R344). -/
def resumed354 (s : State) (w : Wave) (t : Team) (l : Launch) : Wave :=
  if w.status ≠ .stopped then w
  else if s.runs t l = true then { w with status := .ready, wake := [], txCause := if w.wake = [] then w.txCause else 4 }
  else { w with status := if w.wake = [] then .ready else .asleep }

/-- The named waves go on, and nothing else has changed. -/
abbrev GoOnPost (s s1 : State) (rs : List WaveRef) : Prop :=
  s1 = { s with waves := s1.waves } ∧ s1.waves.map (·.ref) = s.waves.map (·.ref) ∧
  ∀ w ∈ s.waves, ∀ v ∈ s.wave? w.ref, ∀ v' ∈ s1.wave? w.ref, ∀ t ∈ s.team? w.ref.team, ∀ l ∈ s.launch? w.ref.team.launch,
    v' = if rs.contains w.ref = true then { resumed354 s v t l with pend := v'.pend } else v

/-- What a register holds in a lane. -/
def regVal (s : State) (w : Wave) (r : Reg) (lane : Nat) : Nat := r.form.at (s.geo w).index lane

/-- The team of an item of the debugger. -/
def team354 : DebugItem → TeamRef
  | .vreg r _ _ => r.team
  | .kreg r _ => r.team
  | .xreg r _ _ => r.team
  | .preds r _ => r.team
  | .csr r _ _ => r.team
  | .replay r _ _ _ => r.team
  | .scratch t _ => t
  | .acm t _ => t

/-- A wave that the debugger has stopped, or that is descheduled for replay (log 15). -/
def halted354 (s : State) (r : WaveRef) : Option Wave := (s.wave? r).filter aside354

/-- A team with such a wave, and its launch. -/
def haltedTeam354 (s : State) (t : TeamRef) : Option (Team × Launch) :=
  if s.waves.any (fun w => w.ref.team == t && aside354 w) then
    (s.team? t).bind (fun m => (s.launch? t.launch).map (fun l => (m, l)))
  else none

/-- The counts of flags 4j to 4j + 3, a byte each (R25, R28). -/
def counts354 (w : Wave) (j : Nat) : Nat := ((List.range 4).map (fun i => 2 ^ (8 * i) * w.flags.getD (4 * j + i) 0)).sum

/-- The CSRs of item and wave scope that hold state of their own (R28). -/
def csrOf354 (w : Wave) (n lane : Nat) : Option Nat :=
  match n with
  | 0 => some ((w.trapCause.map BitVec.toNat).getD lane 0)
  | 1 => some ((w.trapPc.map BitVec.toNat).getD lane 0)
  | 2 => some w.exec.toNat
  | 3 => some (if w.ord then 1 else 0)
  | 4 => some (w.bndLo + 256 * w.bndHi)
  | 5 => some (w.wb + 256 * w.quota)
  | 12 => some (counts354 w 0)
  | 13 => some (counts354 w 1)
  | 14 => some (counts354 w 2)
  | _ => none

/-- The replay entries of a stopped wave: those of a descheduled one stand in its frame in the save pool (R338). -/
def entries354 (s : State) (w : Wave) : List Pend :=
  match w.status with
  | .descheduled n => (((s.saves.find? (fun v => v.num == n)).bind (·.frame)).map (fun p => p.2.entries)).getD []
  | _ => w.pend

/-- What the debugger reads of a stopped wave or team: registers, predicates, CSRs and bytes, as numbers of `n` bytes. -/
def read354 (s : State) (i : DebugItem) : Option (Nat × Nat) :=
  match i with
  | .vreg r n lane => (halted354 s r).bind (fun w => if n < w.quota ∧ lane < 32 then some (4, regVal s w (w.v.getD n {}) lane) else none)
  | .kreg r n => (halted354 s r).bind (fun w => if n < 24 then some (4, (w.k.getD n 0).toNat) else none)
  | .xreg r n lane => (halted354 s r).bind (fun w => if n < 4 ∧ lane < 32 then some (4, regVal s w (w.x.getD n {}) lane) else none)
  | .preds r lane => (halted354 s r).bind (fun w => if lane < 32 then
      some (1, ((List.range 8).map (fun p => if (w.pred p).getLsbD lane then 2 ^ p else 0)).sum) else none)
  | .csr r n lane => (halted354 s r).bind (fun w => if lane < 32 then (csrOf354 w n lane).map (fun v => (4, v)) else none)
  | .scratch t off => (haltedTeam354 s t).bind (fun m => if off + 4 ≤ m.2.kernel.alloc then
      some (4, Bytes.num s.peek (s.scrLocs m.1 off 4)) else none)
  | .acm t word => (haltedTeam354 s t).bind (fun m => if word < m.2.kernel.acm then some (4, acmWord s t word) else none)
  | .replay r e lane word => (halted354 s r).bind (fun w => ((entries354 s w)[e]?).bind (fun p =>
      if lane ≤ 32 ∧ word < 8 then some (4, p.wordAt w.live lane word) else none))

/-- Items whose value the claim names: of the CSRs, those with state of their own. -/
def plain354 : DebugItem → Bool
  | .csr _ n _ => decide (n ≤ 5) || decide (12 ≤ n ∧ n ≤ 14)
  | _ => true

/-- The wave of a reference alone has changed. -/
abbrev OneWave (s s1 : State) (r : WaveRef) : Prop :=
  s1 = { s with waves := s1.waves } ∧ s1.waves.map (otherWave r) = s.waves.map (otherWave r)

/-- Whether the debugger may write an item: of the CSRs those with state of their own, within their limits (log 15). -/
def writable355 (s : State) (i : DebugItem) (v : Nat) : Bool :=
  match i with
  | .csr r n lane => (halted354 s r).any (fun w => decide (lane < 32) && (n == 0 || n == 1 || n == 3 ||
      (n == 4 && decide (v < 2 ^ 16) && decide (v % 256 ≤ v / 256) && decide (v / 256 ≤ 88)) ||
      (n == 5 && v / 256 == w.quota && v % 8 == 0 && (v % 256 == 0 || decide (v % 256 + 88 ≤ w.quota))) || n == 6 ||
      (n == 7 && v / 2 ^ 9 % 2 ^ 7 == 0 && decide (v % 2 ^ 9 ≤ 256) && (s.team? r.team).isSome) || (decide (12 ≤ n) && decide (n ≤ 14))))
  | i => (read354 s i).isSome

/-- Items whose write the claim says: all but those of replay entries. -/
def settable355 : DebugItem → Bool
  | .replay _ _ _ _ => false
  | _ => true

/-- A register file in which one lane of register `n` is `v`, without marks, and no other lane of any register has changed. -/
abbrev FileWith (s : State) (w : Wave) (a b : List Reg) (n lane v : Nat) : Prop :=
  ∀ i, (∀ j ∈ lanes, regVal s w (b.getD i {}) j = if i = n ∧ j = lane then v % 2 ^ 32 else regVal s w (a.getD i {}) j) ∧
    (b.getD i {}).poison = (if i = n then (a.getD i {}).poison &&& ~~~laneBit lane else (a.getD i {}).poison) ∧
    (b.getD i {}).world = (if i = n then (a.getD i {}).world &&& ~~~laneBit lane else (a.getD i {}).world)

/-- The counts of a wave's flags after a write of flags 4j to 4j + 3. -/
def flags355 (w : Wave) (j v : Nat) : List Nat :=
  (List.range 12).map (fun i => if i / 4 = j then v / 2 ^ (8 * (i % 4)) % 64 else w.flags.getD i 0)

/-- What a write of the debugger changes, and nothing else. -/
def WritePost (s s1 : State) (i : DebugItem) (v : Nat) : Prop :=
  match i with
  | .vreg r n lane => OneWave s s1 r ∧ ∃ w ∈ s.wave? r, ∃ w' ∈ s1.wave? r, w' = { w with v := w'.v } ∧ FileWith s w w.v w'.v n lane v
  | .xreg r n lane => OneWave s s1 r ∧ ∃ w ∈ s.wave? r, ∃ w' ∈ s1.wave? r, w' = { w with x := w'.x } ∧ FileWith s w w.x w'.x n lane v
  | .kreg r n => OneWave s s1 r ∧ ∃ w ∈ s.wave? r, ∃ w' ∈ s1.wave? r, w' = { w with k := w'.k } ∧
      ∀ j, w'.k.getD j 0 = if j = n then BitVec.ofNat 32 v else w.k.getD j 0
  | .preds r lane => OneWave s s1 r ∧ ∃ w ∈ s.wave? r, ∃ w' ∈ s1.wave? r, w' = { w with preds := w'.preds } ∧
      ∀ p ∈ List.range 8, ∀ j ∈ lanes, (w'.pred p).getLsbD j = if j = lane ∧ 1 ≤ p then v.testBit p else (w.pred p).getLsbD j
  | .csr r 7 _ => ∃ t ∈ s.team? r.team, s1 = match t.core with
      | some c => { s with cores := s.cores.map (fun k => if k.node = t.node ∧ k.die = t.die ∧ k.num = c then
          { k with mtSeq := v / 2 ^ 16 % 2 ^ 16, mtCount := v % 2 ^ 9 } else k) }
      | none => { s with teams := s.teams.map (fun m => if m.ref = t.ref then { m with mt := (v / 2 ^ 16 % 2 ^ 16, v % 2 ^ 9) } else m) }
  | .csr r n lane => OneWave s s1 r ∧ ∃ w ∈ s.wave? r, ∃ w' ∈ s1.wave? r, w' = match n with
      | 5 => { w with wb := v % 256 }
      | 6 => { w with txCause := v / 2 ^ 12 % 16 }
      | 12 => { w with flags := flags355 w 0 v }
      | 13 => { w with flags := flags355 w 1 v }
      | 14 => { w with flags := flags355 w 2 v }
      | 0 => { w with trapCause := setAt w.trapCause lane (BitVec.ofNat 32 v) }
      | 1 => { w with trapPc := setAt w.trapPc lane (BitVec.ofNat 32 v) }
      | 3 => { w with ord := v.testBit 0 }
      | _ => { w with bndLo := v % 256, bndHi := v / 256 }
  | .scratch t off => s1 = { s with waves := s1.waves, deliveries := s1.deliveries, mem := s1.mem, poison := s1.poison, teams := s1.teams } ∧
      ∃ m ∈ s.team? t, BytesNow s s1 (Bytes.put s.peek (s.scrLocs m off 4) (toBytes 4 v))
  | .acm t word => s1 = { s with teams := s1.teams } ∧ s1.teams.map (fun m => { m with acm := [] }) = s.teams.map (fun m => { m with acm := [] }) ∧
      ∀ a, acmWord s1 t a = if a = word then v % 2 ^ 32 else acmWord s t a
  | .replay _ _ _ _ => False

/-! ### SPDM (R382) -/

/-- What the responder does with a request on a node: the kind of its response, its content, and the stage that it moves to, if any. The
kinds are the model's numbers: 0 to 6 the responses in the order of the requests, 7 UnexpectedRequest, 8 UnsupportedRequest,
9 InvalidRequest; the stages count the requests that must come first. Another slot than 0, and a message above 240 bytes, are
InvalidRequest (log 15). -/
def spdm382 (i : Instr) (d : Node) : Option (Mgmt × List Byte × Nat × Config.SpdmContent × Option Nat) :=
  let inOrder (h : Mgmt) (stage : Nat) (r : Nat × Config.SpdmContent × Option Nat) : Nat × Config.SpdmContent × Option Nat :=
    if d.spdm.adapter = some h.adapter ∧ d.spdm.stage = stage then r else (7, .none, none)
  let sized (h : Mgmt) (msg : List Byte) (r : Nat × Config.SpdmContent × Option Nat) : Option (Mgmt × List Byte × Nat × Config.SpdmContent × Option Nat) :=
    some (h, msg, if msg.length ≤ 240 then r else (9, .none, none))
  let slot (msg : List Byte) (r : Nat × Config.SpdmContent × Option Nat) : Nat × Config.SpdmContent × Option Nat :=
    if Config.spdmSlot msg = 0 then r else (9, .none, none)
  let chain := Config.certificate (d.ms.getD 0 0)
  let signed (msg : List Byte) : List Byte := Config.spdmSign (d.ms.getD 0 0) (sha512 (d.spdm.transcript ++ msg))
  match i with
  | .getVersion h msg => sized h msg (0, .versions [(1, 2)], some 1)
  | .getCapabilities h msg => sized h msg (inOrder h 1 (1, .capabilities true true true true 240, some 2))
  | .negotiateAlgorithms h msg => sized h msg (inOrder h 2 (if Config.spdmOffers msg then (2, .algorithms .ed25519 .sha512 .sha512, some 3) else (9, .none, none)))
  | .getDigests h msg => sized h msg (inOrder h 3 (3, .bytes (sha512 chain), some 3))
  | .getCertificate h msg => sized h msg (inOrder h 3 (slot msg (4, .bytes chain, some 3)))
  | .challenge h msg => sized h msg (inOrder h 3 (slot msg (5, .bytes (signed msg), some 3)))
  | .getMeasurements h msg => sized h msg (inOrder h 3 (
      let n := Config.spdmIndex msg
      let bs := if n = 255 then d.ms.flatMap (toBytes 64) else toBytes 64 (d.ms.getD (n - 1) 0)
      if ¬ ((1 ≤ n ∧ n ≤ 8) ∨ n = 255) then (9, .none, none)
      else if Config.spdmSigned msg then slot msg (6, .bytes (bs ++ signed msg), some 3) else (6, .bytes bs, some 3)))
  | .unsupportedRequest h msg => sized h msg (8, .none, none)
  | _ => none

/-- The bytes of a response: at most 240. -/
def response382 (kind : Nat) (msg : List Byte) (c : Config.SpdmContent) : List Byte := (Config.spdmEncode kind msg c).take 240

/-- The node's responder after a request: an answer without an error joins the transcript, which GET_VERSION starts afresh. -/
def responder382 (s : State) (h : Mgmt) (msg bs : List Byte) (kind : Nat) (stage : Option Nat) : State :=
  match stage with
  | none => s
  | some st => { s with nodes := s.nodes.map (fun d => if d.num = h.node then
      { d with spdm := ⟨some h.adapter, st, (if kind = 0 then [] else ((s.node? h.node).map (·.spdm.transcript)).getD []) ++ msg ++ bs⟩ } else d) }

/-! ### Device reset, boot and the loader (R99 to R108, R356, R379, R380) -/

/-- Nothing of a node is left but its memory, its packets and its map of disabled positions (R356, R380). -/
abbrev ResetNode (s s' : State) (node : Nat) : Prop :=
  (∀ d ∈ s'.nodes, d.num = node → d = { Node.reset node with
    disabled := d.disabled, booted := d.booted, svn := d.svn, fwDigest := d.fwDigest, ms := d.ms }) ∧
  s'.nodes.map (·.disabled) = s.nodes.map (·.disabled) ∧ s'.nodes.filter (fun d => d.num != node) = s.nodes.filter (fun d => d.num != node) ∧
  s'.ctxs = s.ctxs.filter (fun c => c.node != node) ∧ s'.launches = s.launches.filter (fun l => l.node != node) ∧
  s'.teams = s.teams.filter (fun t => t.node != node) ∧ s'.saves = s.saves.filter (fun v => v.node != node) ∧
  s'.waves = s.waves.filter (fun w => !(s.team? w.ref.team).any (fun t => t.node == node)) ∧
  s'.placed = s.placed.filter (fun p => p.node != node) ∧ s'.cores = s.cores.filter (fun c => c.node != node) ∧
  s'.mem = s.mem ∧ s'.packets = s.packets ∧ s'.time = s.time

/-- The firmware image in a node's staging area: its header and its body, of memory that exists. -/
def image379 (s : State) (node : Nat) : Option (List Byte × List Byte) :=
  let header := s.mem.readN (physKey node 0) 128
  let size := recordField header 8 8
  if physBytes < 128 + size then none else some (header, s.mem.readN (physKey node 0 + 128) size)

/-- The ROM's checks of an image (R379): its magic, its reserved bytes, the key's hash, the signature and the version. -/
def accepted379 (header body : List Byte) : Bool :=
  header.take 4 == [0x45, 0x46, 0x57, 0x00] && recordField header 112 16 == 0 &&
    ofBytes (sha512 ((header.drop 16).take 32)) == Config.fuseKeyHash &&
    edVerify ((header.drop 16).take 32) ((header.drop 48).take 64) (header.take 48 ++ body) &&
    decide (Config.fuseMinSvn ≤ recordField header 4 4)

/-- A measurement slot after an extension (R380). -/
def extended380 (m : Nat) (digest : List Byte) : Nat := ofBytes (sha512 (toBytes 64 m ++ digest))

/-- A node that has booted: ms0 to ms3 hold the measurements of the header, the body, the enable records and the configuration. -/
abbrev Booted (d : Node) (header body : List Byte) : Prop :=
  d.booted = true ∧ d.svn = recordField header 4 4 ∧
  d.ms = [extended380 0 (sha512 header), extended380 0 (sha512 body), extended380 0 (sha512 d.enableRecords),
    extended380 0 (toBytes 64 (Config.fwConfigDigest (ofBytes (sha512 (header ++ body))))), 0, 0, 0, 0]

/-! ### Objects (R99 to R108) -/

/-- The bytes of a section's header. -/
def header100 (f : List Byte) (i : Nat) : List Byte := (f.drop (recordField f 16 8 + 32 * i)).take 32

/-- The number of sections of an object. -/
def count99 (f : List Byte) : Nat := recordField f 8 2

/-- The type of a section, 0 where there is none. -/
def type100 (f : List Byte) (i : Nat) : Nat := if i < count99 f then recordField (header100 f i) 4 2 else 0

/-- The contents of a section in the file. -/
def file100 (f : List Byte) (i : Nat) : List Byte :=
  if i < count99 f then (f.drop (recordField (header100 f i) 8 8)).take (recordField (header100 f i) 16 8) else []

/-- The first section of a type. -/
def first100 (f : List Byte) (ty : Nat) : Nat := ((List.range (count99 f)).find? (fun i => type100 f i == ty)).getD (count99 f)

/-- The contents in the file of the first section of a type. -/
def of100 (f : List Byte) (ty : Nat) : List Byte := file100 f (first100 f ty)

/-- The sections that hold strings and symbols. -/
def strSec99 (f : List Byte) : Nat := recordField f 24 2
/-- SYMSEC. -/
def symSec99 (f : List Byte) : Nat := recordField f 26 2

/-- The records of 16 bytes in the sections of a type. -/
def records101 (f : List Byte) (ty : Nat) : List (List Byte) :=
  let bs := ((List.range (count99 f)).filter (fun i => type100 f i == ty)).flatMap (file100 f)
  (List.range (bs.length / 16)).map (fun i => (bs.drop (16 * i)).take 16)

/-- The record of kernel i. -/
def kinfo102 (f : List Byte) (i : Nat) : List Byte := ((of100 f 5).drop (128 * i)).take 128

/-- The number of kernel records: the fewest whose templates are all records behind them (log 43). -/
def kernels102 (f : List Byte) : Option Nat :=
  let all := (of100 f 5).length / 128
  (List.range (all + 1)).find? (fun n => n + ((List.range n).map (fun i => recordField (kinfo102 f i) 42 2)).sum == all)

/-- The core counts of the stage sets of each kernel. -/
def sets105 (f : List Byte) : List (List Nat) := (List.range ((kernels102 f).getD 0)).map (fun i => stages102 (kinfo102 f i))

/-- The start of stage set j, less A: each set behind the first starts at the next multiple of 4 (R105). -/
def start105 (cs : List Nat) : Nat → Nat
  | 0 => 0
  | j + 1 => (start105 cs j + cs.getD j 0 + 3) / 4 * 4

/-- The end of the last set, less A. -/
def end105 (cs : List Nat) : Nat := if cs = [] then 0 else start105 cs (cs.length - 1) + cs.getD (cs.length - 1) 0

/-- The address at which a section is loaded, where the host gave one that the context's segments allow (R100, R108). -/
def place100 (node : Nat) (t : SegTable) (f : List Byte) (places : List (Option Nat)) (i : Nat) : Option Nat :=
  match places.getD i none with
  | none => if file100 f i = [] ∨ 5 < type100 f i then some (255 * 2 ^ 56) else none
  | some a =>
    let g := t.segs.getD (a / 2 ^ 52 % 16) Seg.absent
    let right := match type100 f i with
      | 1 => g.x
      | 2 => g.rd && !g.w
      | 3 => g.rd && g.w
      | _ => g.rd
    if (a / 2 ^ 56 = 255 ∨ a / 2 ^ 56 = node) ∧ g.v = true ∧ right = true ∧ a % 2 ^ 52 + (file100 f i).length ≤ g.limit ∧
        a % 2 ^ recordField (header100 f i) 24 1 = 0 then some (255 * 2 ^ 56 + a % 2 ^ 56) else none

/-- S + A of a symbol relocation record, if its symbol is one (R90, R101). -/
def value101 (f : List Byte) (addr : Nat → Nat) (r : List Byte) : Option Int :=
  let sym := file100 f (symSec99 f)
  let o := 16 * recordField r 8 4
  let v := recordField sym (o + 8) 8
  let sec := recordField sym (o + 4) 2
  if sym.length < o + 16 then none
  else if sec = 0xFFFF then some ((BitVec.ofNat 64 v).toInt + (BitVec.ofNat 32 (recordField r 12 4)).toInt)
  else if sec < count99 f then some (((addr sec + v : Nat) : Int) + (BitVec.ofNat 32 (recordField r 12 4)).toInt)
  else none

/-- Whether a value fits the field of a relocation kind at address p (R101). -/
def fits101 (kind : Nat) (v : Int) (p : Nat) : Bool :=
  match kind with
  | 0 => decide (-(2 ^ 63) ≤ v ∧ v < 2 ^ 64)
  | 1 => decide (0 ≤ v ∧ v < 2 ^ 32)
  | 2 => decide ((v - p) % 4 = 0 ∧ -(2 ^ 20) ≤ (v - p) / 4 ∧ (v - p) / 4 < 2 ^ 20)
  | _ => decide (-(2 ^ 22) ≤ v ∧ v < 2 ^ 22)

/-- Bytes of the field of a relocation kind. -/
def width101 (kind : Nat) : Nat := if kind = 0 ∨ kind = 3 then 8 else 4

/-- The field with a value in it: a word of 8 or 4 bytes, off21 of a BX word, or IMMH of an EX and bits 6:0 of the word behind it. -/
def field101 (kind : Nat) (v : Int) (p : Nat) (old : List Byte) : List Byte :=
  let w (n : Nat) (z : Int) : Nat := (z % 2 ^ n).toNat
  match kind with
  | 0 => toBytes 8 (w 64 v)
  | 1 => toBytes 4 (w 32 v)
  | 2 => toBytes 4 (ofBytes old - ofBytes old % 2 ^ 21 + w 21 ((v - p) / 4))
  | _ =>
    let e := recordField old 0 4
    let x := recordField old 4 4
    toBytes 4 (e - e % 2 ^ 16 + w 23 v / 2 ^ 7) ++ toBytes 4 (x - x % 2 ^ 7 + w 23 v % 2 ^ 7)

/-- The physical number of a logical core: the position with the n-th lowest number of those that are enabled (R104). -/
def physical104 (disabled : List Nat) (n : Nat) : Nat := ((List.range 168).filter (fun p => !disabled.contains p)).getD n 0

/-- ROW and COL of a physical number (R106). -/
def rowCol106 (p : Nat) : Nat × Nat := (p / 14, if p / 14 % 2 = 0 then p % 14 else 13 - p % 14)

/-- The logical core that a placement record names (R106), `none` where its stage or its member is out of range. -/
def core106 (f : List Byte) (base : Nat) (r : List Byte) : Option Nat :=
  let member := recordField r 8 2
  let stage := recordField r 3 1
  if stage = 255 then (if member < 160 then some member else none)
  else
    let cs := (sets105 f).getD (recordField r 10 2) []
    if stage < cs.length ∧ member < cs.getD stage 0 ∧ base + start105 cs stage + member < 160 then some (base + start105 cs stage + member) else none

/-- The checks of the loader in the model's order (log 43), each with the status that it gives where it fails. -/
def checks108 (node cores base : Nat) (t : SegTable) (q : LoadReq) : List (Nat × Bool) :=
  let f := q.file
  let n := count99 f
  let addr (i : Nat) : Nat := (place100 node t f q.places i).getD 0
  [(1, !decide (64 ≤ f.length ∧ f.take 4 = [0x45, 0x5A, 0x4F, 0x00] ∧ recordField f 4 2 = 1 ∧ recordField f 6 2 = 64 ∧ 1 ≤ n ∧ n ≤ 64 ∧
      recordField f 10 2 = 32 ∧ recordField f 12 4 ≤ 1 ∧ recordField f 28 36 = 0)),
   (2, decide (f.length < recordField f 16 8 + 32 * n))] ++
  (List.range n).flatMap (fun i =>
    let h := header100 f i
    let ty := recordField h 4 2
    [(1, !decide (1 ≤ ty ∧ ty ≤ 9 ∧ recordField h 6 2 = 0 ∧ recordField h 24 1 ≤ 12 ∧ recordField h 25 7 = 0 ∧ (ty = 1 → recordField h 16 8 % 16 = 0))),
     (2, decide (f.length < recordField h 8 8 + recordField h 16 8))]) ++
  [(2, type100 f (strSec99 f) != 7 || type100 f (symSec99 f) != 6), (2, (kernels102 f).isNone),
   (2, (List.range ((kernels102 f).getD 0)).any (fun i => let r := kinfo102 f i
      decide ((of100 f 4).length < recordField r 32 4 + recordField r 36 4) || decide ((file100 f (strSec99 f)).length ≤ recordField r 0 4))),
   (1, (List.range ((file100 f (symSec99 f)).length / 16)).any (fun i => let y := file100 f (symSec99 f)
      decide (5 < recordField y (16 * i + 6) 1) || recordField y (16 * i + 7) 1 != 0)),
   (5, (List.range ((kernels102 f).getD 0)).any (fun i => !limits102 (kinfo102 f i) || decide ((of100 f 1).length ≤ recordField (kinfo102 f i) 4 4))),
   (7, (List.range n).any (fun i => (place100 node t f q.places i).isNone))] ++
  (records101 f 8).flatMap (fun r =>
    let sec := recordField r 0 2
    let kind := recordField r 2 2
    [(1, decide (3 < kind)), (2, decide ((file100 f sec).length < recordField r 4 4 + width101 kind) || (value101 f addr r).isNone),
     (3, !(value101 f addr r).any (fun v => fits101 kind v (addr sec + recordField r 4 4)))]) ++
  [(6, (sets105 f).any (fun cs => decide (160 < end105 cs) || decide (cores < cs.sum)))] ++
  (records101 f 9).flatMap (fun r =>
    [(1, recordField r 2 1 != 0 || recordField r 12 4 != 0 || recordField r 4 4 % 4 != 0),
     (2, decide ((file100 f (recordField r 0 2)).length < recordField r 4 4 + 4)), (4, (core106 f base r).isNone)])

/-- The status of the first check that fails; none where none does. -/
def status108 (node cores base : Nat) (t : SegTable) (q : LoadReq) : Option Nat :=
  ((checks108 node cores base t q).find? (fun c => c.2)).map Prod.fst

/-- Bytes replaced at an offset. -/
def splice (bs : List Byte) (off : Nat) (new : List Byte) : List Byte := bs.take off ++ new ++ bs.drop (off + new.length)

/-- The contents of a section as it is loaded: symbol relocations, placement words, and, in the kernel records, the starts of the stage
sets (R101, R105, R106). -/
def content108 (node base : Nat) (t : SegTable) (disabled : List Nat) (q : LoadReq) (i : Nat) : List Byte :=
  let f := q.file
  let addr (j : Nat) : Nat := (place100 node t f q.places j).getD 0
  let symbols := (records101 f 8).foldl (fun bs r =>
    let off := recordField r 4 4
    let kind := recordField r 2 2
    if recordField r 0 2 = i then splice bs off (field101 kind ((value101 f addr r).getD 0) (addr i + off) ((bs.drop off).take (width101 kind))) else bs) (file100 f i)
  let places := (records101 f 9).foldl (fun bs r =>
    let off := recordField r 4 4
    let p := rowCol106 (physical104 disabled ((core106 f base r).getD 0))
    if recordField r 0 2 = i then splice bs off (toBytes 4 (p.1 * 2 ^ 28 + p.2 * 2 ^ 24 + recordField bs off 4 % 2 ^ 24)) else bs) symbols
  if i ≠ first100 f 5 then places
  else (sets105 f).zipIdx.foldl (fun bs k => (List.range k.1.length).foldl (fun bs j =>
    splice bs (128 * k.2 + 50 + 4 * j) (toBytes 2 (start105 k.1 j))) bs) places

/-- The name of a kernel. -/
def name333 (f : List Byte) (str : List Byte) (i : Nat) : List Byte := (str.drop (recordField (kinfo102 f i) 0 4)).takeWhile (fun b => b != 0)

/-- The kernels of a placed image, each linked with the kernel whose name is its own with `.trap` behind it (R102, R333). -/
def kernels108 (node base : Nat) (t : SegTable) (disabled : List Nat) (q : LoadReq) : List Kernel :=
  let f := q.file
  let n := (kernels102 f).getD 0
  let body (i : Nat) : List Byte := content108 node base t disabled q i
  let rec_ (i : Nat) : List Byte := ((body (first100 f 5)).drop (128 * i)).take 128
  let name (i : Nat) : List Byte := name333 f (body (strSec99 f)) i
  let addr (j : Nat) : Nat := (place100 node t f q.places j).getD 0
  (List.range n).map (fun i =>
    let trap := (List.range n).find? (fun j => name j == name i ++ [0x2E, 0x74, 0x72, 0x61, 0x70])
    kernel102 { krec := addr (first100 f 5) + 128 * i, text := addr (first100 f 1), entry := 0, quota := 0, shape := [], scr := 0, sync := 0, acm := 0,
                split := 0, stages := [], base := base, hEntry := trap.map (fun j => recordField (rec_ j) 4 4),
                hParam := (trap.map (fun j => ofBytes (((body (first100 f 4)).drop (recordField (rec_ j) 32 4)).take (min 8 (recordField (rec_ j) 36 4))))).getD 0 }
      (rec_ i))

/-- No relocation or placement record changes a symbol, or a kernel's record. -/
abbrev Tame108 (f : List Byte) : Prop :=
  ∀ r ∈ records101 f 8 ++ records101 f 9, recordField r 0 2 ≠ symSec99 f ∧
    (recordField r 0 2 = first100 f 5 → 128 * (kernels102 f).getD 0 ≤ recordField r 4 4)

/-- Where the loaded sections of an object lie: their addresses and their contents. -/
def image108 (node base : Nat) (t : SegTable) (disabled : List Nat) (q : LoadReq) : List (Nat × List Byte) :=
  ((List.range (count99 q.file)).filter (fun i => decide (type100 q.file i ≤ 5) && file100 q.file i != [])).map (fun i =>
    ((place100 node t q.file q.places i).getD 0, content108 node base t disabled q i))

/-- The key of a loaded address, through the segments of its context. -/
def key108 (node : Nat) (t : SegTable) (a : Nat) : Nat := 2 ^ 52 * node + (t.segs.getD (a / 2 ^ 52 % 16) Seg.absent).base + a % 2 ^ 52

/-- The sections of an image stand in memory, each at its place. -/
def written108 (s : State) (node : Nat) (t : SegTable) (xs : List (Nat × List Byte)) : Bytes :=
  xs.foldl (fun m p => Bytes.put m (globBytes (key108 node t p.1) p.2.length) p.2) s.peek

/-- Every loaded byte of an image lies in memory that exists. -/
def loadable108 (node : Nat) (t : SegTable) (xs : List (Nat × List Byte)) : Bool := xs.all (fun p => present (globBytes (key108 node t p.1) p.2.length))

/-- A load request of a context of a node, with the context's segments and cores; its records are tame. -/
abbrev LoaderPre (s : State) (q : LoadReq) (c : Ctx) (t : SegTable) (cores : Nat) : Prop :=
  s.stuck = none ∧ s.ctxs.find? (fun c => c.node == q.node && c.ccn == q.ccn) = some c ∧
  t = s.segTable q.node (s.rcbWord q.node c.rcb 0x30 8) ∧ cores = ((s.region? q.node c.rcb).map (·.cores)).getD 0 ∧ Tame108 q.file

/-- The logical base that the loader chooses is a multiple of 4 from which every stage set fits the die (R105); which one is free (log 3). -/
abbrev Base105 (q : LoadReq) (base : Nat) : Prop := base % 4 = 0 ∧ ∀ cs ∈ sets105 q.file, base + end105 cs ≤ 160

/-- The loaded address of an image's text. -/
def text108 (q : LoadReq) (t : SegTable) : Nat :=
  if (kernels102 q.file).getD 0 = 0 then 0 else (place100 q.node t q.file q.places (first100 q.file 1)).getD 0

/-- A report of the loader to the host. -/
def reported108 (s : State) (node status : Nat) : State := { s with replies := s.replies ++ [⟨0, node, 0, 0, status, []⟩] }


/-! ### The step (R59, R60, log 2, log 13) -/

/-- What a step answers when its instruction or event answers `o`: of a next state, the same with one nanosecond passed. -/
def ticked (o : Host.Outcome State Fault Refusal) : Host.Outcome State Fault Refusal :=
  match o with
  | .next s => .next s.tick
  | .fault f => .fault f
  | .refused r => .refused r

/-- A wave's issuing group fetches at its program counter, in its kernel's text (R59). -/
def textAt (l : Launch) (w : Wave) : Nat := (l.kernel.text + w.groupPc) % 2 ^ 64

/-- The bytes at the program counter of wave `w` decode to instruction `i`: one word, or an EX and the word after it. -/
abbrev Decodes (s : State) (w : Wave) (t : Team) (l : Launch) (i : Instr) (key : Nat) : Prop :=
  s.resolve t.node t.segs t.world (textAt l w) 4 .fetch = .ok key ∧
  if Word.maj (BitVec.ofNat 32 (s.mem.word key 4)) = 0x7F then
    s.resolve t.node t.segs t.world ((textAt l w + 4) % 2 ^ 64) 4 .fetch = .ok (key + 4) ∧
    decodeBytes (s.mem.readN key 8) = some (i, 8) ∧ key % 2 ^ 52 + 8 ≤ physBytes
  else decodeBytes (s.mem.readN key 4) = some (i, 4) ∧ key % 2 ^ 52 + 4 ≤ physBytes

/-! ### Words that the spec writes out (R61 to R67, R79 to R88) -/

/-- Words as the spec's examples print them, and the instruction that each stands for. -/
def words61 : List (List Nat × Instr) := [
  ([0x00024184], .iadd none false .s32 9 3 4), ([0xFE100000, 0x00004105], .iadd (some ⟨false, 0, 0x100000⟩) false .s32 1 2 5),
  ([0xFF700000, 0x00004105], .iadd (some ⟨true, 3, 0x100000⟩) false .s32 1 2 5), ([0x0A210308], .iaddc none false .n32 4 6 8),
  ([0x40810286], .fadd none true .rn 4 5 6), ([0x44028286], .fmul none false .rn 10 5 6), ([0x688102DC], .cvt none true .rn 4 5 11 4),
  ([0x7441C000], .pset none .xor 7 0 0), ([0x7A007AF4], .mov none 1 117), ([0x7E00BA05], .ldi none 2 5),
  ([0x8A02825A], .rbal none 0 10 4 90), ([0x985FFFF4], .bra 2 0x1FFFF4), ([0x9E3D3A74], .join none), ([0xA21D3A02], .wbase none 2),
  ([0xFE200000, 0x9E5D3A74], .exit (some ⟨false, 1, 0⟩)), ([0xFE100000, 0xA41D0288], .wquota (some ⟨false, 0, 0x100000⟩) 5 8),
  ([0xFE110000, 0xB0620140], .ldg (some ⟨false, 0, 0x110000⟩) 3 8 2 64), ([0xFE100000, 0xB4022D04], .lds (some ⟨false, 0, 0x100000⟩) 0 8 90 4),
  ([0xFEBAFFFF, 0xB61D0B70], .sts (some ⟨false, 5, 0x1AFFFF⟩) 0 116 22 0x70), ([0xFE014000, 0xBC02AD04], .ldt (some ⟨false, 0, 0x14000⟩) 0 10 90 4),
  ([0xE0000000], .txbegin 0), ([0xE41D3A74], .txend none), ([0xE43D3A74], .retry none), ([0xFE006000, 0xE65D3A74], .fence (some ⟨false, 0, 0x6000⟩)),
  ([0xE6616DF4], .arrive none 5 91), ([0xEC168205], .rkpush none 0 90 4 5), ([0xF0562E74], .copy none 2 88 92 116),
  ([0xFE002000, 0xF0562E08], .copyx ⟨false, 0, 0x2000⟩ 2 88 92 8), ([0xFE000800, 0xF2763074], .mma (some ⟨false, 0, 0x800⟩) 3 88 96),
  ([0xFE003800, 0xF43D3574], .attnfin ⟨false, 0, 0x3800⟩ 1 116 106), ([0xFE200000, 0xF6162E08], .disp (some ⟨false, 1, 0⟩) 0 88 92 8),
  ([0xF8003A04], .waitf none 0 4), ([0xFA013A06], .csrr none 4 6), ([0xFA3D2D84], .csrwBnd none 91), ([0xFA5D3A00], .tret none),
  ([0xFA7D3A00], .replay none 0), ([0xFA9D3A7F], .rqdrop none 127), ([0xFB16BA00], .time none 90), ([0xFAFD2E01], .regionSet none 92),
  ([0xFE000000, 0x985FFFF4], .exMisuse 0xFE000000 0x985FFFF4)]

/-! ### PSET (R130) -/

/-- The operations of PSET by fn. -/
def ops130 : List POp := [.and, .or, .xor, .andn, .not]

/-- What an operation gives. -/
def op130 (q : POp) (p r : Bool) : Bool :=
  match q with
  | .and => p && r
  | .or => p || r
  | .xor => p != r
  | .andn => p && !r
  | .not => !p

/-! ### Spans (R272 to R276, R281) -/

/-- Runs in order, none empty, no two touching. -/
abbrev InRuns (r : Runs) : Prop := (∀ p ∈ r, p.1 < p.2) ∧ r.Pairwise (fun p q => p.2 < q.1)

/-- What `n` registers from a field number read, for the item of a flattened index, in a sub-span (R16, R272). -/
def spanVal (b : Sub) (k : List Word) (ext : List Nat) (tm n c id : Nat) : Nat :=
  let ix := idIndex ext
  if isV c then (b.v.getD c {}).form.at ix id + (if n == 2 then 2 ^ 32 * (b.v.getD (c + 1) {}).form.at ix id else 0)
  else if isX c then
    (b.x.getD (c - 112) {}).form.at ix id + (if n == 2 && c != 115 then 2 ^ 32 * (b.x.getD (c - 111) {}).form.at ix id else 0)
  else if isK c then (k.getD (c - 88) 0).toNat + (if n == 2 then 2 ^ 32 * (k.getD (c - 87) 0).toNat else 0)
  else if c == 117 then ix .id id % 2 ^ (32 * n)
  else if c == 118 then ix .ia id % 2 ^ (32 * n)
  else if c == 119 then ix .ib id % 2 ^ (32 * n)
  else if c == 120 then ix .ic id % 2 ^ (32 * n)
  else if c == 123 then tm
  else 0

/-- The number that a field holds in a sub-span: its own, or under XO the element of a register array (R15, R82). -/
def spanField (b : Sub) (ext : List Nat) (x : Option Ex) (word : Word) (f : Field) (id : Nat) : Nat :=
  if exXo x != 0 && exXo x == f.xo then
    ((BitVec.ofNat 32 ((b.x.getD (exXi x) {}).form.at (idIndex ext) id)).toInt + (f.of word : Int)).toNat
  else f.of word

/-- What an operand of `n` registers reads in a sub-span; an immediate of a width `width` (R110) where the EX gives one. -/
def spanOperand (b : Sub) (k : List Word) (ext : List Nat) (tm : Nat) (x : Option Ex) (word : Word) (f : Field) (n width id : Nat) : Nat :=
  if f == .b && exMode1 x && (wordInfo x word).immB then (BitVec.ofInt width (immOf x word.b7)).toNat
  else spanVal b k ext tm n (spanField b ext x word f id) id

/-- The sub-span of an instruction that runs in its span: every item holds its result in the destination, which a number 116 (z)
discards, every other register is as before, and the sub-span stands at the next instruction. -/
abbrev SpanComputes (r : LaneRule) (word : Word) (b b' : Sub) (k k' : List Word) (ext : List Nat) (tm : Nat) : Prop :=
  let c := spanField b ext r.x word .d b.ids.low
  b' = { b with pc := (b.pc + insLen r.x) % 2 ^ 32, v := b'.v, x := b'.x } ∧
  (∀ i, b.ids.has i = true → c ≠ 116 → spanVal b' k' ext tm r.n c i =
    r.f (r.srcs.map (fun f => spanOperand b k ext tm r.x word f.1 f.2.1 f.2.2 i)) % 2 ^ (32 * (if c = 115 then 1 else r.n))) ∧
  (∀ i, (isV c && decide (c ≤ i) && decide (i < c + r.n)) = false → b'.v.getD i {} = b.v.getD i {}) ∧
  (∀ i, xPlace c r.n i = false → b'.x.getD i {} = b.x.getD i {}) ∧ (∀ i, kPlace c r.n i = false → k'.getD i 0 = k.getD i 0)

/-- How a source varies over the items of a sub-span: not at all, with an index (R19), or otherwise. -/
inductive Varies
  | not
  | index (i : Sel)
  | freely
  deriving DecidableEq, Repr

/-- How `n` registers from a field number vary. -/
def variesOf (b : Sub) (n c : Nat) : Varies :=
  let one (r : Reg) : Varies := match r.form with
    | .u _ => .not
    | .a _ _ s => .index s
    | .alo _ _ s => .index s
    | _ => .freely
  let two (lo hi : Reg) : Varies := match lo.form, hi.form with
    | .u _, .u _ => .not
    | .alo p q s, .ahi p' q' s' => if p = p' ∧ q = q' ∧ s = s' then .index s else .freely
    | _, _ => .freely
  if isV c then (if n == 2 then two (b.v.getD c {}) (b.v.getD (c + 1) {}) else one (b.v.getD c {}))
  else if isX c then
    (if n == 2 then two (b.x.getD (c - 112) {}) (if c == 115 then {} else b.x.getD (c - 111) {}) else one (b.x.getD (c - 112) {}))
  else if c == 117 then .index .id
  else if c == 118 then .index .ia
  else if c == 119 then .index .ib
  else if c == 120 then .index .ic
  else .not

/-- Whether a result has form U or A (R20). -/
def result20 (i : Instr) (vs : List Varies) : Bool :=
  vs.all (fun v => v == .not) || match i, vs with
    | .iadd _ false t _ _ _, [u, v] => decide (32 ≤ t.width) && u != .freely && v != .freely && (u == .not || v == .not || u == v)
    | .isub _ false t _ _ _, [u, v] => decide (32 ≤ t.width) && u != .freely && v != .freely && (u == .not || v == .not || u == v)
    | .imul _ false t _ _ _, [u, v] => decide (32 ≤ t.width) && u != .freely && v != .freely && (u == .not || v == .not)
    | .shl _ _ t _ _ _, [u, v] => decide (32 ≤ t.width) && u != .freely && v == .not
    | .lea _ _ _ _ _ _, [u, v] => u != .freely && v == .not
    | _, _ => false

/-- Whether an arithmetic instruction is of the Form class in a span of team `team` or of a launch (R20, R272): its result has form U
or A, it reads none of lane, wv and (in a launch) tm, and its registers lie in the quota; of one with a register array the
statement leaves that open. -/
def form272 (i : Instr) (r : LaneRule) (b : Sub) (quota : Nat) (team : Bool) : Bool :=
  let word := wordOf i
  let immB := exMode1 r.x && (wordInfo r.x word).immB
  let vs : List Varies := r.srcs.map (fun f => if f.1 == .b && immB then .not else variesOf b f.2.1 (f.1.of word))
  let regs : List (Nat × Nat) := (word.d7, r.n) :: r.srcs.filterMap (fun f => if f.1 == .b && immB then none else some (f.1.of word, f.2.1))
  exXo r.x == 0 && result20 i vs && (!isK word.d7 || vs.all (fun v => v == .not)) &&
  regs.all (fun p => p.1 != 121 && p.1 != 122 && (p.1 != 123 || team) && (!isV p.1 || decide (p.1 + p.2 ≤ quota)))

/-- The team of a flattened index (R12, R275). -/
def team275 (l : Launch) (id : Nat) : Nat :=
  let e (j : Nat) : Nat := l.ext.getD j 1
  let h (j : Nat) : Nat := l.kernel.shape.getD j 1
  let n (j : Nat) : Nat := (e j + h j - 1) / h j
  id % e 0 / h 0 + n 0 * (id / e 0 % e 1 / h 1 + n 1 * (id / (e 0 * e 1) / h 2))

/-- A sub-span's item as another holds it: program counter, forms and predicate values are the same (R276). -/
abbrev SameItem (b c : Sub) (id : Nat) : Prop :=
  c.pc = b.pc ∧ c.v = b.v ∧ c.x = b.x ∧ ∀ p ∈ List.range 8, (c.preds.getD p []).has id = (b.preds.getD p []).has id

/-- A launch is dealt (R276): each team with an item is created as a team span, its items as they stood in the launch span and each
sub-span's share in one part. -/
abbrev Dealt (s s' : State) (l : Launch) : Prop :=
  let new := s'.teams.drop s.teams.length
  s' = { s with teams := s'.teams, launches := s.launches.map (fun m => if m.num = l.num then { l with dealt := true, subs := [] } else m) } ∧
  s'.teams.take s.teams.length = s.teams ∧ (new.map (·.ref.tm)).Pairwise (· < ·) ∧
  (∀ t ∈ new, t = { newTeam l s.time t.ref.tm t.subs with ref := ⟨l.num, t.ref.tm⟩ } ∧ t.subs.length ≤ l.subs.length ∧
    ∀ c ∈ t.subs, c.ids ≠ [] ∧ (∀ i, c.ids.has i = true → team275 l i = t.ref.tm ∧ ∃ b ∈ l.subs, b.ids.has i = true ∧ SameItem b c i)) ∧
  ∀ b ∈ l.subs, (∀ i, b.ids.has i = true → ∃ t ∈ new, t.ref.tm = team275 l i ∧ ∃ c ∈ t.subs, c.ids.has i = true ∧ SameItem b c i)

/-- Whether lane `j` of a wave cut from a team holds its item as the team span held it: program counter, values and predicates (R281). -/
def cutLane (s : State) (l : Launch) (t : Team) (w : Wave) (j : Nat) : Bool :=
  match itemCoord l.ext l.kernel.shape t.ref.tm (32 * w.ref.num + j) with
  | none => !w.items.getLsbD j && !w.live.getLsbD j
  | some p =>
    let id := flatId l.ext p
    w.items.getLsbD j && match t.subs.find? (fun b => b.ids.has id) with
      | none => !w.live.getLsbD j
      | some b => w.live.getLsbD j && w.pcOf j == b.pc &&
        (List.range w.quota).all (fun g => (w.v.getD g {}).form.at (s.geo w).index j == (b.v.getD g {}).form.at (idIndex l.ext) id) &&
        (List.range 4).all (fun g => (w.x.getD g {}).form.at (s.geo w).index j == (b.x.getD g {}).form.at (idIndex l.ext) id) &&
        (List.range 8).all (fun g => (w.pred g).getLsbD j == (g == 0 || (b.preds.getD g []).has id))

/-- Waves of a team: one for each 32 positions of its shape (R275). -/
def waves275 (l : Launch) : Nat := (l.kernel.shape.getD 0 1 * l.kernel.shape.getD 1 1 * l.kernel.shape.getD 2 1 + 31) / 32

/-- Whether a team has an item in the 32 positions of its wave `j` (R275). -/
def liveWave (l : Launch) (t : Team) (j : Nat) : Bool := lanes.any (fun i => (itemCoord l.ext l.kernel.shape t.ref.tm (32 * j + i)).any (fun p =>
  t.subs.any (fun b => b.ids.has (flatId l.ext p))))

/-- A team is cut into waves (R281), whose items stand as they stood in the team span; a wave without an item has ended (R151). -/
abbrev CutInto (s s' : State) (l : Launch) (t : Team) : Prop :=
  let new := s'.waves.drop s.waves.length
  s' = { s with waves := s'.waves, teams := s'.teams } ∧ s'.waves.take s.waves.length = s.waves ∧
  s'.teams = s.teams.map (fun m => if m.ref = t.ref then { t with cut := true, subs := [], ended := maskOf (fun j => decide (j < waves275 l) && !liveWave l t j) } else m) ∧
  new.map (·.ref) = ((List.range (waves275 l)).filter (liveWave l t)).map (fun j => ⟨t.ref, j⟩) ∧
  ∀ w ∈ new, (w.k = t.k ∧ w.wb = 0 ∧ w.quota = l.kernel.quota ∧ w.bndLo = 0 ∧ w.bndHi = 88 ∧ w.flags = List.replicate 12 0) ∧
    (w.part = w.ref.num % 4 ∧ w.status = .ready ∧ w.group = none ∧ w.pend = [] ∧ w.tx = none ∧ w.readyAt = s.time) ∧
    ∀ j ∈ lanes, cutLane s' l t w j = true

/-- No register of a sub-span is held otherwise than as one value or by the index of its items (R272). -/
def plain272 (b : Sub) : Bool := (b.v ++ b.x).all (fun r => match r.form with
  | .u _ => true
  | .a _ _ s => s != .lane
  | .alo _ _ s => s != .lane
  | .ahi _ _ s => s != .lane
  | _ => false)

/-- A launch has an item at least along each axis, and its sub-spans hold items of it (R12, R269). -/
abbrev Shaped (l : Launch) (subs : List Sub) : Prop :=
  (∀ j ∈ List.range 3, 1 ≤ l.ext.getD j 1 ∧ 1 ≤ l.kernel.shape.getD j 1) ∧
  ∀ b ∈ subs, InRuns b.ids ∧ b.ids ≠ [] ∧ plain272 b = true ∧ ∀ p ∈ b.ids, p.2 ≤ l.ext.getD 0 1 * l.ext.getD 1 1 * l.ext.getD 2 1

/-- An arithmetic instruction is issued by sub-span `j` of a span: it is well formed, no word check fails, and its EX selects every
item (R79, R282). -/
abbrev SpanPre (r : LaneRule) (i : Instr) (s : State) (l : Launch) (subs : List Sub) (j : Nat) (b : Sub) : Prop :=
  s.stuck = none ∧ i.wf = true ∧ checkWord r.x (wordOf i) = none ∧ s.launch? l.num = some l ∧ Shaped l subs ∧
  subs[j]? = some b ∧ b.selected r.x = b.ids

/-- The sub-spans of a span of which the `j`-th stands as `b`. -/
def withSub (subs : List Sub) (j : Nat) (b : Sub) : List Sub := subs.take j ++ b :: subs.drop (j + 1)

/-- In a launch span the instruction runs once for its sub-span (R272), or deals the launch without running (R276). -/
abbrev LaunchSpanPost (r : LaneRule) (i : Instr) (s s' : State) (l : Launch) (j : Nat) (b : Sub) : Prop :=
  let l' := (s'.launch? l.num).getD l
  let b' := l'.subs.getD j b
  (s' = { s with launches := s.launches.map (fun m => if m.num = l.num then { l with k := l'.k, subs := withSub l.subs j b' } else m) } ∧
    SpanComputes r (wordOf i) b b' l.k l'.k l.ext 0) ∨
  (form272 i r b l.kernel.quota false = false ∧ Dealt s s' l)

/-- In a team span it runs once for its sub-span, or cuts the team without running (R281). -/
abbrev TeamSpanPost (r : LaneRule) (i : Instr) (s s' : State) (l : Launch) (t : Team) (j : Nat) (b : Sub) : Prop :=
  let t' := (s'.team? t.ref).getD t
  let b' := t'.subs.getD j b
  (s' = { s with teams := s.teams.map (fun m => if m.ref = t.ref then { t with k := t'.k, subs := withSub t.subs j b' } else m) } ∧
    SpanComputes r (wordOf i) b b' t.k t'.k l.ext t.ref.tm) ∨
  (form272 i r b l.kernel.quota true = false ∧ CutInto s s' l t)

/-! ### MMA (R53, R230, R236, R237) -/

/-- What an MMA's configuration word says (R236): types, rows and columns of the product, slices, and whether C starts at +0. -/
structure Mma where
  ta : Nat
  tb : Nat
  m : Nat
  n : Nat
  ks : Nat
  ovw : Bool
  deriving DecidableEq, Repr

/-- The configuration of a command. -/
def mma236 (c : Cmd) : Mma :=
  let w : Word := c.ops.getD 0 0
  ⟨(w.extractLsb' 0 3).toNat, (w.extractLsb' 3 3).toNat, 8 * ((w.extractLsb' 6 4).toNat + 1), 8 * ((w.extractLsb' 10 4).toNat + 1),
   (w.extractLsb' 14 8).toNat, w.getLsbD 22⟩

/-- Side-band bytes of a row of a canonical type (R46). -/
def side46 (c : Nat) : Nat := if c = 0 then 32 else if c ≤ 2 then 8 else 0

/-- Bytes of a sub-tile (R230). -/
def tile230 (c rows : Nat) : Nat := 128 * (rows + (side46 c * rows + 127) / 128)

/-- A team but for its accumulator memory. -/
def acmless (t : Team) : Team := { t with acm := [] }


/-! ### Tensor objects (R295 to R303) -/

/-- A field of axis `j` of an object's 128 bytes (R295). -/
def axis295 (b : List Byte) (j off n : Nat) : Nat := field102 b (8 + 20 * j + off) n

/-- EXTENT of an axis. -/
def extent295 (b : List Byte) (j : Nat) : Nat := axis295 b j 8 4
/-- STRIDE of an axis, sign-extended. -/
def stride295 (b : List Byte) (j : Nat) : Int := (BitVec.ofNat 32 (axis295 b j 12 4)).toInt
/-- A flag of an axis: 0 USED, 1 PG, 2 MOD. -/
def flag295 (b : List Byte) (j k : Nat) : Bool := (axis295 b j 19 1).testBit k
/-- The rank (R296). -/
def rank296 (b : List Byte) : Nat := (List.range 6).countP (fun j => flag295 b j 0)
/-- The paged axis. -/
def paged295 (b : List Byte) : Option Nat := (List.range (rank296 b)).find? (fun j => flag295 b j 1)

/-- Whether an object is valid (R296). -/
def valid296 (b : List Byte) : Bool :=
  let used := List.range (rank296 b)
  decide (1 ≤ rank296 b) && (List.range 6).all (fun j => flag295 b j 0 == decide (j < rank296 b)) &&
    decide ((used.countP (fun j => flag295 b j 1)) ≤ 1) &&
    used.all (fun j => !(flag295 b j 2 && extent295 b j == 0) && decide (axis295 b j 19 1 < 8)) &&
    !(decide (11 ≤ field102 b 0 1 % 16) && decide (field102 b 0 1 % 16 ≤ 14)) && field102 b 0 1 / 16 % 8 == 0

/-- The object that a core's cache holds for a handle (R302), below the context's TTCOUNT (R295). -/
def object302 (s : State) (t : Team) (l : Launch) (h : Nat) : Option (List Byte) :=
  if t.segs.ttcount ≤ h then none
  else ((s.core? t.node t.die (t.core.getD 0)).bind (fun k => k.objs.find? (fun o => o.1 == l.ccn && o.2.1 == h))).map (fun o => o.2.2)

/-- Whether an entry's range holds an index (R297). -/
def holds297 (e i : Nat) : Bool := decide (e % 2 ^ 32 ≤ i) && decide (i < e % 2 ^ 32 + e / 2 ^ 32 % 2 ^ 32)

/-- The entry of an axis that a core's cache holds for an index, of the axis's generation (R302). -/
def cached302 (s : State) (t : Team) (l : Launch) (h j gen i : Nat) : Option Nat :=
  ((s.core? t.node t.die (t.core.getD 0)).bind (fun k => k.atc.find? (fun p => p.1 == l.ccn && p.2.1 == h && p.2.2.1 == j &&
    p.2.2.2.1 == gen && holds297 p.2.2.2.2 i))).map (fun p => p.2.2.2.2)

/-- An entry of a table that stands in memory. -/
def entry297 (s : State) (k m : Nat) : Nat := Bytes.num s.peek (globBytes (k + 16 * m) 16)

/-- The key of an axis's table on the team's own node. -/
def table303 (s : State) (t : Team) (b : List Byte) (j : Nat) : Option Nat :=
  match s.resolve t.node t.segs t.world (axis295 b j 0 8) (16 * axis295 b j 16 2) .read with
  | .ok k => some k
  | _ => none

/-- The entry of an axis that holds an index: the cache's, or the table's (R299, R302, R303). -/
def entry303 (s : State) (t : Team) (l : Launch) (h : Nat) (b : List Byte) (j i : Nat) : Option Nat :=
  match cached302 s t l h j (axis295 b j 18 1) i with
  | some e => some e
  | none => if axis295 b j 16 2 = 0 then none
    else (table303 s t b j).bind (fun k => ((List.range (axis295 b j 16 2)).map (entry297 s k)).find? (fun e => holds297 e i))

/-- The global address that a TARGET of the paged axis places (R299). -/
def global299 (n : Nat) : Nat := n / 2 ^ 40 % 2 ^ 8 * 2 ^ 56 + n / 2 ^ 36 % 2 ^ 4 * 2 ^ 52 + n % 2 ^ 36

/-- The index of axis `j` after step 1 of R299. -/
def index299 (b : List Byte) (j i : Nat) : Nat := if flag295 b j 2 then i % extent295 b j else i

/-- How axis `j` maps an index (R299): the mapped index or, on the paged axis, the contribution, with the entry used; or the kind of
fault of R301: 0 no entry, 1 absent entry, 2 beyond extent. -/
def map299 (s : State) (t : Team) (l : Launch) (h : Nat) (b : List Byte) (j i0 : Nat) : Except Nat (Int × Option Nat) :=
  let i := index299 b j i0
  if extent295 b j ≤ i then .error 2
  else if axis295 b j 16 2 = 0 ∧ flag295 b j 1 = false then .ok (i, none)
  else match entry303 s t l h b j i with
    | none => .error 0
    | some e =>
      let target := e / 2 ^ 64 % 2 ^ 48
      let d : Int := if e.testBit 114 then 0 else (i : Int) - (e % 2 ^ 32 : Nat)
      if e.testBit 112 then .error 1
      else .ok (if flag295 b j 1 then (global299 target : Nat) + d * stride295 b j else (target : Int) + d, some e)

/-- The kind of fault of a mapping. -/
def kind301 (m : Except Nat (Int × Option Nat)) : Option Nat :=
  match m with
  | .error k => some k
  | .ok _ => none

/-- Whether a mapping goes through a read-only entry. -/
def ro301 (m : Except Nat (Int × Option Nat)) : Bool :=
  match m with
  | .ok (_, some e) => e.testBit 113
  | _ => false

/-- The element address of mapped axes (R300). -/
def address300 (b : List Byte) (m : Nat → Except Nat (Int × Option Nat)) : Nat :=
  let base : Int := if (paged295 b).isSome then 0 else (field102 b 0 8 - field102 b 0 8 % 2 ^ 7 : Nat)
  ((base + ((List.range (rank296 b)).map (fun j => match m j with
    | .ok p => if flag295 b j 1 then p.1 else p.1 * stride295 b j
    | .error _ => 0)).sum) % 2 ^ 64).toNat

/-- The element of an index vector, or the trap of its item (R301): the lowest axis that is beyond extent, has no entry or is absent,
else, of a store, the lowest that is read-only; with the index that LDET holds. -/
def element301 (s : State) (t : Team) (l : Launch) (h : Nat) (b : List Byte) (idx : Nat → Nat) (write : Bool) : Except (Nat × Nat × Nat) Nat :=
  let m (j : Nat) : Except Nat (Int × Option Nat) := map299 s t l h b j (idx j)
  match (List.range (rank296 b)).find? (fun j => (kind301 (m j)).isSome) with
  | some j => .error (8, 8 * (kind301 (m j)).getD 0 + j, idx j)
  | none => match (List.range (rank296 b)).find? (fun j => write && ro301 (m j)) with
    | some j => .error (9, j, idx j)
    | none => .ok (address300 b m)

/-- An axis's table is well formed and can be read on the team's node (R298, R303), or is not read at all. -/
def readable298 (s : State) (t : Team) (b : List Byte) (j : Nat) : Bool :=
  let n := axis295 b j 16 2
  n == 0 || axis295 b j 0 8 % 16 == 0 && decide (axis295 b j 0 8 % 2 ^ 52 + 16 * n ≤ 2 ^ 52) && (table303 s t b j).any (fun k => present (globBytes k (16 * n)) &&
    (List.range n).all (fun m => decide (1 ≤ entry297 s k m / 2 ^ 32 % 2 ^ 32) &&
      (m == 0 || decide (entry297 s k (m - 1) % 2 ^ 32 + entry297 s k (m - 1) / 2 ^ 32 % 2 ^ 32 ≤ entry297 s k m % 2 ^ 32))))

/-- A core's cache holds the object of a handle, which is valid, and has room for the entries that a translation fills in; each axis's
table is well formed. -/
abbrev Translates (s : State) (t : Team) (l : Launch) (h : Nat) (b : List Byte) : Prop :=
  object302 s t l h = some b ∧ valid296 b = true ∧ (∀ j ∈ List.range (rank296 b), readable298 s t b j = true) ∧
  ∀ k ∈ s.cores, k.atc.length + 6 ≤ 512

/-! ### The moves of a command (R223, R226, R227, R232 to R235) -/

/-- One move of a command, from the state in which it starts: its status, with the DETAIL of a failed world check; the bytes that it reads;
and those that it writes. -/
structure Move where
  status : Nat × Nat
  reads : List Loc
  writes : List Loc
  bytes : List Byte
  deriving DecidableEq, Repr

/-- A move that moves nothing, with a status. -/
def still226 (n : Nat) : Move := ⟨(n, 0), [], [], []⟩

/-- A command stops at the first move that fails (R226): the moves before it have been made. -/
def made226 (ms : List Move) : List Move := ms.takeWhile (fun m => m.status.1 == 0)

/-- The status of a command's moves. -/
def status226 (ms : List Move) : Nat × Nat := ((ms.find? (fun m => m.status.1 != 0)).map (·.status)).getD (0, 0)

/-- Bytes after some moves, in order. -/
def moved226 (m : Bytes) (ms : List Move) : Bytes := (made226 ms).foldl (fun m p => Bytes.put m p.writes p.bytes) m

/-- A command's engine may start it: it is the next of its running stream, its predecessor is done, and no request packet of its die is
under way that it would have to follow (R223, R225, R357; log 14). -/
abbrev Starts (s : State) (q : StreamRef) (c : Cmd) (t : Team) (l : Launch) : Prop :=
  Front s q c t l ∧ c.state.waits = true ∧ s.predOf c = some true ∧ (engine223 s c t l).behind = false ∧
  (s.streams.any (fun m => m.ref == q)) = true

/-- What a command reads and writes exists, and it reads no byte that it writes. -/
abbrev Apart (ms : List Move) : Prop :=
  (∀ m ∈ ms, present (m.reads ++ m.writes) = true ∧ m.writes.length = m.bytes.length) ∧
  ∀ m ∈ ms, ∀ n ∈ ms, ∀ o ∈ m.writes, o ∉ n.reads

/-- A command's moves have been made, and it stands started with their status, and with its pins as `p` says; a failed world check has
been noticed (R374). Nothing else has changed. -/
abbrev Performed (s s' : State) (q : StreamRef) (c : Cmd) (t : Team) (l : Launch) (ms : List Move) (p : List Pin → Prop) : Prop :=
  let st := status226 ms
  s' = { s with waves := s'.waves, deliveries := s'.deliveries, mem := s'.mem, poison := s'.poison, teams := s'.teams
                nodes := if st.1 = 5 then nodes374 s t.node (7 + 256 * st.2) l.region.rcb (engine223 s c t l).where_ else s.nodes
                streams := s'.streams } ∧
  BytesNow s s' (moved226 s.peek ms) ∧
  (∀ a, s'.poison.contains a = (s.poison.contains a && !((made226 ms).any (fun m => m.writes.contains (.glob a))))) ∧
  ∃ ps, p ps ∧ s'.streams = (withCmd s q c { c with state := .started st.1, pins := ps }).streams

/-- Where global bytes lie for a command, or the status of the failed check (R226, R362, R373). -/
def reach226 (s : State) (t : Team) (l : Launch) (addr n : Nat) (a : Access) : Except (Nat × Nat) (List Loc) :=
  match s.globalKey t.node t.die l.ccn t.segs t.world addr n a with
  | .ok k => .ok (globBytes k n)
  | .error (c, d, away) => .error (if c = 7 then (5, d) else if away then (10, 0) else (4, 0))

/-! ### Storage formats (R47, R232) -/

/-- Bytes of a storage unit. -/
def unit232 (f : Nat) : Nat := [2, 2, 1, 10, 17, 17, 17, 33, 33, 17, 17].getD f 1
/-- The canonical type of a storage format. -/
def canon232 (f : Nat) : Nat := [3, 4, 5, 0, 1, 2, 0, 1, 2, 5, 5].getD f 5
/-- Units per slice. -/
def slice232 (f : Nat) : Nat := [64, 64, 128, 16, 8, 8, 8, 4, 4, 4, 4].getD f 128
/-- Element, scale and escape bytes of a unit in its canonical type. -/
def sizes232 (f : Nat) : Nat × Nat × Nat :=
  [(2, 0, 0), (2, 0, 0), (1, 0, 0), (8, 1, 1), (16, 1, 0), (16, 1, 0), (16, 2, 2), (32, 2, 0), (32, 2, 0), (32, 0, 0), (32, 0, 0)].getD f (1, 0, 0)

/-- A storage unit expanded into its canonical type: element bytes, then scale bytes, then escape bytes (R47). -/
def expand47 (f : Nat) (bs : List Byte) : List Byte :=
  let nibble (i : Nat) : Nat := (bs.getD (i / 2) 0).toNat / 16 ^ (i % 2) % 16
  let point := (bs.getD 16 0).toNat % 16
  let signed (n : Nat) : Int := if n < 8 then n else (n : Int) - 16
  match f with
  | 6 => bs.take 16 ++ [bs.getD 16 0, bs.getD 16 0, 0x80, 0x80]
  | 7 => bs.take 32 ++ [bs.getD 32 0, bs.getD 32 0]
  | 8 => bs.take 32 ++ [bs.getD 32 0, bs.getD 32 0]
  | 9 => (List.range 32).map (fun i => BitVec.ofInt 8 ((nibble i : Int) - point))
  | 10 => (List.range 32).map (fun i => BitVec.ofInt 8 (signed (nibble i) - signed point))
  | _ => bs

/-- A unit that reads as zero: element code 0, scale 0x7F and escape 0x80 (R233). -/
def zero233 (f : Nat) : List Byte :=
  let z := sizes232 f
  List.replicate z.1 0 ++ List.replicate z.2.1 0x7F ++ List.replicate z.2.2 0x80

/-- Where unit `j` of row `r` of slice `z` of a slab lies, in the parts of a unit (R46, R230): the offsets and lengths of its element bytes,
its scale bytes and its escape bytes. -/
def place230 (f base rows z r j : Nat) : List (Nat × Nat) :=
  let n := sizes232 f
  let c := canon232 f
  let tile := base + z * tile230 c rows
  let side := tile + 128 * rows + side46 c * r
  [(tile + 128 * r + j * n.1, n.1), (side + j * n.2.1, n.2.1), (side + 16 + j * n.2.2, n.2.2)]

/-- The locations of scratchpad ranges. -/
def ranges230 (s : State) (t : Team) (rs : List (Nat × Nat)) : List Loc := rs.flatMap (fun p => s.scrLocs t p.1 p.2)

/-! ### COPY and COPYX (R231 to R234, R308) -/

/-- The fields of a COPY's or COPYX's descriptor. -/
structure Copy where
  f : Nat
  col : Nat
  row : Nat
  store : Bool
  h : Nat
  base : Nat
  slices : Nat
  rows : Nat
  deriving DecidableEq, Repr

/-- A descriptor word of a command. -/
def word221 (c : Cmd) (j : Nat) : Nat := (c.ops.getD j 0).toNat

/-- The modifier of a command's FX (R220). -/
def mod220 (c : Cmd) (j : Nat) : Bool := c.exw != 0 && (exFx (some (Ex.ofWord c.exw))).testBit j

/-- A COPY's or COPYX's descriptor. -/
def copy231 (c : Cmd) : Copy :=
  let w := word221 c 0
  ⟨w / 2 ^ 23 % 2 ^ 4, w / 2 ^ 20 % 2 ^ 3, w / 2 ^ 17 % 2 ^ 3, w.testBit 16, w % 2 ^ 16, word221 c 1, word221 c 2 / 2 ^ 8 % 2 ^ 8,
   word221 c 2 % 2 ^ 8⟩

/-- The unit at an index vector: its address; `none` beyond an extent, which reads as zero and is not written; or the status of a
fault (R233). Beyond the extent of one axis goes before a fault of another. -/
def unit233 (s : State) (t : Team) (l : Launch) (h : Nat) (b : List Byte) (write : Bool) (idx : Nat → Nat) : Except Nat (Option Nat) :=
  let m (j : Nat) : Except Nat (Int × Option Nat) := map299 s t l h b j (idx j)
  let some_ (p : Nat → Bool) : Bool := (List.range (rank296 b)).any p
  if some_ (fun j => kind301 (m j) == some 2) then .ok none
  else if some_ (fun j => (kind301 (m j)).isSome) then .error 2
  else if some_ (fun j => write && ro301 (m j)) then .error 3
  else .ok (some (address300 b m))

/-- The index vector of unit `j` of slice `z` of a row at `idx`. -/
def index233 (o : Copy) (idx : Nat → Nat) (z j : Nat) : Nat → Nat := fun a => if a = o.col then idx o.col + slice232 o.f * z + j else idx a

/-- The move of one unit: row `r` of the tile, slice `z`, unit `j`. -/
def move233 (s : State) (t : Team) (l : Launch) (o : Copy) (b : List Byte) (idx : Nat → Nat) (r z j : Nat) : Move :=
  let place := ranges230 s t (place230 o.f o.base o.rows z r j)
  match unit233 s t l o.h b o.store (index233 o idx z j) with
  | .error n => still226 n
  | .ok none => if o.store then still226 0 else ⟨(0, 0), [], place, zero233 o.f⟩
  | .ok (some a) => match o.store, reach226 s t l a (unit232 o.f) (if o.store then .write else .read) with
    | true, .error e => ⟨if poisoned s place then (6, 0) else e, place, [], []⟩
    | false, .error e => ⟨e, [], [], []⟩
    | true, .ok ls => ⟨(if poisoned s place then 6 else 0, 0), place, ls, place.map s.peek⟩
    | false, .ok ls => ⟨(if poisoned s ls then 6 else 0, 0), ls, place, expand47 o.f (ls.map s.peek)⟩

/-- The units of a row, slice by slice. -/
def units233 (o : Copy) : List (Nat × Nat) := (List.range o.slices).flatMap (fun z => (List.range (slice232 o.f)).map (fun j => (z, j)))

/-- The rows of a COPY: tile row, and the index vector of the row (R233). -/
def rows233 (c : Cmd) (o : Copy) : List (Nat × (Nat → Nat)) :=
  (List.range o.rows).map (fun r => (r, fun a => if a = o.row then (c.b0.getD a 0).toNat + r else (c.b0.getD a 0).toNat))

/-- The tile row of an active lane: the lane, or under `.pack` the number of active lanes below it (R234). -/
def packed234 (c : Cmd) (lane : Nat) : Nat := if mod220 c 0 then (List.range lane).countP (fun j => c.mask.getLsbD j) else lane

/-- The rows of a COPYX, in ascending lane order (R234). -/
def rows234 (c : Cmd) (o : Copy) : List (Nat × (Nat → Nat)) :=
  (maskLanes c.mask).map (fun i => (packed234 c i, fun a => if a = o.row then (c.b0.getD i 0).toNat else (c.b1.getD a 0).toNat))

/-- Whether an active lane's row of a COPYX lies beyond the extent of ROWAX (R234). -/
def beyond234 (c : Cmd) (o : Copy) (b : List Byte) : Bool :=
  (maskLanes c.mask).any (fun i => !flag295 b o.row 2 && decide (extent295 b o.row ≤ (c.b0.getD i 0).toNat))

/-- The moves of a COPY or COPYX with the object `b`, `none` for a handle that names none. -/
def moves233 (s : State) (t : Team) (l : Launch) (c : Cmd) (x : Bool) (b : Option (List Byte)) : List Move :=
  let o := copy231 c
  match b with
  | none => [still226 7]
  | some b =>
    if valid296 b = false ∨ rank296 b ≤ o.col ∨ rank296 b ≤ o.row then [still226 7]
    else if x = true ∧ beyond234 c o b = true then [still226 8]
    else (if x then rows234 c o else rows233 c o).flatMap (fun r => (units233 o).map (fun p => move233 s t l o b r.2 r.1 p.1 p.2))

/-- The pins of the entries that translate a unit (R308). -/
def pins308 (s : State) (t : Team) (l : Launch) (o : Copy) (b : List Byte) (idx : Nat → Nat) : List Pin :=
  (List.range (rank296 b)).filterMap (fun j => match map299 s t l o.h b j (idx j) with
    | .ok (_, some e) => some ⟨o.h, j, axis295 b j 18 1, e % 2 ^ 115⟩
    | _ => none)

/-- Whether an index of an axis needs no walk: it is beyond its extent, needs no table, or lies in an entry of the core's caches. -/
def heldAxis302 (s : State) (t : Team) (l : Launch) (h : Nat) (b : List Byte) (j i0 : Nat) : Bool :=
  let i := index299 b j i0
  decide (extent295 b j ≤ i) || (axis295 b j 16 2 == 0) || (cached302 s t l h j (axis295 b j 18 1) i).isSome

/-- Every translation of an index vector is made through the core's caches. -/
def held302 (s : State) (t : Team) (l : Launch) (h : Nat) (b : List Byte) (idx : Nat → Nat) : Bool :=
  (List.range (rank296 b)).all (fun j => heldAxis302 s t l h b j (idx j))

/-- A COPY or COPYX starts: its object and the entries that it needs stand in its core's caches, and its windows' bytes can be reached. -/
abbrev CopyPre (s : State) (q : StreamRef) (c : Cmd) (t : Team) (l : Launch) (x : Bool) (b : Option (List Byte)) : Prop :=
  let o := copy231 c
  let rows := if x then rows234 c o else rows233 c o
  Starts s q c t l ∧ c.is 0x78 (if x then 1 else 0) = true ∧ o.col ≠ o.row ∧ o.f ≤ (if o.store then 5 else 10) ∧
  (b = none → t.segs.ttcount ≤ o.h) ∧ (∀ b' ∈ b, object302 s t l o.h = some b' ∧
    ∀ r ∈ rows, ∀ p ∈ units233 o, held302 s t l o.h b' (index233 o r.2 p.1 p.2) = true) ∧
  (∀ r ∈ rows, ∀ p ∈ units233 o, ∀ e ∈ place230 o.f o.base o.rows p.1 r.1 p.2, s.windowFault t e.1 e.2 = none) ∧
  Apart (moves233 s t l c x b)

/-- The pins of a COPY or COPYX that has made all its moves: its own from before, and those of every entry that it used. -/
def pinned308 (s : State) (t : Team) (l : Launch) (c : Cmd) (x : Bool) (b : Option (List Byte)) (ps : List Pin) : Prop :=
  let o := copy231 c
  let rows := if x then rows234 c o else rows233 c o
  (status226 (moves233 s t l c x b)).1 = 0 → ∀ p, p ∈ ps ↔ p ∈ c.pins ∨
    ∃ b' ∈ b, ∃ r ∈ rows, ∃ u ∈ units233 o, p ∈ pins308 s t l o b' (index233 o r.2 u.1 u.2)

/-! ### GATH and SCATX (R235) -/

/-- The node that a lane's index names. -/
def node235 (c : Cmd) (lane : Nat) : Nat := (c.b0.getD lane 0).toNat / 2 ^ (word221 c 4 / 2 ^ 8 % 2 ^ 5)

/-- The address of a lane's row: GBASE with its NODE replaced, plus row times RSTR. -/
def addr235 (c : Cmd) (lane : Nat) : Nat :=
  let base := word221 c 0 + 2 ^ 32 * word221 c 1
  (node235 c lane * 2 ^ 56 + base % 2 ^ 56 + (c.b0.getD lane 0).toNat % 2 ^ (word221 c 4 / 2 ^ 8 % 2 ^ 5) * word221 c 2) % 2 ^ 64

/-- Bytes of a row. -/
def size235 (c : Cmd) : Nat := 128 * (word221 c 4 % 2 ^ 8)

/-- The tile row of a lane in the scratchpad. -/
def tile235 (s : State) (t : Team) (c : Cmd) (lane : Nat) : List Loc := s.scrLocs t (word221 c 3 + packed234 c lane * size235 c) (size235 c)

/-- The moves of a GATH, or of a SCATX that stores. -/
def moves235 (s : State) (t : Team) (l : Launch) (c : Cmd) (scatter : Bool) : List Move :=
  if (maskLanes c.mask).any (fun i => decide (255 < node235 c i)) then [still226 8]
  else (maskLanes c.mask).map (fun i =>
    let tile := tile235 s t c i
    match scatter, reach226 s t l (addr235 c i) (size235 c) (if scatter then .write else .read) with
    | true, .error e => ⟨if poisoned s tile then (6, 0) else e, tile, [], []⟩
    | false, .error e => ⟨e, [], [], []⟩
    | true, .ok ls => ⟨(if poisoned s tile then 6 else 0, 0), tile, ls, tile.map s.peek⟩
    | false, .ok ls => ⟨(if poisoned s ls then 6 else 0, 0), ls, tile, ls.map s.peek⟩)

/-- A GATH or SCATX starts. -/
abbrev GathPre (s : State) (q : StreamRef) (c : Cmd) (t : Team) (l : Launch) (scatter : Bool) : Prop :=
  Starts s q c t l ∧ c.is 0x78 (if scatter then 3 else 2) = true ∧
  (∀ i ∈ maskLanes c.mask, s.windowFault t (word221 c 3 + packed234 c i * size235 c) (size235 c) = none)

/-- The words that a SCATX adds: where each lies, and the number added, in ascending lane order. -/
def adds235 (s : State) (t : Team) (l : Launch) (c : Cmd) : List (List Loc × Nat) :=
  (maskLanes c.mask).flatMap (fun i => (List.range (size235 c / 4)).map (fun j =>
    ((reach226 s t l ((addr235 c i + 4 * j) % 2 ^ 64) 4 .rmw).toOption.getD [], Bytes.num s.peek (((tile235 s t c i).drop (4 * j)).take 4))))

/-- Bytes after the additions: FP32 in rn under OP 1, modulo 2^32 under OP 2 (R175, R235). -/
def added235 (m : Bytes) (op : Nat) (as : List (List Loc × Nat)) : Bytes :=
  as.foldl (fun m p => let old := Bytes.num m p.1
    Bytes.put m p.1 (toBytes 4 (if op = 1 then fadd fp32 .rn false old p.2 else (old + p.2) % 2 ^ 32))) m

/-- A SCATX that adds starts: each of its words can be reached, and none that it reads or adds to is poisoned. -/
abbrev AddPre (s : State) (q : StreamRef) (c : Cmd) (t : Team) (l : Launch) : Prop :=
  GathPre s q c t l true ∧ (word221 c 4 / 2 ^ 14 % 2 ^ 2 = 1 ∨ word221 c 4 / 2 ^ 14 % 2 ^ 2 = 2) ∧
  (∀ i ∈ maskLanes c.mask, node235 c i ≤ 255 ∧ poisoned s (tile235 s t c i) = false ∧ present (tile235 s t c i) = true ∧
    ∀ j ∈ List.range (size235 c / 4), (reach226 s t l ((addr235 c i + 4 * j) % 2 ^ 64) 4 .rmw).toOption.isSome = true) ∧
  ∀ p ∈ adds235 s t l c, present p.1 = true ∧ poisoned s p.1 = false ∧ ∀ i ∈ maskLanes c.mask, ∀ o ∈ p.1, o ∉ tile235 s t c i

/-- The words have been added, and nothing else has changed but that the command stands started with status 0. -/
abbrev AddPost (s s' : State) (q : StreamRef) (c : Cmd) (t : Team) (l : Launch) : Prop :=
  s' = { s with waves := s'.waves, deliveries := s'.deliveries, mem := s'.mem, poison := s'.poison, teams := s'.teams, streams := s'.streams } ∧
  BytesNow s s' (added235 s.peek (word221 c 4 / 2 ^ 14 % 2 ^ 2) (adds235 s t l c)) ∧
  (∀ a, s'.poison.contains a = s.poison.contains a) ∧ s'.streams = (withCmd s q c { c with state := .started 0 }).streams


/-! ### What the matrix and attention commands read and write (R27, R163, R226) -/

/-- The words of an accumulator memory. -/
abbrev Words := Nat → Nat

/-- Words from an address on. -/
def Words.put (m : Words) (a : Nat) (vs : List Nat) : Words := fun b => if a ≤ b ∧ b < a + vs.length then vs.getD (b - a) 0 % 2 ^ 32 else m b

/-- The words of a team's accumulator memory. -/
def words27 (s : State) (t : Team) : Words := acmWord s t.ref

/-- The status of a failed check of global bytes (R226, R362, R373), with the check's number. -/
def status362 (e : Nat × Nat × Bool) : Nat × Nat := if e.1 = 7 then (5, e.2.1) else if e.2.2 then (10, 0) else (4, 0)

/-- Bytes of the team's scratchpad, those of a window as global bytes (R172); or the status that they end the command with. -/
def read226 (s : State) (t : Team) (off n : Nat) : Except (Nat × Nat) (List Byte) :=
  match s.windowFault t off n with
  | some e => .error (status362 e)
  | none => if poisoned s (s.scrLocs t off n) then .error (6, 0) else .ok ((s.scrLocs t off n).map s.peek)

/-- A team's accumulator words are `m`, and no other field of a team has changed. -/
abbrev AcmNow (s s' : State) (t : Team) (m : Words) : Prop :=
  (∀ a, acmWord s' t.ref a = m a) ∧ s'.teams.map acmless = s.teams.map acmless ∧ ∀ u ∈ s'.teams, u.ref = t.ref ∨ u ∈ s.teams

/-- A state's nodes after a command has met a status: the notice of a failed world check (R374). -/
def noticed226 (s : State) (c : Cmd) (t : Team) (l : Launch) (st : Nat × Nat) : List Node :=
  if st.1 = 5 then nodes374 s t.node (7 + 256 * st.2) l.region.rcb (engine223 s c t l).where_ else s.nodes

/-- Some things in order: the first that fails, or that is dropped, decides. -/
def allOf {α : Type} : List (Except (Nat × Nat) (Option α)) → Except (Nat × Nat) (Option (List α))
  | [] => .ok (some [])
  | .error e :: _ => .error e
  | .ok none :: _ => .ok none
  | .ok (some x) :: rest => (allOf rest).map (fun r => r.map (fun xs => x :: xs))

/-! ### MMA, MMAB and MMAS (R53, R230, R236 to R242) -/

/-- The rows of an operand: row, slice. -/
abbrev Rows := Nat → Nat → Except (Nat × Nat) (List FVal)

/-- Row `r` of slice `z` of a slab (R43, R44, R46, R230). -/
def slabRow230 (s : State) (t : Team) (base c rows : Nat) : Rows := fun r z => do
  let tile := base + z * tile230 c rows
  let el ← read226 s t (tile + 128 * r) 128
  let side ← read226 s t (tile + 128 * rows + side46 c * r) (side46 c)
  pure (rowVals c el side)

/-- A row with an operand bitmap (R242): an element whose bit is clear is zero. -/
def bitmapRow242 (s : State) (t : Team) (base map c rows : Nat) : Rows := fun r z => do
  let v ← slabRow230 s t base c rows r z
  let n := rowElems c / 8
  let bm ← read226 s t (map + (z * rows + r) * n) n
  pure ((List.range v.length).map (fun e => if (bm.getD (e / 8) 0).getLsbD (e % 8) then v.getD e .nan else .fin false 0 0))

/-- A field of an unfold descriptor: bits of one of its words (R240). -/
def field240 (bs : List Byte) (w lo n : Nat) : Nat := field102 bs (4 * w) 4 / 2 ^ lo % 2 ^ n

/-- Whether an unfold descriptor keeps its limits (R240). -/
def legal240 (bs : List Byte) (ks : Nat) : Bool :=
  let f := field240 bs
  f 0 0 7 == 0 && f 1 0 7 == 0 && ([f 2 16 16, f 2 0 16, f 3 0 16, f 4 20 4, f 4 16 4, f 4 12 4, f 4 8 4, f 4 4 4, f 4 0 4, f 5 0 8].all (fun n => n != 0)) &&
    f 5 8 24 == 0 && f 6 0 32 == 0 && f 7 0 32 == 0 && ks == f 4 4 4 * f 4 0 4 * f 5 0 8

/-- The rows that the array forms under `.virt` (R240), within a scratchpad of `size` bytes. -/
def virtRow240 (s : State) (t : Team) (size : Nat) (bs : List Byte) (c : Nat) : Rows := fun m z =>
  let f := field240 bs
  let tap := z / f 5 0 8
  let p := f 3 16 16 + m
  let iy : Int := (p / f 3 0 16 * f 4 12 4 + tap / f 4 0 4 * f 4 20 4 : Nat) - (f 4 28 4 : Int)
  let ix : Int := (p % f 3 0 16 * f 4 8 4 + tap % f 4 0 4 * f 4 16 4 : Nat) - (f 4 24 4 : Int)
  if 0 ≤ iy ∧ iy < f 2 16 16 ∧ 0 ≤ ix ∧ ix < f 2 0 16 then
    let rows := f 2 16 16 * f 2 0 16
    let r := iy.toNat * f 2 0 16 + ix.toNat
    let tile := field102 bs 0 4 + z % f 5 0 8 * field102 bs 4 4
    if size < tile + 128 * r + 128 ∨ size < tile + 128 * rows + side46 c * r + side46 c then .error (9, 0)
    else slabRow230 s t tile c rows r 0
  else .ok (rowVals c (List.replicate 128 0) (List.replicate 16 0x7F ++ List.replicate 16 0x80))

/-- A product: whether its types are INT8, its columns, slices and place, and whether C starts at +0. -/
structure Times where
  int8 : Bool
  n : Nat
  ks : Nat
  at_ : Nat
  ovw : Bool
  deriving DecidableEq, Repr

/-- One output: from C or +0, each slice's sum is rounded and added in order (R53, R237). -/
def out237 (p : Times) (a b : Rows) (m : Words) (r n : Nat) : Except (Nat × Nat) Nat :=
  (List.range p.ks).foldlM (fun acc z => do
    let x ← a r z
    let y ← b n z
    pure (addSlice p.int8 acc x y)) (if p.ovw then 0 else m (p.at_ + p.n * r + n))

/-- A matrix command as it goes: accumulator words, finished micro-tiles or blocks, pairs for the list, and its status. -/
structure Going where
  m : Words
  count : Nat
  pairs : List (Nat × Nat)
  st : Nat × Nat

/-- A micro-tile or block is computed whole, then written, then counted; or it ends the command (R237, R241). -/
def tile237 (p : Times) (a b : Rows) (ibase : Nat) (g : Going) (ps : List (Nat × Nat)) : Going :=
  if g.st.1 ≠ 0 then g
  else match ps.mapM (fun q => (out237 p a b g.m q.1 q.2).map (fun v => (p.n * q.1 + q.2, v))) with
    | .error e => { g with st := e }
    | .ok os => ⟨os.foldl (fun m o => m.put (p.at_ + o.1) [o.2]) g.m, g.count + 1, g.pairs ++ os.map (fun o => (o.2, (ibase + o.1) % 2 ^ 32)), (0, 0)⟩

/-- Outputs of micro-tile `j` of a product of `n` columns, in row-major order (R237). -/
def micro237 (n j : Nat) : List (Nat × Nat) :=
  (List.range 8).flatMap (fun r => (List.range 8).map (fun k => (8 * (j / (n / 8)) + r, 8 * (j % (n / 8)) + k)))

/-- The micro-tiles of a product of `rows` rows, in order. -/
def tiles237 (p : Times) (a b : Rows) (ibase rows : Nat) (m : Words) : Going :=
  (List.range (rows / 8 * (p.n / 8))).foldl (fun g j => tile237 p a b ibase g (micro237 p.n j)) ⟨m, 0, [], (0, 0)⟩

/-- The list of a product under `.rank`, as its CFG word is read (R208, R210, R239): the status 7 or 9 of one that fails. -/
def list239 (size at_ cfg : Nat) (int8 : Bool) : Nat :=
  if at_ % 4 ≠ 0 then 7
  else if size < at_ + 4 then 9
  else if k208 cfg = 0 ∨ 1024 < k208 cfg ∨ kt208 cfg = 3 then 7
  else if size < at_ + 4 + 2 * k208 cfg then 9
  else if kt208 cfg ≠ (if int8 then 1 else 0) then 7 else 0

/-- The rows of A and of B of an MMA or MMAS; or the status that reading the unfold descriptor ends it with. -/
def operands237 (s : State) (c : Cmd) (t : Team) (l : Launch) : Except (Nat × Nat) (Rows × Rows) :=
  let z := mma236 c
  let d := word221 c
  if c.is 0x79 2 then .ok (bitmapRow242 s t (d 1) (d 4) z.ta z.m, bitmapRow242 s t (d 2) (d 5) z.tb z.n)
  else
    let b := slabRow230 s t (d 2) z.tb z.n
    if mod220 c 1 then (read226 s t (d 1) 32).bind (fun bs =>
      if legal240 bs z.ks then .ok (virtRow240 s t l.kernel.scr bs z.ta, b) else .error (7, 0))
    else .ok (slabRow230 s t (d 1) z.ta z.m, b)

/-- The list and the index base of an MMA or MMAS under `.rank`. -/
def rank239 (c : Cmd) : Nat × Nat := if c.is 0x79 2 then (word221 c 6, word221 c 7) else (word221 c 4, word221 c 5)

/-- An MMA or MMAS as it ends. -/
def mma237 (s : State) (c : Cmd) (t : Team) (l : Launch) : Going :=
  let z := mma236 c
  let m := words27 s t
  let bad := if mod220 c 0 then list239 l.kernel.acm (rank239 c).1 (m (rank239 c).1) (z.ta == 5) else 0
  if bad ≠ 0 then ⟨m, 0, [], (bad, 0)⟩
  else match operands237 s c t l with
    | .error e => ⟨m, 0, [], e⟩
    | .ok (a, b) => tiles237 ⟨z.ta == 5, z.n, z.ks, word221 c 3, z.ovw⟩ a b (rank239 c).2 z.m m

/-- One block of a block table (R241). -/
def block241 (s : State) (c : Cmd) (t : Team) (l : Launch) (table : List Byte) (g : Going) (j : Nat) : Going :=
  let w (i : Nat) : Nat := field102 table (16 * j + 4 * i) 4
  let ta := (mma236 c).ta
  let tb := (mma236 c).tb
  let ks := (mma236 c).ks
  let m := 2 * (w 3 % 8 + 1)
  let n := 2 * (w 3 / 8 % 8 + 1)
  let stop (st : Nat) : Going := if g.st.1 = 0 then { g with st := (st, 0) } else g
  if 2 ^ 7 ≤ w 3 ∨ w 0 % 128 ≠ 0 ∨ w 1 % 128 ≠ 0 then stop 7
  else if l.kernel.scr < w 0 + ks * tile230 ta m ∨ l.kernel.scr < w 1 + ks * tile230 tb n ∨ l.kernel.acm < w 2 + m * n then stop 9
  else tile237 ⟨ta == 5, n, ks, w 2, (w 3).testBit 6⟩ (slabRow230 s t (w 0) ta m) (slabRow230 s t (w 1) tb n) 0 g
    ((List.range m).flatMap (fun r => (List.range n).map (fun k => (r, k))))

/-- An MMAB as it ends: the table is read once, and the blocks start in table order (R241). -/
def mmab241 (s : State) (c : Cmd) (t : Team) (l : Launch) : Going :=
  let blocks := word221 c 0 / 2 ^ 6 % 2 ^ 5
  match read226 s t (word221 c 1) (16 * blocks) with
  | .error e => ⟨words27 s t, 0, [], e⟩
  | .ok table => (List.range blocks).foldl (block241 s c t l table) ⟨words27 s t, 0, [], (0, 0)⟩

/-- A matrix command as it ends, the list aside. -/
def going236 (s : State) (c : Cmd) (t : Team) (l : Launch) : Going := if c.is 0x79 1 then mmab241 s c t l else mma237 s c t l

/-- A matrix command starts; under `.rank`, a list that passes its check is in rank order and lies apart from C. -/
abbrev MatrixPre (s : State) (q : StreamRef) (c : Cmd) (t : Team) (l : Launch) : Prop :=
  let z := mma236 c
  let at_ := (rank239 c).1
  let cfg := acmWord s t.ref at_
  Starts s q c t l ∧ (c.is 0x79 0 = true ∨ c.is 0x79 1 = true ∨ c.is 0x79 2 = true) ∧
  (c.is 0x79 1 = false → mod220 c 0 = true → list239 l.kernel.acm at_ cfg (z.ta == 5) = 0 →
    sorted209 (kt208 cfg) (pairs208 s t.ref at_) = true ∧
    (word221 c 3 + z.m * z.n ≤ at_ ∨ at_ + 4 + 2 * k208 cfg ≤ word221 c 3))

/-- The outputs of the finished micro-tiles or blocks stand, and the pushed list under `.rank`; MTDONE names the command and counts them; the
command stands started with its status, and nothing else has changed. -/
abbrev MatrixPost (s s' : State) (q : StreamRef) (c : Cmd) (t : Team) (l : Launch) : Prop :=
  let g := going236 s c t l
  let at_ := (rank239 c).1
  let cfg := acmWord s t.ref at_
  s' = { s with teams := s'.teams, cores := s'.cores, streams := s'.streams, nodes := noticed226 s c t l g.st } ∧
  AcmNow s s' t (if c.is 0x79 1 = false ∧ mod220 c 0 = true ∧ 0 < g.count
    then g.m.put (at_ + 1) (words208 (kt208 cfg) (k208 cfg) (pushed209 (kt208 cfg) (k208 cfg) (pairs208 s t.ref at_) g.pairs)) else g.m) ∧
  s'.cores = s.cores.map (fun k => if k.node = t.node ∧ k.die = t.die ∧ k.num = t.core.getD 0 then
    { k with mtSeq := c.seq % 2 ^ 16, mtCount := g.count } else k) ∧
  s'.streams = (withCmd s q c { c with state := .started g.st.1 }).streams

/-! ### Attention (R57, R243 to R250) -/

/-- The rows of a slab, each a list of slices. -/
def slab230Rows (s : State) (t : Team) (base c rows ns : Nat) : Except (Nat × Nat) (List (List (List FVal))) :=
  (List.range rows).mapM (fun r => (List.range ns).mapM (fun z => slabRow230 s t base c rows r z))

/-- A dot product over slices (R53). -/
def dot53 (a b : List (List FVal)) : Nat := (a.zip b).foldl (fun c p => addSlice false c p.1 p.2) 0

/-- FP32 operations in rn: sum. -/
def add57 (a b : Nat) : Nat := fadd fp32 .rn false a b
/-- Difference. -/
def sub57 (a b : Nat) : Nat := fsub fp32 .rn false a b
/-- Product. -/
def mul57 (a b : Nat) : Nat := fmul fp32 .rn false a b
/-- Fused product and sum. -/
def fma57 (a b c : Nat) : Nat := ffma fp32 .rn false a b c
/-- 2^a. -/
def exp57 (a : Nat) : Nat := exp2To fp32 .rn false a
/-- The larger. -/
def max57 (a b : Nat) : Nat := fminmax fp32 true a b

/-- The parameters of an ATTN (R243). -/
structure Attn where
  qoff : Nat
  win : Nat
  mask : Nat
  dvs : Nat
  dks : Nat
  qt : Nat
  rows : Nat
  kh : Nat
  vh : Nat
  tlo : Nat
  thi : Nat
  scale : Nat
  poff : Nat
  acmb : Nat
  deriving DecidableEq, Repr

/-- A descriptor's parameters. -/
def attn243 (c : Cmd) : Attn :=
  let d := word221 c
  ⟨d 0, d 1 / 2 ^ 18 % 2 ^ 14, d 1 / 2 ^ 16 % 2 ^ 2, d 1 / 2 ^ 13 % 2 ^ 3, d 1 / 2 ^ 10 % 2 ^ 3, d 1 / 2 ^ 7 % 2 ^ 3, d 1 % 2 ^ 7,
   d 2 % 2 ^ 16, d 2 / 2 ^ 16 % 2 ^ 16, d 3, d 4, d 5, d 6, d 7⟩

/-- Where m, l and O of a row lie (R244). -/
def m244 (o : Attn) (r : Nat) : Nat := o.acmb + 24 + r
/-- l. -/
def l244 (o : Attn) (r : Nat) : Nat := o.acmb + 24 + o.rows + r
/-- O. -/
def o244 (o : Attn) (r j : Nat) : Nat := o.acmb + 24 + 2 * o.rows + 64 * o.dvs * r + j

/-- Words after a row has taken new m, l and O. -/
def rowNow (w : Words) (o : Attn) (r m l : Nat) (os : List Nat) : Words := ((w.put (o244 o r 0) os).put (l244 o r) [l]).put (m244 o r) [m]

/-- Whether token `k` is masked for a row at position `p` (R245). -/
def masked245 (o : Attn) (p k : Nat) : Bool :=
  decide (o.thi ≤ k) || (decide (1 ≤ o.mask) && decide (p < k)) || (o.mask == 2 && decide (k + o.win ≤ p))

/-- The blocks of an ATTN (R245). -/
def blocks245 (o : Attn) : Nat := (o.thi - o.tlo + 63) / 64

/-- The index vector of unit `u` of a token's row (R243). -/
def index243 (c : Cmd) (b : List Byte) (tok u : Nat) : Nat → Nat := fun a =>
  if a = 0 then u else if paged295 b = some a then tok else (c.b0.getD a 0).toNat

/-- A unit of a token's row, in its canonical type: dropped where the paged axis does not give it, zero beyond axis 0 (R243, R245, R247; the
last is log 32). -/
def unit243 (s : State) (t : Team) (l : Launch) (c : Cmd) (h : Nat) (b : List Byte) (tok u : Nat) : Except (Nat × Nat) (Option (List Byte)) :=
  let f := field102 b 0 1 % 16
  let m (j : Nat) : Except Nat (Int × Option Nat) := map299 s t l h b j (index243 c b tok u j)
  let axes := List.range (rank296 b)
  if axes.any (fun j => decide (paged295 b ≠ some j) && (kind301 (m j)).isSome && !(j == 0 && kind301 (m j) == some 2)) then .error (2, 0)
  else if axes.any (fun j => decide (paged295 b = some j) && (kind301 (m j)).isSome) then .ok none
  else if kind301 (m 0) = some 2 then .ok (some (zero233 f))
  else match reach226 s t l (address300 b m) (unit232 f) .read with
    | .error e => .error e
    | .ok ls => if poisoned s ls then .error (6, 0) else .ok (some (expand47 f (ls.map s.peek)))

/-- The slices of a token's row. -/
def token243 (s : State) (t : Team) (l : Launch) (c : Cmd) (h : Nat) (b : List Byte) (ns tok : Nat) : Except (Nat × Nat) (Option (List (List FVal))) :=
  let f := field102 b 0 1 % 16
  allOf ((List.range ns).map (fun z =>
    (allOf ((List.range (slice232 f)).map (fun j => unit243 s t l c h b tok (slice232 f * z + j)))).map (fun r => r.map (fun us =>
      rowVals (canon232 f) (us.flatMap (fun u => u.take (sizes232 f).1)) (us.flatMap (fun u => (u.drop (sizes232 f).1).take (sizes232 f).2.1))))))

/-- The operands of an ATTN: its rows of Q, and the position of each row. -/
structure Query where
  q : List (List (List FVal))
  pos : List Nat

/-- Whether a token is needed (R245). -/
def needed245 (o : Attn) (i : Query) (k : Nat) : Bool := (List.range o.rows).any (fun r => !masked245 o (i.pos.getD r 0) k)

/-- The rows of a block's tokens; one that is not needed is not read (R245). -/
def rows246 (s : State) (t : Team) (l : Launch) (c : Cmd) (i : Query) (h : Nat) (b : List Byte) (ns lo : Nat) :
    Except (Nat × Nat) (Option (List (List (List FVal)))) :=
  allOf ((List.range 64).map (fun k => if needed245 (attn243 c) i (lo + k) then token243 s t l c h b ns (lo + k)
    else .ok (some (List.replicate ns (List.replicate 64 (.fin false 0 0))))))

/-- A row's score of a token (R57, R246). -/
def score57 (o : Attn) (i : Query) (r k : Nat) (ks : List (List (List FVal))) : Nat :=
  mul57 o.scale (dot53 (i.q.getD r []) (ks.getD k []))

/-- A row takes a block (R57 steps 1 to 4, R246). -/
def row57 (o : Attn) (i : Query) (lo : Nat) (ks vs : List (List (List FVal))) (w : Words) (r : Nat) : Words :=
  let ss := (List.range 64).map (fun k => if masked245 o (i.pos.getD r 0) (lo + k) then 0xFF800000 else score57 o i r k ks)
  let m := ss.foldl max57 (w (m244 o r))
  if m = 0xFF800000 then w
  else
    let al := exp57 (sub57 (w (m244 o r)) m)
    let ps := ss.map (fun x => exp2To bf16 .rn false (sub57 x m))
    let pv := ps.map bf16.decode
    rowNow w o r m (ps.foldl (fun a p => add57 a (p * 2 ^ 16)) (mul57 (w (l244 o r)) al))
      ((List.range (64 * o.dvs)).map (fun j =>
        addSlice false (mul57 (w (o244 o r j)) al) pv (vs.map (fun v => (v.getD (j / 64) []).getD (j % 64) .nan))))

/-- An ATTN as it goes: accumulator words, dropped blocks, and its status. -/
structure Pass where
  w : Words
  dropped : List Nat
  st : Nat × Nat

/-- One block: applied whole with DONE one more, or dropped; or it ends the command (R246, R247). -/
def block246 (s : State) (t : Team) (l : Launch) (c : Cmd) (i : Query) (kb vb : List Byte) (g : Pass) (b : Nat) : Pass :=
  let o := attn243 c
  let lo := o.tlo + 64 * b
  if g.st.1 ≠ 0 then g
  else match rows246 s t l c i o.kh kb o.dks lo, rows246 s t l c i o.vh vb o.dvs lo with
    | .error e, _ => { g with st := e }
    | .ok _, .error e => { g with st := e }
    | .ok (some ks), .ok (some vs) =>
      let w := (List.range o.rows).foldl (row57 o i lo ks vs) g.w
      { g with w := w.put (o.acmb + 5) [w (o.acmb + 5) + 1] }
    | .ok _, .ok _ => { g with dropped := g.dropped ++ [b] }

/-- Whether a tensor may be K or V: its object is valid, and its paged axis and its element type are as R243 asks. -/
def tensor243 (types : List Nat) (b : Option (List Byte)) : Bool :=
  b.any (fun b => valid296 b && (paged295 b).any (fun p => p != 0) && types.contains (field102 b 0 1 % 16))

/-- Whether an axis other than axis 0 and the paged one does not translate (R243). -/
def other243 (s : State) (t : Team) (l : Launch) (c : Cmd) (h : Nat) (b : List Byte) : Bool :=
  (List.range (rank296 b)).any (fun j => j != 0 && decide (paged295 b ≠ some j) && (kind301 (map299 s t l h b j (c.b0.getD j 0).toNat)).isSome)

/-- What an ATTN reads before its blocks, or the status that this ends it with (R243). -/
def query243 (s : State) (t : Team) (l : Launch) (c : Cmd) (kb vb : Option (List Byte)) : Except (Nat × Nat) (Query × List Byte × List Byte) :=
  let o := attn243 c
  if tensor243 (if o.qt = 3 then [0] else [4, 5, 7, 8]) kb = false ∨ tensor243 [0] vb = false then .error (7, 0)
  else if other243 s t l c o.kh (kb.getD []) ∨ other243 s t l c o.vh (vb.getD []) then .error (2, 0)
  else do
    let q ← slab230Rows s t o.qoff o.qt o.rows o.dks
    let p ← if o.mask = 0 then pure [] else read226 s t o.poff (4 * o.rows)
    pure (⟨q, (List.range o.rows).map (fun r => field102 p (4 * r) 4)⟩, kb.getD [], vb.getD [])

/-- The main pass of an ATTN (R244 to R247). -/
def main246 (s : State) (t : Team) (l : Launch) (c : Cmd) (kb vb : Option (List Byte)) : Pass :=
  let o := attn243 c
  let w := (words27 s t).put (o.acmb + 4) (List.replicate 12 0)
  if o.thi = o.tlo then ⟨w, [], (0, 0)⟩
  else match query243 s t l c kb vb with
    | .error e => ⟨w, [], e⟩
    | .ok (i, k, v) => (List.range (blocks245 o)).foldl (block246 s t l c i k v) ⟨w, [], (0, 0)⟩

/-- r4 = d^(−1/4) and h = 1/(2√d) in FP32, for d = 64, 128, 192 and 256 (R252). -/
def consts252 (dks : Nat) : Nat × Nat :=
  [(0x3EB504F3, 0x3D800000), (0x3E9837F0, 0x3D3504F3), (0x3E898B82, 0x3D13CD3A), (0x3E800000, 0x3D000000)].getD (dks - 1) (0, 0)

/-- The feature map of a row (R252). -/
def phi252 (dks c : Nat) (wm : List (List (List FVal))) (x : List (List FVal)) : List Nat :=
  let k := consts252 dks
  (List.range 64).map (fun i =>
    let e := sub57 (sub57 (mul57 (dot53 (wm.getD i []) x) k.1) (mul57 (dot53 x x) k.2)) (mul57 c 0x3F000000)
    mul57 (exp57 (mul57 e 0x3FB8AA3B)) 0x3E000000)

/-- The Sinter partial of a row (R249). -/
def sinter249 (o : Attn) (i : Query) (sa : Nat) (wm : List (List (List FVal))) (c : Nat) (w : Words) (r : Nat) : Words :=
  let dv := 64 * o.dvs
  let f := phi252 o.dks c wm (i.q.getD r [])
  let sum (at_ : Nat → Nat) : Nat := (List.range 64).foldl (fun acc j => fma57 (f.getD j 0) (w (at_ j)) acc) 0
  let c2 := mul57 c 0x3FB8AA3B
  let m := max57 (w (m244 o r)) c2
  let al := exp57 (sub57 (w (m244 o r)) m)
  let be := exp57 (sub57 c2 m)
  rowNow w o r m (add57 (mul57 (w (l244 o r)) al) (mul57 be (sum (fun j => sa + 64 * dv + j))))
    ((List.range dv).map (fun j => add57 (mul57 (w (o244 o r j)) al) (mul57 be (sum (fun k => sa + dv * k + j)))))

/-- A row's weight of token `k` of a block, added to `a` (R250). -/
def weight250 (o : Attn) (i : Query) (lo k : Nat) (ks : List (List (List FVal))) (w : Words) (a r : Nat) : Nat :=
  if w (l244 o r) % 2 ^ 31 = 0 ∨ masked245 o (i.pos.getD r 0) (lo + k) = true then a
  else add57 a (fdivTo fp32 fp32 .rn false (exp57 (sub57 (score57 o i r k ks) (w (m244 o r)))) (w (l244 o r)))

/-- One block of the score-table pass (R250). -/
def table250 (s : State) (t : Team) (l : Launch) (c : Cmd) (i : Query) (kb : List Byte) (ca : Nat) (g : Pass) (b : Nat) : Pass :=
  let o := attn243 c
  let lo := o.tlo + 64 * b
  if g.st.1 ≠ 0 then g
  else match rows246 s t l c i o.kh kb o.dks lo with
    | .error e => { g with st := e }
    | .ok none => g
    | .ok (some ks) =>
      let w := (List.range 64).foldl (fun w k => if needed245 o i (lo + k) then
          w.put (ca + 64 * b + k) [add57 (w (ca + 64 * b + k)) ((List.range o.rows).foldl (weight250 o i lo k ks w) 0)]
        else w) g.w
      { g with w := w.put (o.acmb + 7) [w (o.acmb + 7) + 1] }

/-- The Sinter partial of an ATTN under `.sin`, with STATUS.SIN (R249). -/
def sin249 (s : State) (t : Team) (l : Launch) (c : Cmd) (i : Query) (g : Pass) : Pass :=
  let o := attn243 c
  let sa := g.w (o.acmb + 1)
  let wo := g.w (o.acmb + 2)
  let dv := 64 * o.dvs
  if wo % 128 ≠ 0 then { g with st := (7, 0) }
  else if l.kernel.acm < sa + 64 * dv + 65 ∨ l.kernel.scr < wo + o.dks * tile230 3 64 then { g with st := (9, 0) }
  else match slab230Rows s t wo 3 64 o.dks with
    | .error e => { g with st := e }
    | .ok wm =>
      let w := (List.range o.rows).foldl (sinter249 o i sa wm (g.w (sa + 64 * dv + 64))) g.w
      { g with w := w.put (o.acmb + 4) [256 + (if g.dropped = [] then 0 else 1)] }

/-- The score table of an ATTN under `.cs`, over the blocks it completed (R250). -/
def cs250 (s : State) (t : Team) (l : Launch) (c : Cmd) (i : Query) (kb : List Byte) (g : Pass) : Pass :=
  let o := attn243 c
  if l.kernel.acm < g.w o.acmb + (o.thi - o.tlo) then { g with st := (9, 0) }
  else ((List.range (blocks245 o)).filter (fun b => !g.dropped.contains b)).foldl (table250 s t l c i kb (g.w o.acmb)) g

/-- The end of an ATTN (R247, R249, R250): the dropped blocks once more, ABSMAP, NABS and STATUS, the Sinter partial, the score table. -/
def end247 (s : State) (t : Team) (l : Launch) (c : Cmd) (kb vb : Option (List Byte)) : Pass :=
  let o := attn243 c
  let w := words27 s t
  if o.thi = o.tlo then ⟨w, [], (0, 0)⟩
  else match query243 s t l c kb vb with
    | .error e => ⟨w, [], e⟩
    | .ok (i, k, v) =>
      let g := ((List.range (blocks245 o)).filter (fun b => c.progress.testBit b)).foldl (block246 s t l c i k v) ⟨w, [], (0, 0)⟩
      if g.st.1 ≠ 0 then g
      else
        let map := (List.range 8).map (fun j => ((List.range 32).map (fun k => if g.dropped.contains (32 * j + k) then 2 ^ k else 0)).sum)
        let g1 : Pass := { g with w := (g.w.put (o.acmb + 8) map).put (o.acmb + 4) [if g.dropped = [] then 0 else 1, g.w (o.acmb + 5), g.dropped.length] }
        let g2 := if mod220 c 1 then sin249 s t l c i g1 else g1
        if g2.st.1 = 0 ∧ mod220 c 0 = true then cs250 s t l c i k g2 else g2

/-- An ATTN's tensors stand in its core's caches, and its translations are made through them; what it reads exists. -/
abbrev AttnHeld (s : State) (t : Team) (l : Launch) (c : Cmd) (kb vb : Option (List Byte)) : Prop :=
  let o := attn243 c
  ∀ p ∈ [(o.kh, o.dks, kb), (o.vh, o.dvs, vb)], (p.2.2 = none → t.segs.ttcount ≤ p.1) ∧ ∀ b ∈ p.2.2, object302 s t l p.1 = some b ∧
    (valid296 b = true → (∀ j ∈ List.range (rank296 b), heldAxis302 s t l p.1 b j (c.b0.getD j 0).toNat = true ∨ j = 0 ∨ paged295 b = some j) ∧
      ∀ i kb' vb', query243 s t l c kb vb = .ok (i, kb', vb') → ∀ k ∈ List.range (64 * blocks245 o), needed245 o i (o.tlo + k) = true →
        ∀ u ∈ List.range (slice232 (field102 b 0 1 % 16) * p.2.1), held302 s t l p.1 b (index243 c b (o.tlo + k) u) = true ∧
          match reach226 s t l (address300 b (fun j => map299 s t l p.1 b j (index243 c b (o.tlo + k) u j))) (unit232 (field102 b 0 1 % 16)) .read with
          | .ok ls => present ls = true
          | .error _ => True)

/-- An ATTN starts. -/
abbrev AttnPre (s : State) (q : StreamRef) (c : Cmd) (t : Team) (l : Launch) (kb vb : Option (List Byte)) : Prop :=
  Starts s q c t l ∧ c.is 0x7A 0 = true ∧ AttnHeld s t l c kb vb

/-- The main pass has been made; the dropped blocks stand in the command, with its status. -/
abbrev AttnPost (s s' : State) (q : StreamRef) (c : Cmd) (t : Team) (l : Launch) (kb vb : Option (List Byte)) : Prop :=
  let g := main246 s t l c kb vb
  s' = { s with teams := s'.teams, streams := s'.streams, nodes := noticed226 s c t l g.st } ∧ AcmNow s s' t g.w ∧
  s'.streams = (withCmd s q c { c with state := .started g.st.1
                                       progress := if (attn243 c).thi = (attn243 c).tlo then c.progress else (g.dropped.map (2 ^ ·)).sum }).streams

/-- An ATTN ends that has made its main pass. -/
abbrev AttnEndPre (s : State) (q : StreamRef) (c : Cmd) (t : Team) (l : Launch) (kb vb : Option (List Byte)) : Prop :=
  Front s q c t l ∧ Alone s q t ∧ c.state = .started 0 ∧ c.is 0x7A 0 = true ∧ (engine223 s c t l).behind = false ∧
  AttnHeld s t l c kb vb ∧ home76 s t c.done = true

/-- Its end has been made, and then it has completed as any command, or has failed. -/
abbrev AttnEndPost (s s' : State) (q : StreamRef) (c : Cmd) (t : Team) (l : Launch) (kb vb : Option (List Byte)) : Prop :=
  let g := end247 s t l c kb vb
  ∃ s1, s1 = { s with teams := s1.teams, nodes := noticed226 s c t l g.st } ∧ AcmNow s s1 t g.w ∧
    if g.st.1 = 0 then CommandDone s1 s' q c t l else FailPost s1 s' q c g.st.1 t l

/-! ### ATTNFIN and FOLD (R251 to R253) -/

/-- Whether a row of an ATTNFIN has ended with l = 0. -/
def zero251 (c : Cmd) (w : Words) (r : Nat) : Bool := w (word221 c 0 + 24 + word221 c 1 % 2 ^ 7 + r) % 2 ^ 31 == 0

/-- Output element `j` of row `r` of an ATTNFIN (R251). -/
def out251 (c : Cmd) (w : Words) (r j : Nat) : Nat :=
  let rows := word221 c 1 % 2 ^ 7
  let dvs := word221 c 1 / 2 ^ 7 % 2 ^ 3
  let type : Fmt := if (word221 c 1).testBit 10 = false then fp32 else if word221 c 1 / 2 ^ 11 % 2 ^ 3 = 3 then bf16 else fp16
  if zero251 c w r then 0
  else fdivTo fp32 type .rn false (w (word221 c 0 + 24 + 2 * rows + 64 * dvs * r + j)) (w (word221 c 0 + 24 + rows + r))

/-- The rows of the slab that an ATTNFIN with DEST 1 writes, slice by slice (R230, R251). -/
def moves251 (s : State) (t : Team) (c : Cmd) : List Move :=
  let rows := word221 c 1 % 2 ^ 7
  if (word221 c 1).testBit 10 = false then []
  else (List.range rows).flatMap (fun r => (List.range (word221 c 1 / 2 ^ 7 % 2 ^ 3)).map (fun z =>
    let off := word221 c 2 + z * tile230 3 rows + 128 * r
    match s.windowFault t off 128 with
    | some e => still226 (status362 e).1
    | none => ⟨(0, 0), [], s.scrLocs t off 128, (List.range 64).flatMap (fun j => toBytes 2 (out251 c (words27 s t) r (64 * z + j)))⟩))

/-- The accumulator words after an ATTNFIN that has not failed. -/
def fin251 (c : Cmd) (w : Words) : Words :=
  let base := word221 c 0
  let rows := word221 c 1 % 2 ^ 7
  let dv := 64 * (word221 c 1 / 2 ^ 7 % 2 ^ 3)
  let rowz (j : Nat) : Nat := ((List.range 32).map (fun r => if 32 * j + r < rows ∧ zero251 c w (32 * j + r) then 2 ^ r else 0)).sum
  (if (word221 c 1).testBit 10 then w
    else w.put (base + 24 + 2 * rows) ((List.range (rows * dv)).map (fun i => out251 c w (i / dv) (i % dv)))).put (base + 16) [rowz 0, rowz 1]

/-- An ATTNFIN of at most 64 rows starts. -/
abbrev FinPre (s : State) (q : StreamRef) (c : Cmd) (t : Team) (l : Launch) : Prop :=
  Starts s q c t l ∧ c.is 0x7A 1 = true ∧ word221 c 1 % 2 ^ 7 ≤ 64 ∧ Apart (moves251 s t c)

/-- A team but for its scratchpad and its accumulator memory. -/
def memoryless (t : Team) : Team := { t with acm := [], scratch := [] }

/-- The outputs stand, with ROWZ, and the command stands started with its status. -/
abbrev FinPost (s s' : State) (q : StreamRef) (c : Cmd) (t : Team) (l : Launch) : Prop :=
  let st := status226 (moves251 s t c)
  s' = { s with waves := s'.waves, deliveries := s'.deliveries, mem := s'.mem, poison := s'.poison, teams := s'.teams
                nodes := noticed226 s c t l st, streams := s'.streams } ∧
  (∀ o, s'.peek o = moved226 s.peek (moves251 s t c) o) ∧ (∀ a, acmWord s' t.ref a = if st.1 = 0 then fin251 c (words27 s t) a else words27 s t a) ∧
  (∀ u ∈ s.teams, u.ref ≠ t.ref → ∀ a, acmWord s' u.ref a = acmWord s u.ref a) ∧ s'.teams.map memoryless = s.teams.map memoryless ∧
  s'.waves.map watchless = s.waves.map watchless ∧
  (∀ a, s'.poison.contains a = (s.poison.contains a && !((made226 (moves251 s t c)).any (fun m => m.writes.contains (.glob a))))) ∧
  s'.streams = (withCmd s q c { c with state := .started st.1 }).streams

/-- The accumulator words after one row has been folded into the Sinter state at `sa` (R253). -/
def foldRow253 (dks dvs sa : Nat) (wm : List (List (List FVal))) (x : List (List FVal)) (v : List Nat) (w : Words) : Words :=
  let dv := 64 * dvs
  let f := phi252 dks (w (sa + 64 * dv + 64)) wm x
  w.put sa ((List.range (64 * dv)).map (fun j => fma57 (f.getD (j / dv) 0) (v.getD (j % dv) 0 * 2 ^ 16) (w (sa + j))) ++
    (List.range 64).map (fun j => add57 (w (sa + 64 * dv + j)) (f.getD j 0)))

/-- A row of V of a FOLD. -/
def value253 (s : State) (t : Team) (c : Cmd) (r : Nat) : Except (Nat × Nat) (List Nat) :=
  let rows := word221 c 2 % 2 ^ 7
  ((List.range (word221 c 2 / 2 ^ 10 % 2 ^ 3)).mapM (fun z => read226 s t (word221 c 1 + z * tile230 3 rows + 128 * r) 128)).map (fun bs =>
    bs.flatMap (fun b => (List.range 64).map (fun j => field102 b (2 * j) 2)))

/-- A FOLD as it ends (R253): its rows in order. -/
def fold253 (s : State) (t : Team) (c : Cmd) : Pass :=
  let rows := word221 c 2 % 2 ^ 7
  let dks := word221 c 2 / 2 ^ 7 % 2 ^ 3
  let dvs := word221 c 2 / 2 ^ 10 % 2 ^ 3
  let w := words27 s t
  match slab230Rows s t (word221 c 3) 3 64 dks, slab230Rows s t (word221 c 0) 3 rows dks with
  | .error e, _ => ⟨w, [], e⟩
  | .ok _, .error e => ⟨w, [], e⟩
  | .ok wm, .ok ks => (List.range rows).foldl (fun (g : Pass) r =>
      if g.st.1 ≠ 0 then g
      else match value253 s t c r with
        | .error e => { g with st := e }
        | .ok v => { g with w := foldRow253 dks dvs (word221 c 4) wm (ks.getD r []) v g.w }) ⟨w, [], (0, 0)⟩

/-- A FOLD starts. -/
abbrev FoldPre (s : State) (q : StreamRef) (c : Cmd) (t : Team) (l : Launch) : Prop :=
  Starts s q c t l ∧ c.is 0x7A 2 = true ∧ 1 ≤ word221 c 2 / 2 ^ 7 % 2 ^ 3 ∧ word221 c 2 / 2 ^ 7 % 2 ^ 3 ≤ 4

/-- Its rows have been folded, and nothing but S and z has changed. -/
abbrev FoldPost (s s' : State) (q : StreamRef) (c : Cmd) (t : Team) (l : Launch) : Prop :=
  let g := fold253 s t c
  s' = { s with teams := s'.teams, streams := s'.streams, nodes := noticed226 s c t l g.st } ∧ AcmNow s s' t g.w ∧
  s'.streams = (withCmd s q c { c with state := .started g.st.1 }).streams


/-! ### AXEDIT's table change (R255, R297, R305, R306) -/

/-- TARGET of an entry (R297). -/
def target297 (e : Nat) : Nat := e / 2 ^ 64 % 2 ^ 48
/-- LO. -/
def lo297 (e : Nat) : Nat := e % 2 ^ 32
/-- The index past an entry's range. -/
def stop297 (e : Nat) : Nat := e % 2 ^ 32 + e / 2 ^ 32 % 2 ^ 32
/-- An entry of its range, TARGET and flags. -/
def pack297 (lo len target flags : Nat) : Nat := lo + 2 ^ 32 * len + 2 ^ 64 * target + 2 ^ 112 * flags

/-- TARGET of the part of an entry from index `x` on (R305): advanced by the distance, times STRIDE in OFFSET alone on the paged axis, and not
under REP; none where it leaves its range. -/
def advance305 (b : List Byte) (j e x : Nat) : Option Nat :=
  let d := x - lo297 e
  if e.testBit 114 then some (target297 e)
  else if flag295 b j 1 then
    let off : Int := (target297 e % 2 ^ 36 : Nat) + (d : Int) * stride295 b j
    if 0 ≤ off ∧ off < 2 ^ 36 then some (target297 e / 2 ^ 36 * 2 ^ 36 + off.toNat) else none
  else if target297 e + d < 2 ^ 32 then some (target297 e + d) else none

/-- What is left of an entry when [lo, hi) is removed; none where a cut leaves the range. -/
def left305 (b : List Byte) (j lo hi e : Nat) : Option (List Nat) :=
  let flags := e / 2 ^ 112 % 2 ^ 3
  let low := lo297 e < lo
  let high := hi < stop297 e
  if stop297 e ≤ lo ∨ hi ≤ lo297 e then some [e]
  else if (low ∧ advance305 b j e lo = none) ∨ (high ∧ advance305 b j e hi = none) then none
  else some ((if low then [pack297 (lo297 e) (lo - lo297 e) (target297 e) flags] else []) ++
    (if high then [pack297 hi (stop297 e - hi) ((advance305 b j e hi).getD 0) flags] else []))

/-- The table and the extent of axis `j` of an object after an edit; none where it fails with status EDIT (R255, R305). -/
def edited305 (b : List Byte) (j : Nat) (es : List Nat) (op lo len new : Nat) : Option (List Nat × Nat) :=
  let range := 1 ≤ len ∧ lo + len ≤ 2 ^ 32
  let keep (r : List Nat) : Option (List Nat × Nat) := some (r, extent295 b j)
  match op with
  | 0 => if ¬range ∨ es.length = 65535 ∨ es.any (fun e => decide (lo297 e < lo + len) && decide (lo < stop297 e)) = true then none
    else keep (es.takeWhile (fun e => decide (lo297 e ≤ lo)) ++ new :: es.dropWhile (fun e => decide (lo297 e ≤ lo)))
  | 1 =>
    let ps := es.map (left305 b j lo (lo + len))
    let r := ps.flatMap (fun p => p.getD [])
    if ¬range ∨ ps.contains none ∨ 65535 < r.length then none else keep r
  | 2 => match es.find? (fun e => decide (lo297 e < lo) && decide (lo < stop297 e)) with
    | none => none
    | some e => if es.length = 65535 then none
      else match advance305 b j e lo with
        | none => none
        | some t => keep (es.flatMap (fun f => if f = e then [pack297 (lo297 e) (lo - lo297 e) (target297 e) (e / 2 ^ 112 % 2 ^ 3),
            pack297 lo (stop297 e - lo) t (e / 2 ^ 112 % 2 ^ 3)] else [f]))
  | 3 =>
    let same (e : Nat) : Bool := lo297 e == lo && stop297 e == lo + len
    if es.any same then keep (es.map (fun e => if same e then new else e)) else none
  | _ => if flag295 b j 2 = true ∧ lo = 0 then none else some (es, lo)

/-- Where an object or a table that an edit reads and writes lies, of which its first `rd` bytes are read (R305). -/
def place305 (s : State) (t : Team) (l : Launch) (a n rd : Nat) : Except (Nat × Nat) Nat :=
  match s.globalKey t.node t.die l.ccn t.segs t.world a n .rmw with
  | .error e => .error (status362 e)
  | .ok k => if poisoned s (globBytes k rd) then .error (6, 0) else .ok k

/-- The object of an edit: where it lies and its bytes. -/
def object305 (s : State) (t : Team) (l : Launch) (c : Cmd) : Except (Nat × Nat) (Nat × List Byte) :=
  let h := word221 c 0 % 2 ^ 16
  if t.segs.ttcount ≤ h then .error (7, 0)
  else (place305 s t l ((t.segs.ttbase + 128 * h) % 2 ^ 64) 128 128).map (fun k => (k, (globBytes k 128).map s.peek))

/-- The axis of an edit. -/
def axis305 (c : Cmd) : Nat := word221 c 0 / 2 ^ 16 % 2 ^ 3

/-- The entries of an axis as they stand in memory at a key. -/
def table305 (s : State) (b : List Byte) (j k : Nat) : List Nat := (List.range (axis295 b j 16 2)).map (fun i => entry297 s k i % 2 ^ 115)

/-- The table after an edit of an object with bytes `b`, whose table lies at `k`. -/
def result305 (s : State) (c : Cmd) (b : List Byte) (k : Nat) : Option (List Nat × Nat) :=
  edited305 b (axis305 c) (table305 s b (axis305 c) k) (word221 c 0 / 2 ^ 20 % 2 ^ 3) (word221 c 1) (word221 c 2)
    (pack297 (word221 c 1) (word221 c 2) (word221 c 3 + 2 ^ 32 * (word221 c 4 % 2 ^ 16)) (word221 c 4 / 2 ^ 16 % 2 ^ 3))

/-- GEN of an edited axis. -/
def gen305 (b : List Byte) (j : Nat) : Nat := (axis295 b j 18 1 + 1) % 2 ^ 8

/-- What an edit writes, in order, and the key and bytes of its object; or its status (R305). -/
def edit305 (s : State) (t : Team) (l : Launch) (c : Cmd) : Except (Nat × Nat) (List (List Loc × List Byte) × Nat × List Byte) := do
  let o ← object305 s t l c
  let b := o.2
  let j := axis305 c
  if valid296 b = false ∨ rank296 b ≤ j then .error (7, 0)
  else do
    let n := 16 * axis295 b j 16 2
    let k ← if n = 0 then pure 0 else place305 s t l (axis295 b j 0 8) n n
    match result305 s c b k with
    | none => .error (12, 0)
    | some (es, extent) => do
      let w ← if es = [] then pure 0 else place305 s t l (axis295 b j 0 8) (16 * es.length) 0
      let at_ := o.1 + 8 + 20 * j
      pure ([(globBytes w (16 * es.length), es.flatMap (toBytes 16)), (globBytes (at_ + 8) 4, toBytes 4 extent),
        (globBytes (at_ + 16) 2, toBytes 2 es.length), (globBytes (at_ + 18) 1, toBytes 1 (gen305 b j))], o)

/-- The shoot-downs of an edit: one for every core of the node, and of every node of the object's user set (R306). -/
def shoots306 (s : State) (t : Team) (l : Launch) (c : Cmd) (key : Nat) : List Shoot :=
  let users := (((s.node? (key / 2 ^ 52)).bind (fun d => d.users.find? (fun u => u.1 == key))).map Prod.snd).getD []
  (s.cores.filter (fun k => k.node == t.node || users.contains k.node)).map (fun k =>
    ⟨k.node, k.die, k.num, .ctx t.node l.ccn, word221 c 0 % 2 ^ 16, axis305 c, false⟩)

/-- An AXEDIT starts; the object and the tables that it reaches exist. -/
abbrev EditPre (s : State) (q : StreamRef) (c : Cmd) (t : Team) (l : Launch) : Prop :=
  Starts s q c t l ∧ c.is 0x7B 1 = true ∧ ∀ x, object305 s t l c = .ok x → present (globBytes x.1 128) = true ∧
    let tbl (n : Nat) : Except (Nat × Nat) Nat := place305 s t l (axis295 x.2 (axis305 c) 0 8) n 0
    ∀ k, tbl (16 * axis295 x.2 (axis305 c) 16 2) = .ok k → present (globBytes k (16 * axis295 x.2 (axis305 c) 16 2)) = true ∧
      ∀ r, result305 s c x.2 k = some r → ∀ m, tbl (16 * r.1.length) = .ok m → present (globBytes m (16 * r.1.length)) = true

/-- The edit's changes stand, its shoot-downs are under way, and the command stands started with its status and its new GEN. -/
abbrev EditPost (s s' : State) (q : StreamRef) (c : Cmd) (t : Team) (l : Launch) : Prop :=
  match edit305 s t l c with
  | .error e => s' = { withCmd s q c { c with state := .started e.1 } with nodes := noticed226 s c t l e }
  | .ok (ws, key, b) =>
    s' = { s with waves := s'.waves, deliveries := s'.deliveries, mem := s'.mem, poison := s'.poison, teams := s'.teams
                  shoots := s.shoots ++ shoots306 s t l c key, streams := s'.streams } ∧
    BytesNow s s' (ws.foldl (fun m p => Bytes.put m p.1 p.2) s.peek) ∧
    (∀ a, s'.poison.contains a = (s.poison.contains a && !(ws.any (fun p => p.1.contains (.glob a))))) ∧
    s'.streams = (withCmd s q c { c with state := .started 0, progress := gen305 b (axis305 c) }).streams

/-! ### LAUNCH (R257, R267, R269) -/

/-- The context of a record's region: the nearest RCB of its chain with a segment table. -/
def ctx257 (s : State) (node : Nat) (r : LaunchRec) : Nat := ((s.rcbChain node r.rcb).find? (fun k => s.rcbWord node k 0x30 8 != 0)).getD 0

/-- Whether a record fails a LAUNCH with status DESC: its region is not of the issuing context's subtree, or a field is outside its limits
(R257, R269). -/
def bad257 (s : State) (t : Team) (l : Launch) (r : LaunchRec) : Bool :=
  let chain := s.rcbChain t.node r.rcb
  let hosted := (s.rcbWord t.node (s.rcbOwner t.node 3 chain) 12 4).testBit 17
  let gang := r.flags.testBit 2
  let die := r.flags / 2 ^ 8 % 16
  ctx257 s t.node r == 0 || !chain.any (sameAddr t.node l.region.ctxRcb) ||
  (r.ext.contains 0 || decide (2 ^ 40 < r.items)) || (!gang && r.gang != 0) || ((!gang || hosted) && r.sched != 0) ||
  (decide (96 < r.psize) || r.psize % 4 != 0) || (decide (3 < die) && decide (die < 15)) || r.flags / 2 ^ 3 % 32 != 0 ||
  r.flags / 2 ^ 12 % 2 ^ 20 != 0 || r.rest != 0 || r.doneAddr % 4 != 0

/-- The address of a LAUNCH's record. -/
def addr257 (c : Cmd) : Nat := word221 c 0 + 2 ^ 32 * word221 c 1

/-- What a LAUNCH writes and its status: NEXT of its record, TAIL, then HEAD or NEXT of the old tail (R257, R269). -/
def launch257 (s : State) (t : Team) (l : Launch) (c : Cmd) : List (List Loc × List Byte) × Nat × Nat :=
  let addr := addr257 c
  match reach226 s t l addr 128 .read with
  | .error e => ([], e)
  | .ok ls =>
    if poisoned s ls then ([], 6, 0)
    else
      let r := launchRecOf (ls.map s.peek)
      let ctx := ctx257 s t.node r
      let lq := s.rcbWord t.node ctx 0x38 8
      if bad257 s t l r then ([], 7, 0)
      else match (if r.next = 0 then .ok [] else (reach226 s t l addr 8 .write).map (fun m => [(m, toBytes 8 0)])) with
        | .error e => ([], e)
        | .ok w0 =>
          let u := { t with segs := s.segTable t.node (s.rcbWord t.node ctx 0x30 8) }
          match reach226 s u l ((lq + 8) % 2 ^ 64) 8 .rmw with
          | .error e => (w0, e)
          | .ok tail =>
            let old := Bytes.num s.peek tail
            match reach226 s u l (if old = 0 then lq else old) 8 .write with
            | .error e => (w0, e)
            | .ok m => (w0 ++ [(tail, toBytes 8 addr), (m, toBytes 8 addr)], 0, 0)

/-- A LAUNCH starts; the bytes that it reads and writes exist, and its record lies apart from the segment table, the RCB and the queue of the
context that it names. -/
abbrev LaunchPre (s : State) (q : StreamRef) (c : Cmd) (t : Team) (l : Launch) : Prop :=
  Starts s q c t l ∧ c.is 0x7B 3 = true ∧ (∀ p ∈ (launch257 s t l c).1, present p.1 = true) ∧
  ∀ ls, reach226 s t l (addr257 c) 128 .read = .ok ls → present ls = true ∧
    let r := launchRecOf (ls.map s.peek)
    let ctx := ctx257 s t.node r
    let apart (k n : Nat) : Bool := (globBytes (physKey t.node (k % 2 ^ 52)) n).all (fun o => !ls.contains o)
    r.next = 0 ∨ (apart ctx 128 = true ∧ apart (s.rcbWord t.node ctx 0x30 8) 272 = true ∧
      ∀ m, reach226 s { t with segs := s.segTable t.node (s.rcbWord t.node ctx 0x30 8) } l ((s.rcbWord t.node ctx 0x38 8 + 8) % 2 ^ 64) 8 .rmw = .ok m →
        ∀ o ∈ m, o ∉ ls)

/-- The writes of a LAUNCH stand, and the command stands started with its status. -/
abbrev LaunchPost (s s' : State) (q : StreamRef) (c : Cmd) (t : Team) (l : Launch) : Prop :=
  let r := launch257 s t l c
  s' = { s with waves := s'.waves, deliveries := s'.deliveries, mem := s'.mem, poison := s'.poison, teams := s'.teams
                nodes := noticed226 s c t l r.2, streams := s'.streams } ∧
  BytesNow s s' (r.1.foldl (fun m p => Bytes.put m p.1 p.2) s.peek) ∧
  (∀ a, s'.poison.contains a = (s.poison.contains a && !(r.1.any (fun p => p.1.contains (.glob a))))) ∧
  s'.streams = (withCmd s q c { c with state := .started r.2.1 }).streams

/-! ### DISP (R254, R365 to R369) -/

/-- How many tokens at the front of a queue one packet takes: those like the first, of four flits together (R367). -/
def front367 (ts : List Token) : Nat :=
  ((List.range (ts.length + 1)).filter (fun n => (ts.take n).all (fun t => (ts.headD ⟨0, 0, false, 0, [], false, 0, 0, 0, 0, 0⟩).shares t) &&
    decide (((ts.take n).map (fun t => (t.payload.length + 63) / 64)).sum ≤ 4))).foldl max 0

/-- Whether a queue sends at once: its first packet is full, or another token stands behind it (R367). -/
def full367 (ts : List Token) : Bool :=
  decide (front367 ts < ts.length) || decide (4 ≤ ((ts.take (front367 ts)).map (fun t => (t.payload.length + 63) / 64)).sum)

/-- The packets of the front of a queue, and the number of tokens that they take. -/
def sent367 (s : State) (node : Nat) (q : SendQ) : List Packet × Nat :=
  match q.tokens with
  | [] => ([], 0)
  | t :: _ => if 256 < t.payload.length then (pieces367 s node q t, 1) else ([packet367 s node q (front367 q.tokens)], front367 q.tokens)

/-- A queue sends until nothing is full. -/
def drained367 (node : Nat) : Nat → State → SendQ → State × SendQ
  | 0, s, q => (s, q)
  | n + 1, s, q =>
    if q.tokens = [] ∨ q.blocked = true ∨ full367 q.tokens = false then (s, q)
    else
      let r := sent367 s node q
      drained367 node n { s with packets := s.packets ++ r.1, nextNum := s.nextNum + r.1.length } { q with tokens := q.tokens.drop r.2 }

/-- A token enters the queue of its destination, which sends what is full (R367). -/
def handed367 (s : State) (d : Node) (die dst : Nat) (t : Token) : State :=
  let q := d.sendq die dst
  let r := drained367 d.num (q.tokens.length + 1) s { q with tokens := q.tokens ++ [t], since := s.time }
  { r.1 with nodes := withNode s d.num (fun e => e.setSendq r.2) }

/-- The routing entry of a lane's expert, or the status that it ends the command with (R254, R365, R366). -/
def entry366 (s : State) (t : Team) (l : Launch) (c : Cmd) (d : Node) (lane : Nat) : Except (Nat × Nat) Nat :=
  let table := word221 c 0 % 2 ^ 4
  let expert := (c.b0.getD lane 0).toNat
  let checked (e : Nat) : Except (Nat × Nat) Nat :=
    if e.testBit 63 = false then .error (8, 0) else if e / 2 ^ 44 % 2 ^ 7 ≠ 0 ∨ e / 2 ^ 55 % 2 ^ 8 = 255 then .error (7, 0) else .ok e
  match d.routes.find? (fun r => r.die == t.die && r.ccn == l.ccn && r.table == table) with
  | none => .error (8, 0)
  | some r =>
    if r.count ≤ expert then .error (8, 0)
    else if l.region.modes.testBit 18 then
      match d.hostRoutes.find? (fun w => w.die == t.die && w.ccn == l.ccn && w.table == table && w.expert == expert) with
      | none => .error (8, 0)
      | some w => checked w.w.toNat
    else match reach226 s t l ((r.addr + 8 * expert) % 2 ^ 64) 8 .read with
      | .error e => .error e
      | .ok ls => if poisoned s ls then .error (6, 0) else checked (Bytes.num s.peek ls)

/-- A lane's token and its destination (R254, R366). -/
def token254 (s : State) (t : Team) (l : Launch) (c : Cmd) (d : Node) (lane : Nat) : Except (Nat × Nat) (Nat × Token) := do
  let e ← entry366 s t l c d lane
  let bytes ← read226 s t (c.b1.getD lane 0).toNat (word221 c 1)
  pure (e / 2 ^ 55 % 2 ^ 8,
    { ring := BitVec.ofNat 64 (2 ^ 56 * (e / 2 ^ 55 % 2 ^ 8) + 2 ^ 52 * (e / 2 ^ 51 % 2 ^ 4) + 2 ^ 8 * (e % 2 ^ 44)), ccn := l.ccn, world := t.world,
      gen := gen369 c, payload := bytes, more := false, srcNode := t.node, srcRcb := l.region.rcb, srcFdom := l.region.fdom, seq := c.seq
      wref := (engine223 s c t l).where_ })

/-- A DISP as it goes: the state, its tokens handed over, its status. -/
structure Dealing where
  s : State
  count : Nat
  st : Nat × Nat

/-- The tokens of the active lanes in ascending order, to the first that fails (R254). -/
def tokens254 (s : State) (t : Team) (l : Launch) (c : Cmd) (d : Node) (s1 : State) : Dealing :=
  (maskLanes c.mask).foldl (fun (g : Dealing) lane =>
    if g.st.1 ≠ 0 then g
    else match token254 s t l c d lane, g.s.node? t.node with
      | .ok (dst, k), some e => ⟨handed367 g.s e t.die dst k, g.count + 1, (0, 0)⟩
      | .error e, _ => { g with st := e }
      | _, none => g) ⟨s1, 0, (0, 0)⟩

/-- The distance of a DISP's generation from CUR (R369). -/
def delta369 (s : State) (t : Team) (l : Launch) (c : Cmd) : Int := genDelta (gener369 s t l).cur (gen369 c)

/-- A DISP starts that waits for no retirement; the routing entries that it reads exist. -/
abbrev DispPre (s : State) (q : StreamRef) (c : Cmd) (t : Team) (l : Launch) (d : Node) : Prop :=
  Starts s q c t l ∧ c.is 0x7B 0 = true ∧ (engine223 s c t l).dispWaits = false ∧ s.node? t.node = some d ∧
  ∀ i ∈ maskLanes c.mask, ∀ r ∈ d.routes, ∀ ls, reach226 s t l ((r.addr + 8 * (c.b0.getD i 0).toNat) % 2 ^ 64) 8 .read = .ok ls → present ls = true

/-- Of a generation older than the window, INDEX; else CUR has moved on to a newer one, the tokens have been handed over, and the command
stands started with its status. -/
abbrev DispPost (s s' : State) (q : StreamRef) (c : Cmd) (t : Team) (l : Launch) (d : Node) : Prop :=
  if delta369 s t l c ≤ -16 then s' = withCmd s q c { c with state := .started 8 }
  else
    let s1 := if 0 < delta369 s t l c then { s with nodes := withNode s t.node (fun e => e.setGener (moved369 (gener369 s t l) (gen369 c) s.time)) } else s
    let g := tokens254 s t l c d s1
    s' = { withCmd g.s q c { c with state := .started g.st.1, progress := c.progress + g.count } with nodes := noticed226 g.s c t l g.st }

end Sys2Proof.Claims


open Sys2Proof Sys2Proof.Machine Sys2Proof.Safety Sys2Proof.Claims

/-- R115, R117 to R120 (with R20, R21, R24, R109 to R112): IADD, ISUB, IMUL, IMULH, IMAD, IMIN, IMAX, IABS, INEG, AND, OR, XOR,
ANDN, SHL, SHR, SAR, ROL, POPC, CLZ, BREV, BFX, BFI, LEA and BPICK write each acting lane's result, computed from that
lane's operands whatever their forms, and change nothing else but the program counters, windows and scheduler's notes. R13, R15, R37,
R111, R331, R340, R373: items whose register-array index is out of bounds or odd, or whose source lane is marked, take their trap while
the others complete, and an operand outside the window or the quota traps every acting item. -/
def Obligations.IntegerLanesCompute : Prop := ∀ i r, intRule i = some r → r.Computes i ∧ r.Traps i ∧ r.Overflows i

/-- R116: IADDC and ISUBB write x + y + carry or x − y − carry with p7 as carry, and then set p7 of each acting item to the
carry or borrow out, whatever the type's signedness and `.sat`; p7 of the others and every other predicate stay. -/
def Obligations.CarryThroughP7 : Prop := ∀ i x ty sat sub, carryRule i = some (x, ty, sat, sub) →
  ∀ s w t l, CarryPre x i s w t l → ∃ s' w', exec i s = .next s' ∧ CarryPost x ty sat sub i s s' w w'

/-- R121, R122, R124, R125, R127: FADD, FSUB, FMUL, FFMA, FMIN, FMAX, FCLASS, FCPYS, HADD2, HMUL2, HFMA2, HMAX2, CVT and FRND
write each acting lane's result and change nothing else but the program counters, windows and scheduler's notes. R13, R15, R37, R331,
R340, R373: items that trap at their operands take their trap while the others complete, and an operand outside the window or the quota
traps every acting item. -/
def Obligations.FloatLanesCompute : Prop := ∀ i r, floatRule i = some r → r.Computes i ∧ r.Traps i ∧ r.Overflows i

/-- R126 (with R51 and R52): CVTQ writes its layout to every lane of each 16-lane group that holds an acting item, inactive
lanes of such a group contributing +0, and leaves other groups and registers as they were. -/
def Obligations.CvtqQuantisesGroups : Prop := ∀ x e s r d a k, ∀ st w t l,
  PredPre x (.cvtq x e s r d a k) st w t l →
    ∃ st' w', exec (.cvtq x e s r d a k) st = .next st' ∧ CvtqPost x e r k.toNat (.cvtq x e s r d a k) st st' w w'

/-- R131 to R135, R154, R159, R194, R260, R265: SEL, MOV, MOVK, LDI, LDI.HI, PMOV.GET, FORM, UNIF, IDX, CSRR, TXSTAT and TIME
write each acting lane the value that their rules name, and change nothing else but the bookkeeping of an issue. -/
def Obligations.MovesAndReadsWriteTheirValue : Prop := ∀ i r, readRule i = some r →
  ∀ s w t l, r.Pre i s w t l → ∃ s' w', exec i s = .next s' ∧ r.Post i s s' w w' t l

/-- R128, R129, R131 (with R24): ICMP and FCMP write predicate p[d] of each acting item, a write to p0 being discarded; PMOV.SET writes p1
to p7 of each acting item from bits 1 to 7 of its lane of a; no register and no other predicate changes. -/
def Obligations.ComparisonsAndPmovWritePredicates : Prop :=
  (∀ i x q, predRule i = some (x, q) →
    ∀ s w t l, PredPre x i s w t l → ∃ s' w', exec i s = .next s' ∧ PredPost x i s s' w w' (q s w)) ∧
  (∀ x a s w t l, PredPre x (.pmovSet x a) s w t l →
    ∃ s' w', exec (.pmovSet x a) s = .next s' ∧ PmovSetPost x (.pmovSet x a) s s' w w')

/-- R68, R69, R123, R137 to R140, R142, R143, R145, R146: FRCP, FRSQ, FSQRT, FEXP2, FLOG2, FSIN, FCOS, FTANH, SHFL, SHFLX, VOTE,
wave-scope REDUX, SCAN, RBAL, MRG and SORTK issue without changing a register (a register-array destination apart), leave one
unfinished instruction with their lookahead as its window, and its completion writes each lane's result. R158: so does WORK, which
gives its team's even share of T × I iterations: start, end, the HEAD and TAIL flags and the first tile. R145, R330, R331: MRG under `.tord` whose stream ends at an active lane raises the
MRG-order trap for every acting item, and RBAL and WORK whose operands are not uniform, or whose T × I is too large, an illegal operand;
no register and no bit of SSTAT changes. -/
def Obligations.LxResultsLandAtCompletion : Prop := (∀ i r, lxRule i = some r → ∀ s w t l, r.Pre i s w t l →
    ∃ s1 s2 w1 w2, exec i s = .next s1 ∧ exec (.lxComplete w.ref s.nextNum) s1 = .next s2 ∧ r.Post i s s1 s2 w w1 w2) ∧
  (∀ x la d a b s w t l, WorkPre x (.work x la d a b) s w t l →
    ∃ s1 s2 w1 w2, exec (.work x la d a b) s = .next s1 ∧ exec (.lxComplete w.ref s.nextNum) s1 = .next s2 ∧
      WorkPost x (.work x la d a b) s s1 s2 w w1 w2 l) ∧
  ∀ i, (match i with
    | .mrg _ _ _ _ _ => true
    | .rbal _ _ _ _ _ => true
    | .work _ _ _ _ _ => true
    | _ => false) = true → ValueTraps i

/-- R28, R29, R149 to R152, R155, R183, R191, R200, R206: NOP, JOIN (of the lowest group), FENCE and WAITF (once their conditions
hold) only go on; YIELD, WBASE, EXIT (while items remain), CSRW of SSTAT and BND, TXBEGIN, ORELSE and OREND also change
the part of the wave that their rules name; no register, no predicate and no byte changes. R151, R271, R286, R287: EXIT of a wave's
last items ends the wave, whose rows go to the waves of its team; the last wave retires its team once nothing of it is outstanding;
and the last team completes its launch, which writes STATE 2 and DONEVAL, or a KIND 9 record where DONEADDR fails its check. R28, R29,
R261: CSRW of SSTAT and BND with a source that is not uniform, or bounds out of order, raises an illegal operand for every acting item. -/
def Obligations.WaveStateInstructions : Prop :=
  (∀ i r, waveRule i = some r → ∀ s w t l, r.Pre i s w t l → ∃ s' w', exec i s = .next s' ∧ r.Post s s' w w') ∧
  (∀ x s w t l, EndPre x s w t l → ¬ LastWave s w → ∃ s', exec (.exit x) s = .next s' ∧ EndPost s s' w t) ∧
  (∀ x s w t l, EndPre x s w t l → LastWave s w → Settled s t → (∃ u ∈ s.teams, u.ref ≠ t.ref ∧ u.ref.launch = l.num) →
    ∃ s', exec (.exit x) s = .next s' ∧ RetirePost s s' w t) ∧
  (∀ x a, ValueTraps (.csrwSstat x a) ∧ ValueTraps (.csrwBnd x a)) ∧
  ∀ x s w t l state, EndPre x s w t l → LastWave s w → Settled s t → (∀ u ∈ s.teams, u.ref.launch = l.num → u.ref = t.ref) →
    l.running = true → l.subs = [] → stateKey s l = .ok state → state % 2 ^ 52 + 4 ≤ physBytes →
    (∀ done, valueKey s l state = .ok done → done % 2 ^ 52 + 4 ≤ physBytes →
      ∃ s', exec (.exit x) s = .next s' ∧ CompletePost s s' w t l state done) ∧
    ∀ c d r, l.doneAddr ≠ 0 → valueKey s l state = .error (c, d, r) → c ≠ 7 →
      ∃ s', exec (.exit x) s = .next s' ∧ CompleteFails s s' w t l state c d

/-- R154, R156, R157: MATL gives a vector or index register the form M whatever the mask, and changes no lane's value; WQUOTA whose checks
pass moves g registers of quota from the giver to the target, whose new registers read 0; the first check that fails raises its trap for
every acting item, an illegal operand or a WQUOTA violation with the DETAIL of R156, and nothing changes (R331). -/
def Obligations.MatlAndWquotaManageRegisters : Prop :=
  (∀ x a s w t l, PredPre x (.matl x a) s w t l →
    ∃ s' w', exec (.matl x a) s = .next s' ∧ MatlPost x a s s' w w') ∧
  (∀ x a b s w v t l g, QuotaPre x (.wquota x a b) s w v t l g →
    ∃ s' w' v', exec (.wquota x a b) s = .next s' ∧ QuotaPost x s s' w w' v v' g) ∧
  ∀ x a b, ValueTraps (.wquota x a b)

/-- R65, R147, R148: BRA, CALL, BRX and RET send each acting item that takes them to its target and the others on; CALL alone writes
a register, pc + 4 to x3 of each taken item. -/
def Obligations.TransfersMoveItems : Prop := ∀ i x take target link, jumpRule i = some (x, take, target, link) →
  ∀ s w t l, JumpPre x take target i s w t l → ∃ s' w', exec i s = .next s' ∧ JumpPost x take target link s s' w w'

/-- R264, R374, R376, R377, R380, R383: each secure service answers with the status and results of R376 and makes the change of its
rule: REGION_SET the world of a region (zeroed when it becomes non-secure), SFDOM_SET the secure fault domain, EXTEND a
measurement slot; what RANDOM and POWER_READ return is free (log 3). That the answer stands in the step of the call, and that a refused call publishes no
record, is log 48. -/
def Obligations.SecureServicesAnswer : Prop := ∀ i x a f, serviceRule i = some (x, a, f) → ∀ s w t l,
  ServicePre x (reply a f s w t l).2 i s w t l →
    ∃ s' w', exec i s = .next s' ∧ ServicePost x a (reply a f s w t l).1 (reply a f s w t l).2 s s' w w' t

/-- R109, R161 to R163, R166, R168, R169, R340: LDG, LDU, LDS, LDC and LDA issue without a change to any byte, and their completion gives
each acting lane the value at its address, extended for its type, poisoned where a byte was; LDU of another node to a k-register is made
at once (log 14). R357, R359: lanes whose address names another node send a request each, or one for a shared address, and the entry
waits for their answers. R185, R186, R188, R189: inside a transaction the lines read join its read set, its own writes show, younger
transactions that wrote them abort, and an older one, or a set that is full, aborts the load's own. R33, R34, R37, R163, R294, R331: items
whose checks fail take their trap, and the others complete. -/
def Obligations.LoadsReadTheirBytes : Prop := ∀ i x sp, loadSpace i = some (x, sp) → ∀ s w t l,
  (LoadPre x sp i s w t l →
    ∃ s1 s2 w1 w2, exec i s = .next s1 ∧ exec (.lxComplete w.ref s.nextNum) s1 = .next s2 ∧ LoadPost x sp i s s1 s2 w w1 w2 t l) ∧
  (sp = .global → LoadStart x sp i s w t l → once166 (wordOf i) = false →
    AwayPre s w t l (w.active x) .read (bytes162 (exTy x)) (addr161 s x (wordOf i) w sp) →
      ∃ s1 w1, exec i s = .next s1 ∧
        LoadSent x i s s1 w w1 t l (shared162 s x (wordOf i) w sp) (addr161 s x (wordOf i) w sp)) ∧
  (∀ tx, TxLoadPre x sp i s w t l tx →
    let new := lines185 x sp i s w t l tx false
    let fits := admitted185 s w tx false new
    (fits = true → elder188 s w false new = false →
      ∃ s1 s2 w1 w2, exec i s = .next s1 ∧ exec (.lxComplete w.ref s.nextNum) s1 = .next s2 ∧ TxLoadPost x sp i s s1 s2 w w1 w2 t l tx) ∧
    (fits = true → elder188 s w false new = true → ∃ s' w', exec i s = .next s' ∧ SelfAborted s s' w w' tx 1) ∧
    (fits = false → s.waves.any (hits188 w false new) = false → ∃ s' w', exec i s = .next s' ∧ SelfAborted s s' w w' tx 2)) ∧
  (LoadStart x sp i s w t l → AccessTraps s w t l (w.active x) sp .read false (bytes162 (exTy x)) (addr161 s x (wordOf i) w sp) →
    homeWindows s = true → ∃ s1 w1 s' w', exec i s = .next s' ∧ LoadTrapped x sp i s s1 s' w w1 w' t l)

/-- R161 to R163, R166, R169, R188, R195, R340 (with the model's lane order, log 7, and its stores at issue, log 14): STG, STS, STC and STA
write the low bytes of each acting lane's data at its address, and no other byte changes; a lane whose address names another node sends
a request (R357, R359). R185 to R189: inside a transaction the lines join its write set and no byte changes until it commits; R33, R34,
R37, R331: items whose checks fail, among them stores into the sync region, take their trap, and the others complete. -/
def Obligations.StoresWriteTheirBytes : Prop := ∀ i x sp, storeSpace i = some (x, sp) → ∀ s w t l,
  (StorePre x sp i s w t l → ∃ s' w', exec i s = .next s' ∧ StorePost x sp i s s' w w' t l) ∧
  (∀ tx, TxStorePre x sp i s w t l tx →
    let new := lines185 x sp i s w t l tx true
    let fits := admitted185 s w tx true new
    (fits = true → elder188 s w true new = false → ∃ s' w' tx', exec i s = .next s' ∧ TxStorePost x sp i s s' w w' t l tx tx') ∧
    (fits = true → elder188 s w true new = true → ∃ s' w', exec i s = .next s' ∧ SelfAborted s s' w w' tx 1) ∧
    (fits = false → s.waves.any (hits188 w true new) = false → ∃ s' w', exec i s = .next s' ∧ SelfAborted s s' w w' tx 2)) ∧
  (StoreStart x i s w t l → AccessTraps s w t l (w.active x) sp .write true (bytes162 (exTy x)) (addr161 s x (wordOf i) w sp) →
    ∃ s1 w1 s' w', exec i s = .next s' ∧ StoreTrapped x sp i s s1 s' w w1 w' t l)

/-- R167 (with R299 to R303, R357, R359, and logs 7 and 14): LDT reads, and STT writes, each acting lane's element at the address that the
object's axes map its indices to, where the caches hold every translation; no other byte changes, and an element of another node is asked
for by a request. R299 to R301: where the caches hold every translation, an element lies at the address that its object's axes map it to, or its
trap is that of the first axis that faults. R163, R301, R331: items whose index is absent, whose entry is read-only for STT, or whose element fails its checks take
their trap, and the others complete. -/
def Obligations.TensorElementsAreReadAndWritten : Prop :=
  (∀ x la d a b s w t l,
    (TensorPre x false (.ldt x la d a b) s w t l →
      ∃ s1 s2 w1 w2, exec (.ldt x la d a b) s = .next s1 ∧ exec (.lxComplete w.ref s.nextNum) s1 = .next s2 ∧
        LdtPost x (.ldt x la d a b) s s1 s2 w w1 w2 t l) ∧
    (LdtAwayPre x (.ldt x la d a b) s w t l → ∃ s1 w1, exec (.ldt x la d a b) s = .next s1 ∧
      LoadSent x (.ldt x la d a b) s s1 w w1 t l (sharedIndex s x (wordOf (.ldt x la d a b)) w t l)
        (elementAt s x (wordOf (.ldt x la d a b)) w t l false)) ∧
    (TensorTraps x false (.ldt x la d a b) s w t l →
      ∃ s1 w1 s' w', exec (.ldt x la d a b) s = .next s' ∧ LdtTrapped x (.ldt x la d a b) s s1 s' w w1 w' t l)) ∧
  (∀ x la d a b s w t l,
    (TensorPre x true (.stt x la d a b) s w t l → ∃ s' w', exec (.stt x la d a b) s = .next s' ∧
      Stores x (.stt x la d a b) s s' w w' t l (elementAt s x (wordOf (.stt x la d a b)) w t l true)) ∧
    (TensorTraps x true (.stt x la d a b) s w t l →
      ∃ s1 w1 s' w', exec (.stt x la d a b) s = .next s' ∧ SttTrapped x (.stt x la d a b) s s1 s' w w1 w' t l)) ∧
  ∀ s t l h b idx write, Translates s t l h b → ((xlatOf t l).element s h idx write).2 = element301 s t l h b idx write

/-- R170, R171, R173 (acting whole at issue, log 14): PREF has no effect that a program can see: nothing changes but the bookkeeping of its issue, and no entry is left; STW
with legal operands opens its window and changes no byte; STWB frees a live window, and its range becomes ordinary scratchpad
with the bytes that the window showed. -/
def Obligations.PrefetchAndStashWindows : Prop :=
  (∀ x la a b s w t l, AtOncePre x (.pref x la a b) s w t l →
    ∃ s' w', exec (.pref x la a b) s = .next s' ∧ LxIssued s s' x (wordOf (.pref x la a b)) w w' w.ord ∧
      w'.pend = w.pend.map (counted w.exec)) ∧
  (∀ x la d a b s w t l, StwPre x (.stw x la d a b) s w t l →
    ∃ s' w', exec (.stw x la d a b) s = .next s' ∧ StwPost x (.stw x la d a b) s s' w w' t) ∧
  (∀ x la d s w t l v, StwbPre x (.stwb x la d) s w t l v →
    ∃ s' w', exec (.stwb x la d) s = .next s' ∧ StwbPost x (.stwb x la d) s s' w w' t v)

/-- R144, R175 to R178 (updates stand at issue, log 11; REDG leaves no entry, log 14): ATOMG, ATOMS, ATOMC and REDG update memory by the
table of R175, the items of one address in ascending lane order and `.sadd` once for each address, and each lane receives the value that
its update met; lanes whose address names another node send a request each (R357, R359). BIN adds to each bin the number of acting lanes
that hold its key and gives each lane its place in its bin, in a transaction for that alone (R187). No other byte changes. R37, R163, R331,
R340: items that are not aligned, whose checks fail or whose word is poisoned take their trap, and the others complete. -/
def Obligations.AtomicsAndBinUpdateMemory : Prop :=
  (∀ i x sp ret, atomRule i = some (x, sp, ret) → ∀ s w t l,
    (AtomPre x sp i s w t l →
      ∃ s1 s2 w1 w2, exec i s = .next s1 ∧ exec (.lxComplete w.ref s.nextNum) s1 = .next s2 ∧ AtomPost x sp ret i s s1 s2 w w1 w2 t l) ∧
    (sp = .global → AtomAwayPre x i s w t l → ∃ s1 w1, exec i s = .next s1 ∧ AtomSent x ret i s s1 w w1 t l) ∧
    (AtomTraps x sp i s w t l → ∃ s1 w1 s' w', exec i s = .next s' ∧ AtomTrapped x sp i s s1 s' w w1 w' t l)) ∧
  ∀ x la d a b s w t l,
    let i : Instr := .bin x la d a b
    let kb := operand s x (wordOf i) w .b 2 64 0
    (BinPre x i s w t l →
      ∃ s1 s2 w1 w2, exec i s = .next s1 ∧ exec (.lxComplete w.ref s.nextNum) s1 = .next s2 ∧ BinPost x i s s1 s2 w w1 w2 t l) ∧
    (∀ tx, TxBinPre x i s w t l tx → ∃ s1 s2 w1 w2 tx', exec i s = .next s1 ∧ exec (.lxComplete w.ref s.nextNum) s1 = .next s2 ∧
      TxBinPost x i s s1 s2 w w1 w2 t l tx tx') ∧
    (BinTraps x i s w t l → ∃ s1 w1 s' w', exec i s = .next s' ∧ BinTrapped x i s s1 s' w w1 w' t l) ∧
    (BinStart x i s w t l → l.kernel.scr < kb % 2 ^ 32 + 4 * (kb >>> 32) → Takeable s w t l 4 → ∃ s' w', exec i s = .next s' ∧
      TrapTaken (allTrap331 w (w.active x) 4 0 (fun _ => kb % 2 ^ 32)) s s' w w' t l (aborted189 w w.pcOf))

/-- R141 (the partials held at issue, log 11): REDUX at team scope gives the wave's result and joins its round; when no wave is awaited, the
record's two words are written. R187: inside a transaction the contribution is held, to join when it commits. -/
def Obligations.TeamReductionsJoinTheirRound : Prop := ∀ x la d a b s w t l, RoundPre x (.redux x la d a b) s w t l →
  (w.tx = none → ∃ s1 s2 w1 w2, exec (.redux x la d a b) s = .next s1 ∧ exec (.lxComplete w.ref s.nextNum) s1 = .next s2 ∧
    RoundPost x (.redux x la d a b) s s1 s2 w w1 w2 t) ∧
  ∀ tx, w.tx = some tx → tx.redux = [] → ∃ s1 s2 w1 w2, exec (.redux x la d a b) s = .next s1 ∧
    exec (.lxComplete w.ref s.nextNum) s1 = .next s2 ∧ RoundHeld x (.redux x la d a b) s s1 s2 w w1 w2 tx

/-- R180, R198, R199 (with R340 for the lanes' marks): ACQ reads SEQ of its sync object into d; REL, whose wave has nothing under way,
increments it and gives the new SEQ; BIND writes BASE, LEN, SPACE and SCOPE and leaves SEQ; RGDEF defines an empty ring. -/
def Obligations.SyncObjectsAndRingsAreBoundAndRead : Prop :=
  ((∀ x d a s w t l k, SeqPre x false (.acq x d a) s w t l k →
      ∃ s' w', exec (.acq x d a) s = .next s' ∧ SeqPost x false (.acq x d a) s s' w w' k) ∧
    (∀ x d a s w t l k, SeqPre x true (.rel x d a) s w t l k →
      ∃ s' w', exec (.rel x d a) s = .next s' ∧ SeqPost x true (.rel x d a) s s' w w' k)) ∧
  ((∀ x a b s w t l k, BindPre x (.bind x a b) s w t l k → ∃ s' w', exec (.bind x a b) s = .next s' ∧ BindPost x (.bind x a b) s s' w w' k) ∧
    (∀ x a b s w t l k st, RgdefPre x (.rgdef x a b) s w t l k st →
      ∃ s' w', exec (.rgdef x a b) s = .next s' ∧ RgdefPost x (.rgdef x a b) s s' w w' k st))

/-- R35, R202, R203 (the masks of an object never initialised are 0, log 19): BARINIT starts a barrier object afresh, and ARRIVE
counts the wave and completes the phase when enough waves have arrived or ended. -/
def Obligations.BarriersCountArrivals : Prop := (∀ x a b s w t l, BarinitPre x (.barinit x a b) s w t l →
    ∃ s' w', exec (.barinit x a b) s = .next s' ∧ BarinitPost x (.barinit x a b) s s' w w' t) ∧
  (∀ x d a s w t l, ArrivePre x (.arrive x d a) s w t l →
    ∃ s' w', exec (.arrive x d a) s = .next s' ∧ ArrivePost x (.arrive x d a) s s' w w' t)

/-- R181 (the codes of slot states are the model's, log 20; updates stand at issue, log 11): RGRSV, RGPUB, RGTAKE and RGFREE act for each
lane in ascending order by the table of R181, and nothing but the rings' bytes changes; lanes that name rings of another node send a
request each (R357, R359; log 14). R163, R340: lanes whose descriptor is not aligned, cannot be reached, has NLOG 0 or is poisoned trap. -/
def Obligations.RingsFollowTheirTable : Prop := ∀ i x op, ringRule i = some (x, op) → ∀ s w t l,
  (∀ ring, RingPre x i s w t l ring →
    ∃ s1 s2 w1 w2, exec i s = .next s1 ∧ exec (.lxComplete w.ref s.nextNum) s1 = .next s2 ∧ RingPost x op i s s1 s2 w w1 w2 ring) ∧
  (RingAwayPre x i s w t l → ∃ s1 w1, exec i s = .next s1 ∧ RingSent x op i s s1 w w1 t l) ∧
  (RingTraps x i s w t l → ∃ s1 w1 s' w', exec i s = .next s' ∧ RingTrapped x i s s1 s' w w1 w' t l)

/-- R211 to R213: RKINIT empties and unbinds a list, RKTHR binds a slot or frees it, and PTHR compares keys with the threshold. -/
def Obligations.ListsAreInitialisedAndBound : Prop := (∀ x a b s w t l, RkinitPre x (.rkinit x a b) s w t l →
    ∃ s' w', exec (.rkinit x a b) s = .next s' ∧ RkinitPost x (.rkinit x a b) s s' w w' t) ∧
  (∀ x a sl s w t l, RkthrPre x (.rkthr x a sl) s w t l →
    ∃ s' w', exec (.rkthr x a sl) s = .next s' ∧ RkthrPost x (.rkthr x a sl) s s' w w' t) ∧
  (∀ x d a sl s w t l, WavePre x (.pthr x d a sl) s w t l →
    ∃ s' w', exec (.pthr x d a sl) s = .next s' ∧ PthrPost x (.pthr x d a sl) s s' w w' t)

/-- R209, R214 to R216 (that the list stands at issue is log 11): RKPUSH and RKMERGE leave the K best of the pairs in rank order, and RKREAD reads a rank. -/
def Obligations.ListsKeepTheBest : Prop := (∀ x la d a b s w t l, RkpushPre x (.rkpush x la d a b) s w t l →
    ∃ s' w', exec (.rkpush x la d a b) s = .next s' ∧ RkpushPost x (.rkpush x la d a b) s s' w w' t) ∧
  (∀ x a b s w t l u, RkmergePre x (.rkmerge x a b) s w t l u →
    ∃ s' w', exec (.rkmerge x a b) s = .next s' ∧ RkmergePost x (.rkmerge x a b) s s' w w' t u) ∧
  (∀ x d a b s w t l, RkreadPre x (.rkread x d a b) s w t l →
    ∃ s' w', exec (.rkread x d a b) s = .next s' ∧ RkreadPost x (.rkread x d a b) s s' w w' t)

/-- R187, R189, R190, R192, R194, R334: TXEND closes the innermost level or commits, its held contribution joining its round; RETRY goes to
an alternative or sleeps, and TXABORT aborts. An open transaction has depth at least 1 (that every step keeps this is a statement of its
own). -/
def Obligations.TransactionsEnd : Prop :=
  (∀ x s w t l tx, TxendPre x (.txend x) s w t l tx →
    (2 ≤ tx.depth → ∃ s' w', exec (.txend x) s = .next s' ∧ InnerEnded x s s' w w' tx) ∧
    (tx.depth = 1 → tx.redux = [] → ∃ s' w', exec (.txend x) s = .next s' ∧ Committed x s s' w w' tx) ∧
    ∀ c, tx.depth = 1 → tx.redux = [c] → HeldRound s w t l c →
      ∃ s' w', exec (.txend x) s = .next s' ∧ CommittedRound x s s' w w' t tx c) ∧
  (∀ x s w t l tx, LeavePre x (.retry x) s w t l tx → (tx.alts ≠ [] ∨ tx.rlines ≠ []) →
    ∃ s' w', exec (.retry x) s = .next s' ∧ RetryPost s s' w w' tx) ∧
  (∀ x s w t l tx, LeavePre x (.txabort x) s w t l tx →
    ∃ s' w', exec (.txabort x) s = .next s' ∧ TxabortPost s s' w w' tx)

/-- R74 to R77, R207, R217 to R222, R225, R229: COPY, COPYX, GATH, SCATX, MMA, MMAB, MMAS, ATTN, ATTNFIN, FOLD, DISP, AXEDIT, AXSYNC and LAUNCH
append their command to their stream, with its operands as they stand at issue; QFENCE places one join in each named stream. -/
def Obligations.CommandsAndJoinsJoinTheirStream : Prop :=
  (∀ i x, engineRule i = some x → ∀ s w t l, CommandPre x i s w t l →
    ∃ s' w', exec i s = .next s' ∧ CommandPost x i s s' w w' t l) ∧
  (∀ x d n s w t l, QfencePre x (.qfence x d n) s w t l →
    ∃ s' w', exec (.qfence x d n) s = .next s' ∧ QfencePost x (.qfence x d n) s s' w w' t l)

/-- R37, R63, R86 to R88, R186, R331 to R338, R384, R385 (with log 4 for the number that SAVE holds): an illegal word, and an instruction
whose word fails a check, takes that check's trap for its whole group, without effect; an instruction that a transaction does not allow
aborts it with cause MISUSE and takes the transaction-misuse trap; CSRW of a register that cannot be written and words with reserved
operand values always fail a check. -/
def Obligations.WordChecksTrap : Prop :=
  (∀ i c d, illegal88 i = some (c, d) → ∀ s w t l, AtIssue s w t l → Takeable s w t l c →
    ∃ s' w', exec i s = .next s' ∧ TrapTaken (wordTrap87 w c d 9) s s' w w' t l (aborted189 w w.pcOf)) ∧
  ((∀ i c d, issues87 i = true → ∀ s w t l, AtIssue s w t l → lives87 w i = true → waveCheck w (exAt i) (wordOf i) = some (c, d) →
      Takeable s w t l c →
      ∃ s' w', exec i s = .next s' ∧ TrapTaken (wordTrap87 w c d 9) s s' w w' t l (aborted189 w w.pcOf)) ∧
    (∀ x a n w, (Instr.csrw x a n).wf = true → (waveCheck w x (wordOf (.csrw x a n))).isSome = true) ∧
    (∀ x v w, (Instr.reservedOperandValue x v).wf = true → (waveCheck w x v).isSome = true) ∧
    ∀ i, issues87 i = true → ∀ s w t l, AtIssue s w t l → lives87 w i = true → waveCheck w (exAt i) (wordOf i) = none →
      w.tx.isSome = true → w.active (exAt i) ≠ 0 → txAllowed (wordOf i).maj (wordOf i).fn = false → Takeable s w t l 0x0A →
      ∃ s' w', exec i s = .next s' ∧ TrapTaken (wordTrap87 w 0x0A 1 6) s s' w w' t l (aborted189 w w.pcOf))

/-- R259 (with R37 and R331 to R338 for what a trap does, log 4 for the number that SAVE holds, and log 18 for the check's place): TRET, REPLAY or RQDROP outside a trap handler raises an illegal-instruction trap
with DETAIL 0x05. -/
def Obligations.HandlerOnlyInstructionsTrap : Prop := ∀ i, handlerOnly259 i = true → ∀ s w t l, i.wf = true → AtIssue s w t l →
  w.exec ≠ 0 → w.handler = none → Takeable s w t l 1 →
  ∃ s' w', exec i s = .next s' ∧ TrapTaken (wordTrap87 w 1 5 9) s s' w w' t l (aborted189 w w.pcOf)

/-- R153, R263, R329 to R338 (with log 4 for the number that SAVE holds): TRAP and BKPT trap their acting items with their code, to resume after the instruction. -/
def Obligations.TrapAndBkptTrap : Prop := ∀ i x c n, code329 i = some (x, c, n) → ∀ s w t l, WavePre x i s w t l → Takeable s w t l c →
  ∃ s' w', exec i s = .next s' ∧ TrapTaken (codeTrap329 x c n s w) s s' w w' t l (past329 x w)

/-- R151, R165, R262, R337 (with log 16 for what an entry holds): RQDROP removes entries of the frame; REPLAY of a performed entry writes the
value it captured, and of a load what memory holds now, and removes it; and when the last item of the group has run TRET, or has ended by
EXIT, the handler ends and the entries still in the frame are issued again. -/
def Obligations.HandlersReplayAndReturn : Prop := (∀ x e s w t l h k, HandlerPre x (.rqdrop x e) s w t l h k → (e.toNat = 127 ∨ e.toNat < valid336 s k) →
    ∃ s' w', exec (.rqdrop x e) s = .next s' ∧ RqdropPost x e.toNat s s' w w' k) ∧
  (∀ x e s w t l h k, ReplayPre x e s w t l h k →
    ∃ s' w', exec (.replay x e) s = .next s' ∧ ReplayPost x e.toNat (descriptor336 s k e.toNat 0).d7
      (if 2 ≤ exTy (some (Ex.ofWord (descriptor336 s k e.toNat 1))) ∧ exTy (some (Ex.ofWord (descriptor336 s k e.toNat 1))) ≤ 3 then 2 else 1)
      (descriptor336 s k e.toNat 2 &&& w.live) s s' w w' k) ∧
  (∀ x e s w t l h k p, ReloadPre x e s w t l h k p →
    ∃ s' w', exec (.replay x e) s = .next s' ∧ ReloadPost x e s s' w w' t l k p) ∧
  (∀ x s w t l h k, HandlerEndPre x s w t l h k → ∃ s' w', exec (.exit x) s = .next s' ∧ HandlerEndPost x s s' w w' t l h k) ∧
  ∀ x s w t l h k, TretPre x s w t l h k → ∃ s' w', exec (.tret x) s = .next s' ∧ TretPost x s s' w w' t l h k

/-- R263, R343, R345, R346 (with logs 4 and 29 for the save image and its number): HALT pre-empts its context as a whole, holds it under a save image, and publishes a halt record. -/
def Obligations.HaltPreemptsTheContext : Prop := ∀ x n s w t l, HaltPre x (.halt x n) s w t l →
  ∃ s' w', exec (.halt x n) s = .next s' ∧ HaltPost x n s s' w w' t l

/-- R150, R152, R195, R289 (a cycle is one nanosecond, log 2): a wave that has been ready for 256 cycles is boosted; YIELD ends after 64 cycles; after 1,024 issue cycles
the next group that no JOIN holds issues; a sleeping wave may be woken, with cause 4. -/
def Obligations.SchedulerEvents : Prop :=
  (∀ r s w, s.stuck = none → s.wave? r = some w → s.waveReady w = true → w.readyAt + 256 ≤ s.time →
    exec (.waveBoost r) s = .next (withWave s r (fun v => { v with boosted := true }))) ∧
  (∀ r s w, s.stuck = none → s.wave? r = some w → w.yielded.isSome = true → w.yieldAt + 64 ≤ s.time →
    exec (.yieldExpiry r) s = .next (withWave s r (fun v => { v with yielded := none }))) ∧
  (∀ r s w t l, s.stuck = none → s.wave? r = some w → s.team? r.team = some t → s.launch? r.team.launch = some l →
    w.fallback = true → 1024 ≤ w.groupIssues → free150 s w t l ≠ [] →
    ∃ p, Next150 w (free150 s w t l) p ∧
      exec (.fallbackRotation r) s = .next (withWave s r (fun v => { v with group := some p, groupIssues := 0 }))) ∧
  ∀ r s, s.stuck = none → exec (.wakeWithoutCause r) s = .next (withWave s r woken195)

/-- R223, R225, R226: an engine starts the first command of a running stream: it performs the command's payload and keeps the payload's
status for the completion; a command whose predecessor has failed has status 11 (PRED), and AXSYNC has nothing to perform (that a payload
is performed whole at its start is log 32, which log 14 makes wait for its die's packets). R230 to R235, R308: COPY and COPYX move their
units, GATH and SCATX their rows, in order, to the first that fails; a SCATX that adds updates its words (that an index beyond one axis
goes before another axis's fault is log 32). -/
def Obligations.EnginesStartCommands : Prop := ∀ q s c t l, Front s q c t l →
  (c.state = .held → s.predOf c = some false →
    exec (.engineCommandStart q) s = .next (withCmd s q c { c with state := .started 11 })) ∧
  (c.state.waits = true → s.predOf c = some true → (engine223 s c t l).behind = false → c.is 0x7B 2 = true →
    exec (.engineCommandStart q) s = .next (withCmd s q c { c with state := .started 0 })) ∧
  (c.state.waits = true → s.predOf c = some true → (engine223 s c t l).behind = false → (c.is 0x7B 0 && (engine223 s c t l).dispWaits) = false →
    let r := (engine223 s c t l).payload
    r.s.stuck = none → (stream218 r.s q).ref = q → (r.s.streams.any (fun m => m.ref == q)) = true →
    exec (.engineCommandStart q) s = .next (withCmd r.s q r.c { r.c with state := .started r.status, pins := r.pins })) ∧
  (∀ x b, CopyPre s q c t l x b → ∃ s', exec (.engineCommandStart q) s = .next s' ∧
    Performed s s' q c t l (moves233 s t l c x b) (pinned308 s t l c x b)) ∧
  (∀ x, GathPre s q c t l x → word221 c 4 / 2 ^ 14 % 2 ^ 2 = 0 → Apart (moves235 s t l c x) → ∃ s', exec (.engineCommandStart q) s = .next s' ∧
    Performed s s' q c t l (moves235 s t l c x) (fun ps => ps = c.pins)) ∧
  (AddPre s q c t l → ∃ s', exec (.engineCommandStart q) s = .next s' ∧ AddPost s s' q c t l)

/-- R75, R76, R223, R226, R306, R341, R362 (with logs 32 and 34): a command whose payload has been performed leaves its stream when its
completion has been signalled, sent to its node, or dropped with a record; an AXEDIT waits for its shoot-downs and pins; one that has
failed publishes its record and halts its stream. R243 to R250: the end of an ATTN walks its dropped blocks again, writes ABSMAP, NABS
and STATUS, adds the Sinter partial and fills the score table, and then completes or fails. -/
def Obligations.CommandsCompleteOrFail : Prop :=
  (∀ q s c t l, Front s q c t l → Alone s q t → c.state = .started 0 → c.is 0x7A 0 = false → (c.is 0x7B 1 && waits306 s c t l) = false →
    c.pins = [] → home76 s t c.done = true → ∃ s', exec (.engineCommandComplete q) s = .next s' ∧ CommandDone s s' q c t l) ∧
  (∀ q s c t l, Front s q c t l → Alone s q t → c.state = .started 0 → c.is 0x7B 1 = true → waits306 s c t l = true →
    exec (.engineCommandComplete q) s = .next s) ∧
  (∀ q s c t l kb vb, AttnEndPre s q c t l kb vb → ∃ s', exec (.engineCommandComplete q) s = .next s' ∧ AttnEndPost s s' q c t l kb vb) ∧
  (∀ q s c t l n, Front s q c t l → Alone s q t → c.state = .started n → n ≠ 0 → n ≠ 1 →
    ∃ s', exec (.engineCommandComplete q) s = .next s' ∧ FailPost s s' q c n t l)

/-- R306, R369 (with log 33): a shoot-down empties the caches of its core, and is acknowledged once no access translated before is under way; a DISP
that waits for a retired generation goes on when LT has passed. R255, R305, R306: an AXEDIT that starts changes its table, or fails and
changes nothing, and sends its shoot-downs. -/
def Obligations.ShootDownsAndRetirementsEnd : Prop :=
  (∀ j s x, s.stuck = none → s.shoots[j]? = some x → ∃ s', exec (.shootDown j) s = .next s' ∧ ShootPost s s' j x) ∧
  (∀ j s x, s.stuck = none → s.shoots[j]? = some x → x.arrived = true → s.coreBusy x.node x.die x.core = false →
    exec (.shootDownAcknowledge j) s = .next { s with shoots := s.shoots.take j ++ s.shoots.drop (j + 1) }) ∧
  (∀ q s c t l, EditPre s q c t l → ∃ s', exec (.engineCommandStart q) s = .next s' ∧ EditPost s s' q c t l) ∧
  ∀ q s c t l d, RetireStart s q c t l d → ∃ s', exec (.generationRetireWait q) s = .next s' ∧ RetirePassed s s' c t l

/-- R269 to R272 (the order of the checks is log 37, and WHERE of the record log 36): the sequencer moves HEAD to the record's NEXT; a
record whose checks hold becomes a running launch over its items, with STATE 1; of the others STATE is 3 with the status of
the first check that fails, and a KIND 3 record is published. R257, R269 (with log 35): a LAUNCH appends its record to the queue of the context that it names, or fails
and changes nothing but the record's NEXT. -/
def Obligations.LaunchRecordsAreTaken : Prop :=
  (∀ s node ccn region segs lq addr r k ks g p bs, TakePre s node ccn region segs lq addr r k ks g →
    status270 (headed269 s k node ccn addr r) node ccn addr region.rcb segs r = none →
    kernel270 (headed269 s k node ccn addr r) node ccn segs g.world r = some p →
    params270 (headed269 s k node ccn addr r) node ccn segs g.world r = some bs →
    ∃ s', exec (.launchTake node ccn) s = .next s' ∧ TakenPost s s' node ccn addr r k ks 1 ∧ s'.nodes = s.nodes ∧
      s'.launches = spread268 (s.launches ++ [launch271 s node ccn addr segs r g p bs]) node g ∧ s'.nextNum = s.nextNum + 1) ∧
  (∀ s node ccn region segs lq addr r k ks g st, TakePre s node ccn region segs lq addr r k ks g →
    status270 (headed269 s k node ccn addr r) node ccn addr region.rcb segs r = some st →
    ∃ s', exec (.launchTake node ccn) s = .next s' ∧ TakenPost s s' node ccn addr r k ks (3 + 256 * st) ∧
      s'.nodes = withRecord { s with nodes := noticed270 s node r.rcb (worlds270 (headed269 s k node ccn addr r) node ccn segs g.world r st) } node g.fdom
        ⟨3, st, r.rcb, 0, node, 0, addr, 0, 0, s.time⟩ ∧ s'.launches = s.launches ∧ s'.nextNum = s.nextNum) ∧
  ∀ q s c t l, LaunchPre s q c t l → ∃ s', exec (.engineCommandStart q) s = .next s' ∧ LaunchPost s s' q c t l

/-- R275, R277 to R279, R291 (the order of teams and victims is log 38, and what an image is log 29): a waiting team is placed on the first of its cores that it fits; a context whose deficit is exhausted is
pre-empted for a rival, and after a slice of waiting a FORCEPRE team clears a core. -/
def Obligations.TeamsArePlacedAndPreempted : Prop :=
  (∀ s t m l c p, PlacePre s t m l c p →
    ∃ s', exec (.teamPlacement t) s = .next s' ∧ StartedPost (loadedState278 s m l c p) s' m) ∧
  (∀ s node die ccn c m v n vs, s.stuck = none → s.ctxs.find? (fun d => d.node == node && d.ccn == ccn && decide (d.deficit.getD die 0 ≤ 0)) = some c →
    s.rival node die ccn = some m → s.tryPlace m.ref = none →
    s.victims node die (fun u => s.ccnOfTeam u == ccn && s.prioOf u == s.prioOf m) = v.ref :: vs → Preemptable s v n →
    ((s.preemptUnit 1 v.ref).tryPlace m.ref).any (fun s2 => s2.stuck.isNone) = true →
    ∃ s1 s2, PreemptPost s s1 v n 1 ∧ s1.tryPlace m.ref = some s2 ∧ exec (.deficitPreempt node die ccn) s = .next s2) ∧
  ∀ s t m l c v n, s.stuck = none → s.team? t = some m → s.launch? t.launch = some l → l.region.forcepre = true → s.waiting m = true →
    m.waitSince + l.region.slice ≤ s.time → s.tryPlace t = none → s.forceCore m l = some c → s.teamsOn l.node l.die c = [v] → Preemptable s v n →
    ((s.preemptUnit 2 v.ref).tryPlace t).any (fun s2 => s2.stuck.isNone) = true →
    ∃ s1 s2, PreemptPost s s1 v n 2 ∧ s1.tryPlace t = some s2 ∧ exec (.forceprePreempt t) s = .next s2

/-- R352, R353 (with logs 4, 29, 36 and 42 for the image, its number, WHERE and what waiting is): a region that waits beyond its WAITB has its context held under an image with a snapshot, and a KIND 5 record names it;
under MODES bit 20 only the record is published, once. -/
def Obligations.WaitingBudgetsExpire : Prop :=
  (∀ s node rcb r c, BudgetPre s node rcb r c → r.modes.testBit 20 = true → c.reported.contains rcb = false →
    exec (.waitingBudgetExpiry node rcb) s = .next { s with
      ctxs := s.ctxs.map (fun d => if d.node = node ∧ d.ccn = c.ccn then { d with reported := rcb :: d.reported } else d)
      nodes := withRecord s node r.fdom (record352 s node rcb 0) }) ∧
  ∀ s node rcb r c, BudgetPre s node rcb r c → r.modes.testBit 20 = false → (s.waves.all (fun w => !s.updating w.ref)) = true →
    (s.saves.all (fun v => decide (v.num < s.nextNum))) = true →
    ∃ s', exec (.waitingBudgetExpiry node rcb) s = .next s' ∧ SnapshotPost s s' node rcb r c
/-- R357 to R359, R361, R362, R374 (with R340; how the answers travel is log 47, and that a value which comes back poisoned is decided at
the target log 26): the next request of a stream is checked and performed at its target: a load answers with the value of its bytes
and their poison; a store or completion word writes its bytes; an atomic or ring instruction acts on the bytes it finds and
answers, and the updates of one instruction are one event (R176, R181, R319); a refused load or update answers with a mark, a refused
store is dropped and leaves a KIND 1 record, a refused completion word a KIND 2 record. A host adapter's request enters its stream. -/
def Obligations.RequestsArePerformedAtTheirTarget : Prop :=
  (∀ s p tag reg n ty k, Deliverable s p (.load tag reg n ty) → Single s p → bytes162 ty = n → key361 s p n .read = some k → present (globBytes k n) = true →
    ∃ s', exec (.remoteAccess (.packet p.num)) s = .next s' ∧ s' = { s with packets := delivered s p, waves := s'.waves, answers := s'.answers } ∧
      AnswerGone s s' p (.load tag reg n ty) (loadVal ty (Bytes.num s.peek (globBytes k n))) (Bytes.num s.peek (globBytes k n)) (poisoned s (globBytes k n)) false) ∧
  (∀ s p d pc k, Deliverable s p (.store d pc) → Single s p → key361 s p d.length .write = some k → present (globBytes k d.length) = true →
    ∃ s', exec (.remoteAccess (.packet p.num)) s = .next s' ∧ PerformedPost s s' p (Bytes.put s.peek (globBytes k d.length) d) ∧
      ∀ a, s'.poison.contains a = (s.poison.contains a && !(globBytes k d.length).contains (.glob a))) ∧
  (∀ s p d k, Deliverable s p (.poison d) → Single s p → key361 s p d.length .write = some k → present (globBytes k d.length) = true →
    ∃ s', exec (.remoteAccess (.packet p.num)) s = .next s' ∧ PerformedPost s s' p (Bytes.put s.peek (globBytes k d.length) d) ∧
      ∀ a, s'.poison.contains a = (s.poison.contains a || (globBytes k d.length).contains (.glob a))) ∧
  (∀ s p v wh k, Deliverable s p (.word v wh) → Single s p → key361 s p 4 .write = some k → present (globBytes k 4) = true →
    ∃ s', exec (.remoteAccess (.packet p.num)) s = .next s' ∧ PerformedPost s s' p (Bytes.put s.peek (globBytes k 4) (toBytes 4 v.toNat)) ∧
      ∀ a, s'.poison.contains a = (s.poison.contains a && !(globBytes k 4).contains (.glob a))) ∧
  (∀ s p lane reg word exw y c k, Deliverable s p (.atomic lane reg word exw y c) → Single s p → lane < 32 → update175 word exw = true →
    key361 s p (bytes162 (exTy (ex361 exw))) .rmw = some k → present (globBytes k (bytes162 (exTy (ex361 exw)))) = true →
    poisoned s (globBytes k (bytes162 (exTy (ex361 exw)))) = false →
    y.toNat < 2 ^ (8 * bytes162 (exTy (ex361 exw))) → c.toNat < 2 ^ (8 * bytes162 (exTy (ex361 exw))) →
    let ls := globBytes k (bytes162 (exTy (ex361 exw)))
    let old := Bytes.num s.peek ls
    ∃ s' sm, exec (.remoteAccess (.packet p.num)) s = .next s' ∧ s' = { sm with waves := s'.waves, answers := s'.answers } ∧
      PerformedPost s sm p (Bytes.put s.peek ls (toBytes (bytes162 (exTy (ex361 exw))) (new361 (ex361 exw) old y.toNat c.toNat))) ∧
      AnswerGone sm s' p (.atomic lane reg word exw y c) old old false false) ∧
  (∀ s p lane reg op v k g, Deliverable s p (.ring lane reg op v) → Single s p → lane < 32 → op < 4 → key361 s p 256 .rmw = some k →
    (s.ringAt (s.targetRes p) k).toOption = some g → present (ringBytes g) = true → poisoned s (ringBytes g) = false →
    (g.desc + 256 ≤ g.states ∨ g.states + (2 ^ g.nlog + 3) / 4 ≤ g.desc) →
    ∃ s' sm, exec (.remoteAccess (.packet p.num)) s = .next s' ∧ s' = { sm with waves := s'.waves, answers := s'.answers } ∧
      PerformedPost s sm p (act181 op v.toNat s.peek g).1 ∧
      AnswerGone sm s' p (.ring lane reg op v) (act181 op v.toNat s.peek g).2 (act181 op v.toNat s.peek g).2 false false) ∧
  (∀ s p q op rest s1 s2, Deliverable s p op → stream357 s p = p :: q :: rest → mates319 p q = true → (∀ u ∈ rest.head?, mates319 p u = false) →
    (∀ u ∈ s.packets, (u.num = p.num → u = p) ∧ (u.num = q.num → u = q)) → p.num ≠ q.num → s.time ≤ q.time + lifetime → (s.packets.countP (· == p)) = 1 →
    exec (.remoteAccess (.packet p.num)) { s with packets := s.packets.filter (fun u => u.num != q.num) } = .next s1 →
    exec (.remoteAccess (.packet q.num)) { s1 with packets := delivered s p } = .next s2 →
    exec (.remoteAccess (.packet p.num)) s = .next s2) ∧
  (∀ s p op c d, Refused s p op c d → (answer362 op).isSome = true →
    ∃ s', exec (.remoteAccess (.packet p.num)) s = .next s' ∧
      s' = { s with packets := delivered s p, waves := s'.waves, answers := s'.answers, nodes := refused374 s p c d } ∧
      AnswerGone s s' p op 0 0 (c != 7) (c == 7)) ∧
  (∀ s p data pc c d, Refused s p (.store data pc) c d →
    exec (.remoteAccess (.packet p.num)) s = .next { s with packets := delivered s p
                                                            nodes := withRecord { s with nodes := refused374 s p c d } p.stream.node p.fdom
                                                              ⟨1, c + 256 * d, p.rcb, 0, s.whereOf p, 2 ^ p.pend, 0, pc, 0, s.time⟩ }) ∧
  (∀ s p v wh c d, Refused s p (.word v wh) c d →
    exec (.remoteAccess (.packet p.num)) s = .next { s with packets := delivered s p
                                                            nodes := withRecord { s with nodes := refused374 s p c d } p.stream.node p.fdom
                                                              ⟨2, 10, p.rcb, 0, wh, 0, p.pend, 0, 0, s.time⟩ }) ∧
  ∀ s q, s.stuck = none → hostOk q = true → exec (.remoteAccess (.host q)) s = .next { s with
    nextNum := s.nextNum + 1
    packets := s.packets ++ [hostPacket361 s q] }

/-- R342, R358, R370 (that a record of an idle stream goes to domain 0 is log 36, and which streams the answers are log 47): a failed stream, or one with a packet older than LT, loses its packets: results are poisoned, every party that lost
one has a KIND 4 record, and the node counts it. -/
def Obligations.StreamsFailWithTheirPackets : Prop :=
  (∀ s f, LosesResults s f → ∃ s', exec (.fabricStreamFail f) s = .next s' ∧ StreamFailed s s' f 0) ∧
  ∀ s p, s.packets.find? (fun q => q.num == p.num) = some p → p.time + lifetime < s.time → LosesResults s p.stream →
    ∃ s', exec (.packetLifetimeExpiry p.num) s = .next s' ∧ StreamFailed s s' p.stream 1

/-- R339, R341, R370 (how the ring is reached is log 12): the first record of a domain takes a slot of the domain's ring by the RSV and
PUB steps of R181; it waits while the ring is full, and is counted as lost where the domain has no ring. A halted stream that waits
for the record is then reset. -/
def Obligations.FaultRecordsArePlaced : Prop :=
  (∀ s node fdom d r before after, s.stuck = none → s.node? node = some d → FirstRecord d fdom r before after → Unawaited s r →
    ((d.fdoms.find? (fun p => p.1 == fdom)).map Prod.snd).getD 0 = 0 →
    ∃ s', exec (.faultRecord node fdom) s = .next s' ∧ s' = { s with nodes := s'.nodes } ∧
      s'.node? node = some { d with records := before ++ after, counters := modAt d.counters 4 (· + 1) }) ∧
  (∀ s node fdom d r before after ring g slot, s.stuck = none → s.node? node = some d → FirstRecord d fdom r before after → Unawaited s r →
    d.fdoms.find? (fun p => p.1 == fdom) = some (fdom, ring) → RingFor s node ring r g slot → poisoned s (ringBytes g) = false →
    let q := act181 0 0 s.peek g
    if q.2 = 0xFFFFFFFF then exec (.faultRecord node fdom) s = .next s
    else ∃ s', exec (.faultRecord node fdom) s = .next s' ∧
      s' = { s with waves := s'.waves, deliveries := s'.deliveries, mem := s'.mem, poison := s'.poison, teams := s'.teams, nodes := s'.nodes } ∧
      BytesNow s s' (act181 1 q.2 (Bytes.put q.1 (globBytes slot 128) (record339 r)) g).1 ∧
      s'.node? node = some { d with records := before ++ after }) ∧
  ∀ q s node fdom d r before after s1, s.stuck = none → s.node? node = some d → FirstRecord d fdom r before after → Awaited s q r →
    exec (.faultRecord node fdom) { s with streams := [] } = .next s1 → s1.nodes ≠ s.nodes →
    ∃ s', exec (.faultRecord node fdom) s = .next s' ∧ s' = { s1 with waves := s'.waves, streams := s'.streams } ∧
      ResetPost { s1 with streams := s.streams } s' q

/-- R204, R357, R358, R369 (where the arrivals of a caldera barrier meet, and the reuse of its generations, are log 42): an arrival of
its barrier's generation counts its team, and the last one completes the phase; any other is dropped and counted; a release of the
current generation adds one to PHASE of each team's object; one older than LT fails its stream. -/
def Obligations.HardwareBarriersCollectAndRelease : Prop :=
  (∀ s j a, Arrives s j a →
    exec (.hwBarrierArrival j) s = .next (if (barrier204 s a).gen = a.gen
      then { s with arrivals := without s.arrivals j, barriers := counted204 s a }
      else { s with arrivals := without s.arrivals j, nodes := counted370 s (((s.team? a.team).map (·.node)).getD 0) 0 })) ∧
  (∀ s j a, s.stuck = none → s.arrivals[j]? = some a → waits369 s a = true → exec (.hwBarrierArrival j) s = .next s) ∧
  (∀ s j a f, s.stuck = none → s.arrivals[j]? = some a → waits369 s a = false → arriving204 s a = some f → s.time ≤ a.time + lifetime →
    s.deadStreams.contains f = true → exec (.hwBarrierArrival j) s = .next { s with arrivals := without s.arrivals j }) ∧
  (∀ s j a f, s.arrivals[j]? = some a → waits369 s a = false → arriving204 s a = some f → a.time + lifetime < s.time → LosesResults s f →
    ∃ s', exec (.hwBarrierArrival j) s = .next s' ∧ StreamFailed { s with arrivals := without s.arrivals j } s' f 1) ∧
  (∀ s j b t off rest, Releases s j b t off rest false → Current204 s j b rest → present (phase201 s t off) = true →
    ∃ s', exec (.hwBarrierRelease j) s = .next s' ∧ ReleasePost s s' j b t off rest) ∧
  (∀ s j b t off rest, Releases s j b t off rest false → ¬ Current204 s j b rest →
    exec (.hwBarrierRelease j) s = .next { s with barriers := left204 s j b rest, nodes := counted370 s t.node 0 }) ∧
  ∀ s j b t off rest f, Releases s j b t off rest true → releasing204 s b t = some f → LosesResults s f →
    ∃ s', exec (.hwBarrierRelease j) s = .next s' ∧ StreamFailed { s with barriers := left204 s j b rest } s' f 1

/-- R254, R365 to R369, R374 (a cycle is one nanosecond, log 2; that DISP runs whole is log 35): DISP reads its routing entries and hands its
tokens, in lane order, to the send queues, which send what is full; an idle send queue sends what it
holds, a token above 256 bytes in packets of its own; a packet of a generation of the window is accepted and its tokens delivered
in order by RSV, the payload's bytes and PUB, once all its pieces are there; a newer generation moves the window on, an older one is
dropped and counted; a token that fails a check is dropped, counted and recorded; while the ring is full the delivery waits and holds
its queue; it is tried again after a write. -/
def Obligations.GeyserDeliversTokens : Prop :=
  (∀ q s c t l d, DispPre s q c t l d → ∃ s', exec (.engineCommandStart q) s = .next s' ∧ DispPost s s' q c t l d) ∧
  (∀ s node die dst d q, IdleQueue s node die dst d q → ∃ s' n, Packed367 q.tokens n ∧ exec (.sendQueueTimeout node die dst) s = .next s' ∧
    s' = { s with packets := s.packets ++ [packet367 s node q n], nextNum := s.nextNum + 1, nodes := s'.nodes } ∧
    s'.node? node = some (d.setSendq { q with tokens := q.tokens.drop n })) ∧
  (∀ s node die dst d q t ts, s.stuck = none → s.node? node = some d → d.sendq die dst = q → q.tokens = t :: ts → q.blocked = false →
    q.since + 128 ≤ s.time → 256 < t.payload.length → q.die = die → q.dst = dst →
    ∃ s', exec (.sendQueueTimeout node die dst) s = .next s' ∧
      s' = { s with packets := s.packets ++ pieces367 s node q t, nextNum := s.nextNum + (pieces367 s node q t).length, nodes := s'.nodes } ∧
      s'.node? node = some (d.setSendq { q with tokens := ts })) ∧
  (∀ s p d, Dispatched s p d → genDelta (d.gener p.ccn).cur p.pend ≤ -16 →
    exec (.dispatchPacketReceive p.num) s = .next { s with packets := delivered s p
                                                           nodes := (counted370 s p.stream.dst 0).map (fun e => if e.num = p.stream.dst then unpieced367 e p else e) }) ∧
  (∀ s p d, Dispatched s p d → 0 < genDelta (d.gener p.ccn).cur p.pend →
    exec (.dispatchPacketReceive p.num) s = exec (.dispatchPacketReceive p.num)
      { s with nodes := withNode s p.stream.dst (fun e => e.setGener (moved369 (d.gener p.ccn) p.pend s.time)) }) ∧
  (∀ s p d t ts, Dispatched s p d → InWindow p d → p.tokens = t :: ts → t.more = true →
    ∃ s', exec (.dispatchPacketReceive p.num) s = .next s' ∧ s' = { s with packets := delivered s p, nodes := s'.nodes } ∧
      ∀ n, s'.node? n = (s.node? n).map (fun e => if n = p.stream.dst then { e with frags := (unpieced367 e p).frags ++ (if pieced367 d p ++ t.payload = [] then [] else [⟨p.stream.node, p.stream.die, pieced367 d p ++ t.payload⟩]) } else e)) ∧
  (∀ s p d t ts, Dispatched s p d → InWindow p d → p.tokens = t :: ts → t.more = false →
    exec (.dispatchPacketReceive p.num) s = exec (.dispatchPacketReceive p.num)
      { withTokens s p ({ t with payload := pieced367 d p ++ t.payload } :: ts) with nodes := withNode s p.stream.dst (fun e => unpieced367 e p) }) ∧
  (∀ s p d t u ts s1, Dispatched s p d → InWindow p d → p.tokens = t :: u :: ts → t.more = false → u.more = false → d.frags = [] →
    exec (.dispatchPacketReceive p.num) (withTokens s p [t]) = .next s1 → waiting368 s1.deliveries = waiting368 s.deliveries →
    exec (.dispatchPacketReceive p.num) s = exec (.dispatchPacketReceive p.num) { s1 with packets := (withTokens s p (u :: ts)).packets }) ∧
  (∀ s p d t g slot, Dispatched s p d → InWindow p d → p.tokens = [t] → t.more = false → d.frags = [] →
    TokenRing s p.stream.dst t g slot → (delivery368 s.peek g slot t).2 ≠ 0xFFFFFFFF →
    ∃ s', exec (.dispatchPacketReceive p.num) s = .next s' ∧ DeliveredPost s s' (delivery368 s.peek g slot t).1 ∧
      s'.packets = delivered s p ∧ s'.nodes = s.nodes ∧ waiting368 s'.deliveries = waiting368 s.deliveries) ∧
  (∀ s p d t g slot, Dispatched s p d → InWindow p d → p.tokens = [t] → t.more = false → d.frags = [] →
    TokenRing s p.stream.dst t g slot → (delivery368 s.peek g slot t).2 = 0xFFFFFFFF →
    ∃ s', exec (.dispatchPacketReceive p.num) s = .next s' ∧
      s' = { s with packets := delivered s p, deliveries := s.deliveries ++ [⟨p.stream.dst, p.stream.node, p.stream.die, [t], g.desc, false⟩], nodes := s'.nodes } ∧
      ∀ n, s'.node? n = (s.node? n).map (fun e => if n = p.stream.node
        then e.setSendq { e.sendq p.stream.die p.stream.dst with blocked := true } else e)) ∧
  (∀ s p d t a b, Dispatched s p d → InWindow p d → p.tokens = [t] → t.more = false → d.frags = [] →
    reach368 s p.stream.dst t t.ring.toNat 256 = .error (a, b) →
    exec (.dispatchPacketReceive p.num) s = .next { s with packets := delivered s p, nodes := dropped368 s p.stream.dst t a b }) ∧
  (∀ s p d t k g c r, Dispatched s p d → InWindow p d → p.tokens = [t] → t.more = false → d.frags = [] →
    (reach368 s p.stream.dst t t.ring.toNat 256).toOption = some k → (s.ringAt (reach368 s p.stream.dst t) k).toOption = some g →
    2 ^ (s.mem.word (k + 8) 4 % 32) < t.payload.length → d.peers.find? (fun e => e.ccn == t.ccn) = some c → s.region? p.stream.dst c.rcb = some r →
    exec (.dispatchPacketReceive p.num) s = .next { s with packets := delivered s p
                                                           nodes := withRecord { s with nodes := counted370 s p.stream.dst 3 } p.stream.dst r.fdom
                                                             ⟨2, 7, c.rcb, 0, p.stream.dst, 0, 0, 0, 0, s.time⟩ }) ∧
  ∀ s j d t g slot, s.stuck = none → s.deliveries[j]? = some d → d.retry = true → d.tokens = [t] → TokenRing s d.node t g slot →
    (∀ e ∈ s.node? d.srcNode, (e.sendq d.srcDie d.node).tokens = []) → (delivery368 s.peek g slot t).2 ≠ 0xFFFFFFFF →
    ∃ s', exec (.deliveryRetry j) s = .next s' ∧ DeliveredPost s s' (delivery368 s.peek g slot t).1 ∧ s'.packets = s.packets ∧
      waiting368 s'.deliveries = waiting368 (without s.deliveries j) ∧
      ∀ n, s'.node? n = (s.node? n).map (fun e => if n = d.srcNode
        then e.setSendq { e.sendq d.srcDie d.node with blocked := false } else e)

/-- R350, R351 (when a boundary that has passed is taken, and the root's generations, are log 41; WHERE of the record is log 36): at a slice boundary a node saves the outgoing gang and loads the incoming one's images; the barrier's root commits when every node
with a schedule has arrived by T + G, and aborts at T + G otherwise; each node then releases the new gang, or resumes the
previous one and publishes a KIND 6 record. -/
def Obligations.GangsChangeTogether : Prop :=
  (∀ s node d c k, BoundaryDue s node d c k → (d.gang.hosted || s.launches.any (fun l => l.node == node && l.flags.testBit 2)) = true →
    s.waves.all (fun w => !s.updating w.ref) = true → ∃ s', exec (.gangSliceBoundary node) s = .next s' ∧ PreparedPost s s' node k c) ∧
  (∀ s node d c k, BoundaryDue s node d c k → (d.gang.hosted || s.launches.any (fun l => l.node == node && l.flags.testBit 2)) = false →
    exec (.gangSliceBoundary node) s = .next { s with nodes := withGang s node (fun x => { x with sched := none, cur := none, slice := 0 }) }) ∧
  (∀ s node d c k gang, Prepared s node d c k gang →
    let sent := withGang s node (fun x => { x with arrivedAt := some (k % 65536) })
    let fresh : GangRoot := ⟨k % 65536, c.t0 + k * c.slice, c.grace, [], none⟩
    (s.gangRoot = none → exec (.gangBarrierArrival node (k % 65536)) s = .next { s with nodes := sent, gangRoot := some (root350 s fresh node) }) ∧
    ∀ r, s.gangRoot = some r → r.gen = k % 65536 →
      exec (.gangBarrierArrival node (k % 65536)) s = .next (if r.decision = none then { s with nodes := sent, gangRoot := some (root350 s r node) }
        else { s with nodes := counted370 { s with nodes := sent } node 0 })) ∧
  (∀ s r, s.stuck = none → s.gangRoot = some r → r.decision = none → r.boundary + r.grace ≤ s.time →
    exec .gangAbort s = .next { s with gangRoot := some { r with decision := some false } }) ∧
  (∀ s node d r k gang, s.stuck = none → s.node? node = some d → d.gang.prep = some (k, gang) → s.gangRoot = some r → r.gen = k % 65536 →
    r.decision = some true → NoneSaved s node (some gang) → exec (.gangDecision node) s = .next { s with
      launches := released350 s node (some gang)
      nodes := withGang s node (fun x => { x with prep := none, arrivedAt := none, slice := k + 1, cur := some gang }) }) ∧
  (∀ s node d r k gang m, s.stuck = none → s.node? node = some d → d.gang.prep = some (k, gang) → s.gangRoot = some r → r.gen = k % 65536 →
    r.decision = some true → OneSaved s node gang m → ∃ s', exec (.gangDecision node) s = .next s' ∧ StartedPost { s with
      launches := released350 s node (some gang)
      nodes := withGang s node (fun x => { x with prep := none, arrivedAt := none, slice := k + 1, cur := some gang }) } s' m) ∧
  ∀ s node d r k gang, s.stuck = none → s.node? node = some d → d.gang.prep = some (k, gang) → s.gangRoot = some r → r.gen = k % 65536 →
    r.decision = some false → NoneSaved { s with teams := discarded350 s node gang } node d.gang.cur → exec (.gangDecision node) s = .next { s with
      teams := discarded350 s node gang
      launches := released350 s node d.gang.cur
      nodes := withRecord { s with nodes := withGang s node (fun x => { x with prep := none, arrivedAt := none, slice := k + 1 }) } node
        (late350 s node r.gen d.gang.cur).1 (late350 s node r.gen d.gang.cur).2 }

/-- R339, R341, R351, R360, R363 to R365 (with logs 15 and 40): PEER_SET, FDOM_SET, ROUTE_SET, GANG_SCHED and QUEUE_RESET write their entry, install their
schedule or reset their stream, or are refused; another CODE has STATUS 2; a request of an adapter that is not
management-enabled is dropped and counted. -/
def Obligations.ManagementRequestsWriteTables : Prop := ∀ s h d, Reached s h d →
  (∀ ccn lo hi, exec (.peerSet h ccn lo hi) s = .next (answered363 s h d 1 (peerSet360 s h.node ccn lo hi))) ∧
  (∀ n ring, exec (.fdomSet h n ring) s = .next (answered363 s h d 2 (fdomSet339 s h.node n ring))) ∧
  (∀ die ccn r, exec (.routeSet h die ccn r) s = .next (answered363 s h d 3 (routeSet365 s h die ccn r))) ∧
  (∀ bs, exec (.gangSched h bs) s = .next (answered363 s h d 4 (gangSched351 s h bs))) ∧
  (∀ q t, HaltedOn s h.node q t → ∃ s1, ResetPost s s1 q ∧ s1 = { s with waves := s1.waves, streams := s1.streams } ∧
    exec (.queueReset h q) s = .next (answered363 s h d 5 (moded363 s h 19 (s1, 0, [])))) ∧
  ∀ code, exec (.unknownManagementCode h code) s = .next (answered363 s h d code (s, 2, []))

/-- R104, R363, R370, R374, R381 (with log 15): COUNTERS and ENABLE answer with the node's counters and enable records, and MEM reads or writes up to
192 bytes of the node's memory outside the save pool and the secure regions. -/
def Obligations.ManagementRequestsReadTheNode : Prop := ∀ s h d, Reached s h d →
  exec (.counters h) s = .next (answered363 s h d 0x0B (s, 0, d.counters.flatMap (toBytes 8))) ∧
  exec (.enable h) s = .next (answered363 s h d 0x0D (s, 0, d.enableRecords)) ∧
  ∀ addr len data, ∃ s1 status bs, MemAnswer s h d addr len data s1 status bs ∧
    exec (.mem h addr len data) s = .next (answered363 s h d 0x0E (s1, status, bs))

/-- R263, R307, R338, R349, R363 (with log 15): WAVE_RESUME lets a descheduled wave go on as by TRET from its frame, and WAVE_END ends it; CTX_RESUME
lets a held context go on, and CTX_DESTROY leaves nothing of a context. -/
def Obligations.WavesAndContextsAreResumedOrEnded : Prop := ∀ s h d, Reached s h d →
  (∀ r w n f t l, Descheduled s h.node r w n f t l → f.resume % 4 = 0 → f.entries.all kept337 = true →
    ∃ s1, ResumePost s s1 r w n f ∧ exec (.waveResume h r) s = .next (answered363 s h d 6 (s1, 0, []))) ∧
  (∀ r w n f t l, Descheduled s h.node r w n f t l → t.cut = true → s.waves.any (fun v => v.ref.team == r.team && v.ref != r) = true →
    t.round = none → t.barriers = [] → ∃ s1, WaveGone s s1 r n t ∧ exec (.waveEnd h r) s = .next (answered363 s h d 7 (s1, 0, []))) ∧
  (∀ r w, s.wave? r = some w → (match w.status with
      | .descheduled _ => false
      | _ => true) = true → exec (.waveResume h r) s = .next (answered363 s h d 6 (s, 2, []))) ∧
  (∀ ccn, exec (.ctxResume h ccn) s = .next (answered363 s h d 8 (resume349 s h.node ccn d))) ∧
  ∀ ccn c, s.ctxs.find? (fun c => c.node == h.node && c.ccn == ccn) = some c →
    ∃ s1, DestroyPost s s1 h.node ccn c.rcb ∧ exec (.ctxDestroy h ccn) s = .next (answered363 s h d 9 (s1, 0, []))

/-- R343, R344, R354, R355 (with log 15): under MODES bit 21 the debugger stops the named waves of a region as a pre-emption does, reads and writes the
state of stopped waves and their teams, a lane of a register as a whole, and lets waves go on. -/
def Obligations.DebuggerStopsReadsAndWrites : Prop := ∀ s h d, Reached s h d →
  (∀ rs, rs.any s.updating = false → ∃ s1, StopPost s s1 rs ∧
    exec (.debugStop h rs) s = .next (answered363 s h d 0x0A (moded363 s h 21 (if named354 s h rs then (s1, 0, []) else (s, 2, []))))) ∧
  (∀ rs, rs.any s.updating = true → exec (.debugStop h rs) s = .next { s with agenda := s.agenda ++ [.debugStop h rs] }) ∧
  (∀ rs, (s.waves.all (fun w => w.pend.isEmpty)) = true → ∃ s1, GoOnPost s s1 rs ∧
    exec (.debugResume h rs) s = .next (answered363 s h d 0x0A (moded363 s h 21 (if named354 s h rs then (s1, 0, []) else (s, 2, []))))) ∧
  (∀ i, plain354 i = true → exec (.debugRead h i) s = .next (answered363 s h d 0x0A (moded363 s h 21
    (match (if (s.launch? (team354 i).launch).any (fun l => l.node == h.node && l.region.rcb == h.rcb) then read354 s i else none) with
      | none => (s, 2, [])
      | some v => (s, 0, toBytes v.1 v.2))))) ∧
  ∀ i v, settable355 i = true → (∀ t, (haltedTeam354 s t).all (fun m => present (s.scrLocs m.1 0 m.2.kernel.alloc)) = true) →
    (writable355 s i v = true → (s.launch? (team354 i).launch).any (fun l => l.node == h.node && l.region.rcb == h.rcb) = true →
      ∃ s1, WritePost s s1 i v ∧ exec (.debugWrite h i v) s = .next (answered363 s h d 0x0A (moded363 s h 21 (s1, 0, [])))) ∧
    (writable355 s i v = false ∨ (s.launch? (team354 i).launch).any (fun l => l.node == h.node && l.region.rcb == h.rcb) = false →
      exec (.debugWrite h i v) s = .next (answered363 s h d 0x0A (moded363 s h 21 (s, 2, []))))

/-- R382 (with logs 3 and 15: the bytes of messages are free): GET_VERSION, GET_CAPABILITIES and NEGOTIATE_ALGORITHMS must come in this order from
the adapter that the connection is bound to, GET_DIGESTS, GET_CERTIFICATE, CHALLENGE and GET_MEASUREMENTS after them in any
order; an error changes no state, and an answer joins the transcript. -/
def Obligations.SpdmAnswersInOrder : Prop := ∀ i s d h msg kind content stage, Reached s h d →
  spdm382 i d = some (h, msg, kind, content, stage) →
  exec i s = .next (answered363 s h d 0x0C (responder382 s h msg (response382 kind msg content) kind stage, 0, response382 kind msg content))

/-- R356, R378 to R380 (with logs 39 and 45): device reset leaves nothing of a node's contexts, queues and tables, and boots it: an image that the ROM accepts
is measured into ms0 to ms3 and runs; any other leaves the node waiting, with ms0 to ms7 at 0. -/
def Obligations.DeviceResetBootsTheNode : Prop := ∀ s node, s.stuck = none →
  ∃ s', exec (.deviceReset node) s = .next s' ∧ ResetNode s s' node ∧ ∀ d ∈ s'.nodes, d.num = node →
    if (image379 s node).any (fun i => accepted379 i.1 i.2) = true then (∀ i ∈ image379 s node, Booted d i.1 i.2)
    else d = { Node.reset node with disabled := d.disabled }

/-- R99 to R108, R333 (the order of the checks, the count of kernel records, and what the spec gives no status for are log 43; which base is
chosen is free, log 3): the loader checks an object and reports the status of the first check that fails, and nothing is loaded; or
it places the object whole, with its symbols relocated and its stage sets and placement words filled in, registers its kernels
and reports status 0. It waits while a launch of the image is queued, running or pre-empted. -/
def Obligations.ObjectsArePlacedWhole : Prop :=
  (∀ s q c t cores, LoaderPre s q c t cores → (∀ base, Base105 q base → status108 q.node cores base t q = none) →
    s.imageBusy q.node q.ccn (text108 q t) = false → (∀ base, Base105 q base → loadable108 q.node t (image108 q.node base t (s.disabledOf q.node q.die) q) = true) →
    ∃ s1 base, Base105 q base ∧ BytesNow s s1 (written108 s q.node t (image108 q.node base t (s.disabledOf q.node q.die) q)) ∧
      s1 = { s with waves := s1.waves, deliveries := s1.deliveries, mem := s1.mem, poison := s1.poison, teams := s1.teams, freeCtr := s.freeCtr + 1
                    placed := s.placed.filter (fun p => !(p.node == q.node && p.ccn == q.ccn && sameAddr q.node p.kernel.text (text108 q t))) ++
                      (kernels108 q.node base t (s.disabledOf q.node q.die) q).map (fun k => (⟨q.node, q.die, q.ccn, k⟩ : Placed)) } ∧
      exec (.loaderPlace q) s = .next (reported108 s1 q.node 0)) ∧
  (∀ s q c t cores e, LoaderPre s q c t cores → (∀ base, Base105 q base ∨ (∀ b, ¬ Base105 q b) → status108 q.node cores base t q = some e) →
    exec (.loaderPlace q) s = .next (reported108 s q.node e)) ∧
  (∀ s q c t cores, LoaderPre s q c t cores → (∀ base, Base105 q base → status108 q.node cores base t q = none) →
    s.imageBusy q.node q.ccn (text108 q t) = true → exec (.loaderPlace q) s = .next { s with agenda := s.agenda ++ [.loaderPlace q] }) ∧
  ∀ s q, s.stuck = none → s.ctxs.find? (fun c => c.node == q.node && c.ccn == q.ccn) = none →
    exec (.loaderPlace q) s = .next (reported108 s q.node 7)

/-- R59, R60 (the choice of who acts and the passing of time are the model's, log 2): a step in which wave `w` issues runs the
instruction that the bytes at its program counter decode to, with one nanosecond passed; an event that is due is run in the
same way, and where nothing acts only time passes. -/
def Obligations.StepRunsTheDecodedInstruction : Prop :=
  (∀ s s1 w t l i key, s.choose = (s1, .issue (.wave w.ref)) → s1.wave? w.ref = some w → s1.team? w.ref.team = some t →
    s1.launch? w.ref.team.launch = some l → Decodes s1 w t l i key →
    step s = ticked (exec i { s1 with cur := .wave w.ref })) ∧
  (∀ s s1 i, s.choose = (s1, .event i) → step s = ticked (exec i s1)) ∧
  ∀ s s1, s.choose = (s1, .idle) → s1.stuck = none → step s = .next s1.tick

/-- R356, R374, R380 and the model's choices of logs 1, 2, 12, 22 and 39: after reset there is one node whose measurement slots are zero, with no
context, launch, team, wave, queue or packet, and memory that lists nothing; the invariants of the next two statements hold. -/
def Obligations.ResetMeetsTheInvariants : Prop :=
  State.reset.mem = [] ∧ State.reset.waves = [] ∧ State.reset.teams = [] ∧ State.reset.launches = [] ∧ State.reset.ctxs = [] ∧
  State.reset.streams = [] ∧ State.reset.packets = [] ∧ State.reset.saves = [] ∧ State.reset.poison = [] ∧
  State.reset.nodes.map (fun d => (d.ms, d.booted, d.peers, d.fdoms, d.sfdom)) = [([0, 0, 0, 0, 0, 0, 0, 0], false, [], [], none)] ∧
  Canonical State.reset ∧ Bounded State.reset

/-- R6, R59 (how memory is held is the model's choice, log 1): every step keeps memory, scratchpads and accumulator memories in their
canonical form, so that equal bytes are equal data. -/
def Obligations.MemoryStaysCanonical : Prop := ∀ s s', Canonical s → step s = .next s' → Canonical s'

/-- R15, R29, R183, R192: every step keeps the bounds of each wave's register arrays in order and within the window of 88 registers,
and the depth of an open transaction, and of each alternative in it, from 1 to 15. -/
def Obligations.WaveFieldsStayInRange : Prop := ∀ s s', Bounded s → step s = .next s' → Bounded s'

/-- R6 (how memory is held is the model's choice, log 1): memories in canonical form that read the same at every address are equal;
bytes that are written are read back, and every other byte reads as before. -/
def Obligations.MemoryIsItsBytes : Prop :=
  (∀ m n : Memory, m.wf = true → n.wf = true → (∀ a, m.read a = n.read a) → m = n) ∧
  ∀ (m : Memory) (a : Nat) (bs : List Byte), m.wf = true → (m.writeN a bs).wf = true ∧ (m.writeN a bs).readN a bs.length = bs ∧
    ∀ c, (c < a ∨ a + bs.length ≤ c) → (m.writeN a bs).read c = m.read c

/-- R59 to R67, R79 to R87: the decoder reads the encoder's words of every well-formed instruction, with every operand at every value, as
that instruction, with its length; and every word, and every EX with the word after it, is one well-formed instruction, whose
words these are. -/
def Obligations.EncodingsRoundTrip : Prop :=
  (∀ i, i.wf = true → encode i ≠ [] → decodeWords (encode i) = some (i, 4 * (encode i).length)) ∧
  (∀ w : Word, w.maj ≠ 0x7F → ∃ i, decodeWords [w] = some (i, 4) ∧ i.wf = true ∧ encode i = [w]) ∧
  ∀ x w : Word, x.maj = 0x7F → ∃ i, decodeWords [x, w] = some (i, 8) ∧ i.wf = true ∧ encode i = [x, w]

/-- R61 to R67, R79 to R88: words that the spec's examples write out decode to the instructions that they stand for. -/
def Obligations.WordsOfTheSpecDecode : Prop :=
  ∀ p ∈ words61, decodeWords (p.1.map (BitVec.ofNat 32)) = some (p.2, 4 * p.1.length)

/-- R130: PSET writes p[d] from p[a] and p[b] for each acting item (R24), by the operation of its fn; a field above 7 (R63), and
b7 other than 0 in `.not`, fails the word's check, and an fn from 5 to 15 is reserved. -/
def Obligations.PsetCombinesPredicates : Prop :=
  (∀ x q d a b s w t l, PredPre x (.pset x q d a b) s w t l → ∃ s' w', exec (.pset x q d a b) s = .next s' ∧
    PredPost x (.pset x q d a b) s s' w w' (fun lane => op130 q ((w.pred a.toNat).getLsbD lane) ((w.pred b.toNat).getLsbD lane))) ∧
  (∀ x q d a b w, (8 ≤ d.toNat ∨ 8 ≤ a.toNat ∨ 8 ≤ b.toNat ∨ (q = .not ∧ b ≠ 0)) → (waveCheck w x (wordOf (.pset x q d a b))).isSome = true) ∧
  ∀ (x : Option Ex) (w : Word), w.maj = 0x3A → (5 ≤ w.fn → decodeWord x w = .reservedFnValue x w) ∧
    ∀ q d a b, decodeWord x w = .pset x q d a b → ops130[w.fn]? = some q ∧ w.d7 = d.toNat ∧ w.a7 = a.toNat ∧ w.b7 = b.toNat

/-- R41: a scale code e from 0x00 to 0xFE has the value 2^(e − 127), and 0xFF is NaN. -/
def Obligations.E8m0ScalesArePowersOfTwo : Prop :=
  (∀ e, e < 255 → scaleExp e = some ((e : Int) - 127)) ∧ scaleExp 255 = none ∧
  (∀ (f : Fmt) c e s m k, e < 255 → f.decode c = .fin s m k → xb8Val f c e = .fin s m (k + ((e : Int) - 127))) ∧
  ∀ (f : Fmt) c z, xb8Val f c 255 = .nan ∧ xb4Val c 255 z = .nan

/-- R16, R20, R24, R79, R272, R273, R276, R281: an arithmetic instruction of a launch span or a team span whose EX selects every item
writes each item's result when its result has form U or A and it reads none of lane, wv and tm of a launch; otherwise it deals
the launch, or cuts the team, with every item as it stood, and has not run. -/
def Obligations.SpansComputeOrMaterialise : Prop := ∀ i r, intRule i = some r →
  (∀ s l j b, SpanPre r i s l l.subs j b → s.cur = .launch l.num j → l.dealt = false →
    ∃ s', exec i s = .next s' ∧ LaunchSpanPost r i s s' l j b) ∧
  ∀ s l t j b, SpanPre r i s l t.subs j b → s.cur = .team t.ref j → s.team? t.ref = some t → t.ref.launch = l.num → t.cut = false →
    ∃ s', exec i s = .next s' ∧ TeamSpanPost r i s s' l t j b

/-- R46, R53, R230, R236 to R242: an MMA, MMAB or MMAS computes its micro-tiles or blocks of C := C + A·Bᵀ in order, from slabs, unfolded
or masked rows, slice by slice, and under `.rank` pushes the outputs into its list; it stops at the first that it cannot read, and
changes no other word. R57, R243 to R247: the main pass of an ATTN applies each block whole, or drops it. R251 to R253: ATTNFIN divides,
and FOLD folds. That a command runs whole at its start, with the model's readings of these rules, is log 32. -/
def Obligations.MatrixAndAttentionCommandsCompute : Prop :=
  (∀ q s c t l, MatrixPre s q c t l → ∃ s', exec (.engineCommandStart q) s = .next s' ∧ MatrixPost s s' q c t l) ∧
  (∀ q s c t l kb vb, AttnPre s q c t l kb vb → ∃ s', exec (.engineCommandStart q) s = .next s' ∧ AttnPost s s' q c t l kb vb) ∧
  (∀ q s c t l, FinPre s q c t l → ∃ s', exec (.engineCommandStart q) s = .next s' ∧ FinPost s s' q c t l) ∧
  ∀ q s c t l, FoldPre s q c t l → ∃ s', exec (.engineCommandStart q) s = .next s' ∧ FoldPost s s' q c t l
end

