-- ==== Sys2Proof/Laws/Memory.lean ====
section
/-! SUPPORT. Memory: what a read gives after a write, and that every memory operation keeps the canonical form. -/
namespace Sys2Proof.Laws
open Sys2Proof Sys2Proof.Machine

/-! ### Reading -/

@[simp] theorem read_nil (a : Nat) : Memory.read [] a = unlisted := rfl

theorem read_cons (c : Host.Cell) (t : Memory) (a : Nat) : Memory.read (c :: t) a = if c.1 = a then c.2 else Memory.read t a := by
  simp [Memory.read]

/-- A cleared range reads as unlisted, and every other address as before. -/
theorem read_clear (m : Memory) (a n c : Nat) : (m.clear a n).read c = if a ≤ c ∧ c < a + n then unlisted else m.read c := by
  unfold Memory.clear
  induction m with
  | nil => simp
  | cons e t ih =>
    rw [List.filter_cons]
    by_cases hp : a ≤ e.1 ∧ e.1 < a + n
    · rw [if_neg (by simp [hp]), ih, read_cons]
      by_cases hc : e.1 = c
      · subst hc; simp [hp]
      · simp [hc]
    · have hp' : (!(decide (a ≤ e.1) && decide (e.1 < a + n))) = true := by
        simp only [Bool.not_eq_true', Bool.and_eq_false_iff, decide_eq_false_iff_not]; omega
      rw [if_pos hp', read_cons, read_cons, ih]
      by_cases hc : e.1 = c
      · subst hc; simp [hp]
      · simp [hc]

/-- A cleared address is listed no more. -/
theorem not_mem_clear {m : Memory} {a : Nat} {e : Host.Cell} (h : e ∈ m.clear a 1) : e.1 ≠ a := by
  have := (List.mem_filter.mp h).2
  simp only [Bool.not_eq_true', Bool.and_eq_false_iff, decide_eq_false_iff_not] at this
  omega

/-- An inserted cell of an address that is not listed reads as it was inserted, and every other address as before. -/
theorem read_insert : ∀ {m : Memory} {a : Nat}, (∀ e ∈ m, e.1 ≠ a) → ∀ (b : Byte) (c : Nat),
    (m.insert a b).read c = if c = a then b else m.read c
  | [], a, _, b, c => by
    show Memory.read [(a, b)] c = _
    rw [read_cons, read_nil]
    by_cases h : c = a
    · rw [if_pos h.symm, if_pos h]
    · rw [if_neg (Ne.symm h), if_neg h]
  | e :: t, a, hm, b, c => by
    have he : e.1 ≠ a := hm e (by simp)
    unfold Memory.insert
    split
    · rw [read_cons]
      by_cases h : c = a
      · rw [if_pos h.symm, if_pos h]
      · rw [if_neg (Ne.symm h), if_neg h]
    · rw [read_cons, read_cons, read_insert (fun x hx => hm x (by simp [hx])) b c]
      by_cases h : e.1 = c
      · rw [if_pos h, if_pos h, if_neg (by omega)]
      · rw [if_neg h, if_neg h]

/-- One address reads as what was written, and every other as before. -/
theorem read_write (m : Memory) (a c : Nat) (b : Byte) : (m.write a b).read c = if c = a then b else m.read c := by
  unfold Memory.write
  split
  · rename_i hb
    rw [read_clear, beq_iff_eq.mp hb]
    by_cases h : c = a
    · rw [if_pos (by omega), if_pos h]
    · rw [if_neg (by omega), if_neg h]
  · rw [read_insert (fun _ h => not_mem_clear h)]
    by_cases h : c = a
    · rw [if_pos h, if_pos h]
    · rw [if_neg h, if_neg h, read_clear, if_neg (by omega)]

/-! ### The canonical form is kept -/

theorem above_trans {t : Memory} {lo hi : Nat} (h : lo < hi) (ht : t.above hi = true) : t.above lo = true := by
  cases t with
  | nil => rfl
  | cons f u =>
    have : hi < f.1 := by simpa [Memory.above] using ht
    have : lo < f.1 := by omega
    simpa [Memory.above] using this

theorem above_filter {m : Memory} {p : Host.Cell → Bool} {lo : Nat} : m.wf = true → m.above lo = true → Memory.above lo (m.filter p) = true := by
  induction m generalizing lo with
  | nil => intro _ _; rfl
  | cons e t ih =>
    intro hw h
    simp only [Memory.wf, Bool.and_eq_true] at hw
    have he : lo < e.1 := by simpa [Memory.above] using h
    rw [List.filter_cons]
    split
    · simpa [Memory.above] using he
    · exact ih hw.2 (above_trans he hw.1.2)

/-- Clearing a range keeps the canonical form. -/
theorem clear_wf {m : Memory} (h : m.wf = true) (a n : Nat) : (m.clear a n).wf = true := by
  unfold Memory.clear
  induction m with
  | nil => rfl
  | cons e t ih =>
    simp only [Memory.wf, Bool.and_eq_true] at h
    rw [List.filter_cons]
    split
    · show (e.2 != unlisted && Memory.above e.1 (List.filter _ t) && Memory.wf (List.filter _ t)) = true
      rw [h.1.1, above_filter h.2 h.1.2, ih h.2]; rfl
    · exact ih h.2

theorem above_insert {m : Memory} {lo a : Nat} {b : Byte} (h : m.above lo = true) (ha : lo < a) : (m.insert a b).above lo = true := by
  cases m with
  | nil => simpa [Memory.insert, Memory.above] using ha
  | cons e t =>
    unfold Memory.insert
    split
    · simpa [Memory.above] using ha
    · simpa [Memory.above] using h

/-- Inserting a cell of an address that is not listed keeps the canonical form. -/
theorem insert_wf : ∀ {m : Memory} {a : Nat} {b : Byte}, m.wf = true → (∀ e ∈ m, e.1 ≠ a) → (b != unlisted) = true → (m.insert a b).wf = true
  | [], a, b, _, _, hb => by simpa [Memory.insert, Memory.wf, Memory.above] using hb
  | e :: t, a, b, hw, hm, hb => by
    have he : e.1 ≠ a := hm e (by simp)
    have hw' := hw
    simp only [Memory.wf, Bool.and_eq_true] at hw
    unfold Memory.insert
    split
    · rename_i hlt
      have hl : Memory.above a (e :: t) = true := by simpa [Memory.above] using hlt
      show (b != unlisted && Memory.above a (e :: t) && Memory.wf (e :: t)) = true
      rw [hb, hl, hw']; rfl
    · show (e.2 != unlisted && Memory.above e.1 (Memory.insert t a b) && Memory.wf (Memory.insert t a b)) = true
      rw [hw.1.1, above_insert hw.1.2 (by omega), insert_wf hw.2 (fun x hx => hm x (by simp [hx])) hb]; rfl

/-- A write of one byte keeps the canonical form. -/
theorem write_wf {m : Memory} (h : m.wf = true) (a : Nat) (b : Byte) : (m.write a b).wf = true := by
  unfold Memory.write
  split
  · exact clear_wf h a 1
  · rename_i hb
    exact insert_wf (clear_wf h a 1) (fun _ h => not_mem_clear h) (by simpa using hb)

/-- A write of bytes keeps the canonical form. -/
theorem writeN_wf : ∀ (bs : List Byte) {m : Memory}, m.wf = true → ∀ a, (m.writeN a bs).wf = true
  | [], _, h, _ => h
  | b :: t, _, h, a => writeN_wf t (write_wf h a b) (a + 1)

/-- The memory after reset is in canonical form. -/
theorem reset_wf : State.reset.mem.wf = true := rfl

/-! ### Runs of bytes -/

@[simp] theorem readN_length (m : Memory) : ∀ (n a : Nat), (m.readN a n).length = n
  | 0, _ => rfl
  | n + 1, a => by simp [Memory.readN, readN_length m n]

/-- An address below a run that is written reads as before. -/
theorem read_writeN_below : ∀ (bs : List Byte) (m : Memory) {a c : Nat}, c < a → (m.writeN a bs).read c = m.read c
  | [], _, _, _, _ => rfl
  | b :: t, m, a, c, hc => by
    show (Memory.writeN (m.write a b) (a + 1) t).read c = _
    rw [read_writeN_below t _ (by omega), read_write, if_neg (by omega)]

end Sys2Proof.Laws
end

