-- ==== Sys2Proof/Laws/State.lean ====
section
/-! SUPPORT. What each named update of the state leaves: one lemma for each field that it does not change, and the value of the
field that it does. -/
namespace Sys2Proof.Laws
open Sys2Proof Sys2Proof.Machine

/-! ### setWave -/

@[simp] theorem setWave_mem (s : State) (w : Wave) : (s.setWave w).mem = s.mem := rfl
@[simp] theorem setWave_poison (s : State) (w : Wave) : (s.setWave w).poison = s.poison := rfl
@[simp] theorem setWave_nodes (s : State) (w : Wave) : (s.setWave w).nodes = s.nodes := rfl
@[simp] theorem setWave_ctxs (s : State) (w : Wave) : (s.setWave w).ctxs = s.ctxs := rfl
@[simp] theorem setWave_placed (s : State) (w : Wave) : (s.setWave w).placed = s.placed := rfl
@[simp] theorem setWave_launches (s : State) (w : Wave) : (s.setWave w).launches = s.launches := rfl
@[simp] theorem setWave_teams (s : State) (w : Wave) : (s.setWave w).teams = s.teams := rfl
@[simp] theorem setWave_streams (s : State) (w : Wave) : (s.setWave w).streams = s.streams := rfl
@[simp] theorem setWave_cores (s : State) (w : Wave) : (s.setWave w).cores = s.cores := rfl
@[simp] theorem setWave_packets (s : State) (w : Wave) : (s.setWave w).packets = s.packets := rfl
@[simp] theorem setWave_deadStreams (s : State) (w : Wave) : (s.setWave w).deadStreams = s.deadStreams := rfl
@[simp] theorem setWave_deliveries (s : State) (w : Wave) : (s.setWave w).deliveries = s.deliveries := rfl
@[simp] theorem setWave_barriers (s : State) (w : Wave) : (s.setWave w).barriers = s.barriers := rfl
@[simp] theorem setWave_arrivals (s : State) (w : Wave) : (s.setWave w).arrivals = s.arrivals := rfl
@[simp] theorem setWave_shoots (s : State) (w : Wave) : (s.setWave w).shoots = s.shoots := rfl
@[simp] theorem setWave_saves (s : State) (w : Wave) : (s.setWave w).saves = s.saves := rfl
@[simp] theorem setWave_gangRoot (s : State) (w : Wave) : (s.setWave w).gangRoot = s.gangRoot := rfl
@[simp] theorem setWave_replies (s : State) (w : Wave) : (s.setWave w).replies = s.replies := rfl
@[simp] theorem setWave_time (s : State) (w : Wave) : (s.setWave w).time = s.time := rfl
@[simp] theorem setWave_freeCtr (s : State) (w : Wave) : (s.setWave w).freeCtr = s.freeCtr := rfl
@[simp] theorem setWave_nextNum (s : State) (w : Wave) : (s.setWave w).nextNum = s.nextNum := rfl
@[simp] theorem setWave_cur (s : State) (w : Wave) : (s.setWave w).cur = s.cur := rfl
@[simp] theorem setWave_agenda (s : State) (w : Wave) : (s.setWave w).agenda = s.agenda := rfl
@[simp] theorem setWave_queue (s : State) (w : Wave) : (s.setWave w).queue = s.queue := rfl
@[simp] theorem setWave_answers (s : State) (w : Wave) : (s.setWave w).answers = s.answers := rfl
@[simp] theorem setWave_stuck (s : State) (w : Wave) : (s.setWave w).stuck = s.stuck := rfl

/-! ### modWave -/

@[simp] theorem modWave_mem (s : State) (r : WaveRef) (f : Wave → Wave) : (s.modWave r f).mem = s.mem := rfl
@[simp] theorem modWave_poison (s : State) (r : WaveRef) (f : Wave → Wave) : (s.modWave r f).poison = s.poison := rfl
@[simp] theorem modWave_nodes (s : State) (r : WaveRef) (f : Wave → Wave) : (s.modWave r f).nodes = s.nodes := rfl
@[simp] theorem modWave_ctxs (s : State) (r : WaveRef) (f : Wave → Wave) : (s.modWave r f).ctxs = s.ctxs := rfl
@[simp] theorem modWave_placed (s : State) (r : WaveRef) (f : Wave → Wave) : (s.modWave r f).placed = s.placed := rfl
@[simp] theorem modWave_launches (s : State) (r : WaveRef) (f : Wave → Wave) : (s.modWave r f).launches = s.launches := rfl
@[simp] theorem modWave_teams (s : State) (r : WaveRef) (f : Wave → Wave) : (s.modWave r f).teams = s.teams := rfl
@[simp] theorem modWave_streams (s : State) (r : WaveRef) (f : Wave → Wave) : (s.modWave r f).streams = s.streams := rfl
@[simp] theorem modWave_cores (s : State) (r : WaveRef) (f : Wave → Wave) : (s.modWave r f).cores = s.cores := rfl
@[simp] theorem modWave_packets (s : State) (r : WaveRef) (f : Wave → Wave) : (s.modWave r f).packets = s.packets := rfl
@[simp] theorem modWave_deadStreams (s : State) (r : WaveRef) (f : Wave → Wave) : (s.modWave r f).deadStreams = s.deadStreams := rfl
@[simp] theorem modWave_deliveries (s : State) (r : WaveRef) (f : Wave → Wave) : (s.modWave r f).deliveries = s.deliveries := rfl
@[simp] theorem modWave_barriers (s : State) (r : WaveRef) (f : Wave → Wave) : (s.modWave r f).barriers = s.barriers := rfl
@[simp] theorem modWave_arrivals (s : State) (r : WaveRef) (f : Wave → Wave) : (s.modWave r f).arrivals = s.arrivals := rfl
@[simp] theorem modWave_shoots (s : State) (r : WaveRef) (f : Wave → Wave) : (s.modWave r f).shoots = s.shoots := rfl
@[simp] theorem modWave_saves (s : State) (r : WaveRef) (f : Wave → Wave) : (s.modWave r f).saves = s.saves := rfl
@[simp] theorem modWave_gangRoot (s : State) (r : WaveRef) (f : Wave → Wave) : (s.modWave r f).gangRoot = s.gangRoot := rfl
@[simp] theorem modWave_replies (s : State) (r : WaveRef) (f : Wave → Wave) : (s.modWave r f).replies = s.replies := rfl
@[simp] theorem modWave_time (s : State) (r : WaveRef) (f : Wave → Wave) : (s.modWave r f).time = s.time := rfl
@[simp] theorem modWave_freeCtr (s : State) (r : WaveRef) (f : Wave → Wave) : (s.modWave r f).freeCtr = s.freeCtr := rfl
@[simp] theorem modWave_nextNum (s : State) (r : WaveRef) (f : Wave → Wave) : (s.modWave r f).nextNum = s.nextNum := rfl
@[simp] theorem modWave_cur (s : State) (r : WaveRef) (f : Wave → Wave) : (s.modWave r f).cur = s.cur := rfl
@[simp] theorem modWave_agenda (s : State) (r : WaveRef) (f : Wave → Wave) : (s.modWave r f).agenda = s.agenda := rfl
@[simp] theorem modWave_queue (s : State) (r : WaveRef) (f : Wave → Wave) : (s.modWave r f).queue = s.queue := rfl
@[simp] theorem modWave_answers (s : State) (r : WaveRef) (f : Wave → Wave) : (s.modWave r f).answers = s.answers := rfl
@[simp] theorem modWave_stuck (s : State) (r : WaveRef) (f : Wave → Wave) : (s.modWave r f).stuck = s.stuck := rfl

/-! ### setTeam -/

@[simp] theorem setTeam_mem (s : State) (t : Team) : (s.setTeam t).mem = s.mem := rfl
@[simp] theorem setTeam_poison (s : State) (t : Team) : (s.setTeam t).poison = s.poison := rfl
@[simp] theorem setTeam_nodes (s : State) (t : Team) : (s.setTeam t).nodes = s.nodes := rfl
@[simp] theorem setTeam_ctxs (s : State) (t : Team) : (s.setTeam t).ctxs = s.ctxs := rfl
@[simp] theorem setTeam_placed (s : State) (t : Team) : (s.setTeam t).placed = s.placed := rfl
@[simp] theorem setTeam_launches (s : State) (t : Team) : (s.setTeam t).launches = s.launches := rfl
@[simp] theorem setTeam_waves (s : State) (t : Team) : (s.setTeam t).waves = s.waves := rfl
@[simp] theorem setTeam_streams (s : State) (t : Team) : (s.setTeam t).streams = s.streams := rfl
@[simp] theorem setTeam_cores (s : State) (t : Team) : (s.setTeam t).cores = s.cores := rfl
@[simp] theorem setTeam_packets (s : State) (t : Team) : (s.setTeam t).packets = s.packets := rfl
@[simp] theorem setTeam_deadStreams (s : State) (t : Team) : (s.setTeam t).deadStreams = s.deadStreams := rfl
@[simp] theorem setTeam_deliveries (s : State) (t : Team) : (s.setTeam t).deliveries = s.deliveries := rfl
@[simp] theorem setTeam_barriers (s : State) (t : Team) : (s.setTeam t).barriers = s.barriers := rfl
@[simp] theorem setTeam_arrivals (s : State) (t : Team) : (s.setTeam t).arrivals = s.arrivals := rfl
@[simp] theorem setTeam_shoots (s : State) (t : Team) : (s.setTeam t).shoots = s.shoots := rfl
@[simp] theorem setTeam_saves (s : State) (t : Team) : (s.setTeam t).saves = s.saves := rfl
@[simp] theorem setTeam_gangRoot (s : State) (t : Team) : (s.setTeam t).gangRoot = s.gangRoot := rfl
@[simp] theorem setTeam_replies (s : State) (t : Team) : (s.setTeam t).replies = s.replies := rfl
@[simp] theorem setTeam_time (s : State) (t : Team) : (s.setTeam t).time = s.time := rfl
@[simp] theorem setTeam_freeCtr (s : State) (t : Team) : (s.setTeam t).freeCtr = s.freeCtr := rfl
@[simp] theorem setTeam_nextNum (s : State) (t : Team) : (s.setTeam t).nextNum = s.nextNum := rfl
@[simp] theorem setTeam_cur (s : State) (t : Team) : (s.setTeam t).cur = s.cur := rfl
@[simp] theorem setTeam_agenda (s : State) (t : Team) : (s.setTeam t).agenda = s.agenda := rfl
@[simp] theorem setTeam_queue (s : State) (t : Team) : (s.setTeam t).queue = s.queue := rfl
@[simp] theorem setTeam_answers (s : State) (t : Team) : (s.setTeam t).answers = s.answers := rfl
@[simp] theorem setTeam_stuck (s : State) (t : Team) : (s.setTeam t).stuck = s.stuck := rfl

/-! ### modTeam -/

@[simp] theorem modTeam_mem (s : State) (t : TeamRef) (f : Team → Team) : (s.modTeam t f).mem = s.mem := rfl
@[simp] theorem modTeam_poison (s : State) (t : TeamRef) (f : Team → Team) : (s.modTeam t f).poison = s.poison := rfl
@[simp] theorem modTeam_nodes (s : State) (t : TeamRef) (f : Team → Team) : (s.modTeam t f).nodes = s.nodes := rfl
@[simp] theorem modTeam_ctxs (s : State) (t : TeamRef) (f : Team → Team) : (s.modTeam t f).ctxs = s.ctxs := rfl
@[simp] theorem modTeam_placed (s : State) (t : TeamRef) (f : Team → Team) : (s.modTeam t f).placed = s.placed := rfl
@[simp] theorem modTeam_launches (s : State) (t : TeamRef) (f : Team → Team) : (s.modTeam t f).launches = s.launches := rfl
@[simp] theorem modTeam_waves (s : State) (t : TeamRef) (f : Team → Team) : (s.modTeam t f).waves = s.waves := rfl
@[simp] theorem modTeam_streams (s : State) (t : TeamRef) (f : Team → Team) : (s.modTeam t f).streams = s.streams := rfl
@[simp] theorem modTeam_cores (s : State) (t : TeamRef) (f : Team → Team) : (s.modTeam t f).cores = s.cores := rfl
@[simp] theorem modTeam_packets (s : State) (t : TeamRef) (f : Team → Team) : (s.modTeam t f).packets = s.packets := rfl
@[simp] theorem modTeam_deadStreams (s : State) (t : TeamRef) (f : Team → Team) : (s.modTeam t f).deadStreams = s.deadStreams := rfl
@[simp] theorem modTeam_deliveries (s : State) (t : TeamRef) (f : Team → Team) : (s.modTeam t f).deliveries = s.deliveries := rfl
@[simp] theorem modTeam_barriers (s : State) (t : TeamRef) (f : Team → Team) : (s.modTeam t f).barriers = s.barriers := rfl
@[simp] theorem modTeam_arrivals (s : State) (t : TeamRef) (f : Team → Team) : (s.modTeam t f).arrivals = s.arrivals := rfl
@[simp] theorem modTeam_shoots (s : State) (t : TeamRef) (f : Team → Team) : (s.modTeam t f).shoots = s.shoots := rfl
@[simp] theorem modTeam_saves (s : State) (t : TeamRef) (f : Team → Team) : (s.modTeam t f).saves = s.saves := rfl
@[simp] theorem modTeam_gangRoot (s : State) (t : TeamRef) (f : Team → Team) : (s.modTeam t f).gangRoot = s.gangRoot := rfl
@[simp] theorem modTeam_replies (s : State) (t : TeamRef) (f : Team → Team) : (s.modTeam t f).replies = s.replies := rfl
@[simp] theorem modTeam_time (s : State) (t : TeamRef) (f : Team → Team) : (s.modTeam t f).time = s.time := rfl
@[simp] theorem modTeam_freeCtr (s : State) (t : TeamRef) (f : Team → Team) : (s.modTeam t f).freeCtr = s.freeCtr := rfl
@[simp] theorem modTeam_nextNum (s : State) (t : TeamRef) (f : Team → Team) : (s.modTeam t f).nextNum = s.nextNum := rfl
@[simp] theorem modTeam_cur (s : State) (t : TeamRef) (f : Team → Team) : (s.modTeam t f).cur = s.cur := rfl
@[simp] theorem modTeam_agenda (s : State) (t : TeamRef) (f : Team → Team) : (s.modTeam t f).agenda = s.agenda := rfl
@[simp] theorem modTeam_queue (s : State) (t : TeamRef) (f : Team → Team) : (s.modTeam t f).queue = s.queue := rfl
@[simp] theorem modTeam_answers (s : State) (t : TeamRef) (f : Team → Team) : (s.modTeam t f).answers = s.answers := rfl
@[simp] theorem modTeam_stuck (s : State) (t : TeamRef) (f : Team → Team) : (s.modTeam t f).stuck = s.stuck := rfl

/-! ### setLaunch -/

@[simp] theorem setLaunch_mem (s : State) (l : Launch) : (s.setLaunch l).mem = s.mem := rfl
@[simp] theorem setLaunch_poison (s : State) (l : Launch) : (s.setLaunch l).poison = s.poison := rfl
@[simp] theorem setLaunch_nodes (s : State) (l : Launch) : (s.setLaunch l).nodes = s.nodes := rfl
@[simp] theorem setLaunch_ctxs (s : State) (l : Launch) : (s.setLaunch l).ctxs = s.ctxs := rfl
@[simp] theorem setLaunch_placed (s : State) (l : Launch) : (s.setLaunch l).placed = s.placed := rfl
@[simp] theorem setLaunch_teams (s : State) (l : Launch) : (s.setLaunch l).teams = s.teams := rfl
@[simp] theorem setLaunch_waves (s : State) (l : Launch) : (s.setLaunch l).waves = s.waves := rfl
@[simp] theorem setLaunch_streams (s : State) (l : Launch) : (s.setLaunch l).streams = s.streams := rfl
@[simp] theorem setLaunch_cores (s : State) (l : Launch) : (s.setLaunch l).cores = s.cores := rfl
@[simp] theorem setLaunch_packets (s : State) (l : Launch) : (s.setLaunch l).packets = s.packets := rfl
@[simp] theorem setLaunch_deadStreams (s : State) (l : Launch) : (s.setLaunch l).deadStreams = s.deadStreams := rfl
@[simp] theorem setLaunch_deliveries (s : State) (l : Launch) : (s.setLaunch l).deliveries = s.deliveries := rfl
@[simp] theorem setLaunch_barriers (s : State) (l : Launch) : (s.setLaunch l).barriers = s.barriers := rfl
@[simp] theorem setLaunch_arrivals (s : State) (l : Launch) : (s.setLaunch l).arrivals = s.arrivals := rfl
@[simp] theorem setLaunch_shoots (s : State) (l : Launch) : (s.setLaunch l).shoots = s.shoots := rfl
@[simp] theorem setLaunch_saves (s : State) (l : Launch) : (s.setLaunch l).saves = s.saves := rfl
@[simp] theorem setLaunch_gangRoot (s : State) (l : Launch) : (s.setLaunch l).gangRoot = s.gangRoot := rfl
@[simp] theorem setLaunch_replies (s : State) (l : Launch) : (s.setLaunch l).replies = s.replies := rfl
@[simp] theorem setLaunch_time (s : State) (l : Launch) : (s.setLaunch l).time = s.time := rfl
@[simp] theorem setLaunch_freeCtr (s : State) (l : Launch) : (s.setLaunch l).freeCtr = s.freeCtr := rfl
@[simp] theorem setLaunch_nextNum (s : State) (l : Launch) : (s.setLaunch l).nextNum = s.nextNum := rfl
@[simp] theorem setLaunch_cur (s : State) (l : Launch) : (s.setLaunch l).cur = s.cur := rfl
@[simp] theorem setLaunch_agenda (s : State) (l : Launch) : (s.setLaunch l).agenda = s.agenda := rfl
@[simp] theorem setLaunch_queue (s : State) (l : Launch) : (s.setLaunch l).queue = s.queue := rfl
@[simp] theorem setLaunch_answers (s : State) (l : Launch) : (s.setLaunch l).answers = s.answers := rfl
@[simp] theorem setLaunch_stuck (s : State) (l : Launch) : (s.setLaunch l).stuck = s.stuck := rfl

/-! ### setNode -/

@[simp] theorem setNode_mem (s : State) (d : Node) : (s.setNode d).mem = s.mem := rfl
@[simp] theorem setNode_poison (s : State) (d : Node) : (s.setNode d).poison = s.poison := rfl
@[simp] theorem setNode_ctxs (s : State) (d : Node) : (s.setNode d).ctxs = s.ctxs := rfl
@[simp] theorem setNode_placed (s : State) (d : Node) : (s.setNode d).placed = s.placed := rfl
@[simp] theorem setNode_launches (s : State) (d : Node) : (s.setNode d).launches = s.launches := rfl
@[simp] theorem setNode_teams (s : State) (d : Node) : (s.setNode d).teams = s.teams := rfl
@[simp] theorem setNode_waves (s : State) (d : Node) : (s.setNode d).waves = s.waves := rfl
@[simp] theorem setNode_streams (s : State) (d : Node) : (s.setNode d).streams = s.streams := rfl
@[simp] theorem setNode_cores (s : State) (d : Node) : (s.setNode d).cores = s.cores := rfl
@[simp] theorem setNode_packets (s : State) (d : Node) : (s.setNode d).packets = s.packets := rfl
@[simp] theorem setNode_deadStreams (s : State) (d : Node) : (s.setNode d).deadStreams = s.deadStreams := rfl
@[simp] theorem setNode_deliveries (s : State) (d : Node) : (s.setNode d).deliveries = s.deliveries := rfl
@[simp] theorem setNode_barriers (s : State) (d : Node) : (s.setNode d).barriers = s.barriers := rfl
@[simp] theorem setNode_arrivals (s : State) (d : Node) : (s.setNode d).arrivals = s.arrivals := rfl
@[simp] theorem setNode_shoots (s : State) (d : Node) : (s.setNode d).shoots = s.shoots := rfl
@[simp] theorem setNode_saves (s : State) (d : Node) : (s.setNode d).saves = s.saves := rfl
@[simp] theorem setNode_gangRoot (s : State) (d : Node) : (s.setNode d).gangRoot = s.gangRoot := rfl
@[simp] theorem setNode_replies (s : State) (d : Node) : (s.setNode d).replies = s.replies := rfl
@[simp] theorem setNode_time (s : State) (d : Node) : (s.setNode d).time = s.time := rfl
@[simp] theorem setNode_freeCtr (s : State) (d : Node) : (s.setNode d).freeCtr = s.freeCtr := rfl
@[simp] theorem setNode_nextNum (s : State) (d : Node) : (s.setNode d).nextNum = s.nextNum := rfl
@[simp] theorem setNode_cur (s : State) (d : Node) : (s.setNode d).cur = s.cur := rfl
@[simp] theorem setNode_agenda (s : State) (d : Node) : (s.setNode d).agenda = s.agenda := rfl
@[simp] theorem setNode_queue (s : State) (d : Node) : (s.setNode d).queue = s.queue := rfl
@[simp] theorem setNode_answers (s : State) (d : Node) : (s.setNode d).answers = s.answers := rfl
@[simp] theorem setNode_stuck (s : State) (d : Node) : (s.setNode d).stuck = s.stuck := rfl

/-! ### modNode -/

@[simp] theorem modNode_mem (s : State) (n : Nat) (f : Node → Node) : (s.modNode n f).mem = s.mem := rfl
@[simp] theorem modNode_poison (s : State) (n : Nat) (f : Node → Node) : (s.modNode n f).poison = s.poison := rfl
@[simp] theorem modNode_ctxs (s : State) (n : Nat) (f : Node → Node) : (s.modNode n f).ctxs = s.ctxs := rfl
@[simp] theorem modNode_placed (s : State) (n : Nat) (f : Node → Node) : (s.modNode n f).placed = s.placed := rfl
@[simp] theorem modNode_launches (s : State) (n : Nat) (f : Node → Node) : (s.modNode n f).launches = s.launches := rfl
@[simp] theorem modNode_teams (s : State) (n : Nat) (f : Node → Node) : (s.modNode n f).teams = s.teams := rfl
@[simp] theorem modNode_waves (s : State) (n : Nat) (f : Node → Node) : (s.modNode n f).waves = s.waves := rfl
@[simp] theorem modNode_streams (s : State) (n : Nat) (f : Node → Node) : (s.modNode n f).streams = s.streams := rfl
@[simp] theorem modNode_cores (s : State) (n : Nat) (f : Node → Node) : (s.modNode n f).cores = s.cores := rfl
@[simp] theorem modNode_packets (s : State) (n : Nat) (f : Node → Node) : (s.modNode n f).packets = s.packets := rfl
@[simp] theorem modNode_deadStreams (s : State) (n : Nat) (f : Node → Node) : (s.modNode n f).deadStreams = s.deadStreams := rfl
@[simp] theorem modNode_deliveries (s : State) (n : Nat) (f : Node → Node) : (s.modNode n f).deliveries = s.deliveries := rfl
@[simp] theorem modNode_barriers (s : State) (n : Nat) (f : Node → Node) : (s.modNode n f).barriers = s.barriers := rfl
@[simp] theorem modNode_arrivals (s : State) (n : Nat) (f : Node → Node) : (s.modNode n f).arrivals = s.arrivals := rfl
@[simp] theorem modNode_shoots (s : State) (n : Nat) (f : Node → Node) : (s.modNode n f).shoots = s.shoots := rfl
@[simp] theorem modNode_saves (s : State) (n : Nat) (f : Node → Node) : (s.modNode n f).saves = s.saves := rfl
@[simp] theorem modNode_gangRoot (s : State) (n : Nat) (f : Node → Node) : (s.modNode n f).gangRoot = s.gangRoot := rfl
@[simp] theorem modNode_replies (s : State) (n : Nat) (f : Node → Node) : (s.modNode n f).replies = s.replies := rfl
@[simp] theorem modNode_time (s : State) (n : Nat) (f : Node → Node) : (s.modNode n f).time = s.time := rfl
@[simp] theorem modNode_freeCtr (s : State) (n : Nat) (f : Node → Node) : (s.modNode n f).freeCtr = s.freeCtr := rfl
@[simp] theorem modNode_nextNum (s : State) (n : Nat) (f : Node → Node) : (s.modNode n f).nextNum = s.nextNum := rfl
@[simp] theorem modNode_cur (s : State) (n : Nat) (f : Node → Node) : (s.modNode n f).cur = s.cur := rfl
@[simp] theorem modNode_agenda (s : State) (n : Nat) (f : Node → Node) : (s.modNode n f).agenda = s.agenda := rfl
@[simp] theorem modNode_queue (s : State) (n : Nat) (f : Node → Node) : (s.modNode n f).queue = s.queue := rfl
@[simp] theorem modNode_answers (s : State) (n : Nat) (f : Node → Node) : (s.modNode n f).answers = s.answers := rfl
@[simp] theorem modNode_stuck (s : State) (n : Nat) (f : Node → Node) : (s.modNode n f).stuck = s.stuck := rfl

/-! ### setStream -/

@[simp] theorem setStream_mem (s : State) (q : Stream) : (s.setStream q).mem = s.mem := rfl
@[simp] theorem setStream_poison (s : State) (q : Stream) : (s.setStream q).poison = s.poison := rfl
@[simp] theorem setStream_nodes (s : State) (q : Stream) : (s.setStream q).nodes = s.nodes := rfl
@[simp] theorem setStream_ctxs (s : State) (q : Stream) : (s.setStream q).ctxs = s.ctxs := rfl
@[simp] theorem setStream_placed (s : State) (q : Stream) : (s.setStream q).placed = s.placed := rfl
@[simp] theorem setStream_launches (s : State) (q : Stream) : (s.setStream q).launches = s.launches := rfl
@[simp] theorem setStream_teams (s : State) (q : Stream) : (s.setStream q).teams = s.teams := rfl
@[simp] theorem setStream_waves (s : State) (q : Stream) : (s.setStream q).waves = s.waves := rfl
@[simp] theorem setStream_cores (s : State) (q : Stream) : (s.setStream q).cores = s.cores := rfl
@[simp] theorem setStream_packets (s : State) (q : Stream) : (s.setStream q).packets = s.packets := rfl
@[simp] theorem setStream_deadStreams (s : State) (q : Stream) : (s.setStream q).deadStreams = s.deadStreams := rfl
@[simp] theorem setStream_deliveries (s : State) (q : Stream) : (s.setStream q).deliveries = s.deliveries := rfl
@[simp] theorem setStream_barriers (s : State) (q : Stream) : (s.setStream q).barriers = s.barriers := rfl
@[simp] theorem setStream_arrivals (s : State) (q : Stream) : (s.setStream q).arrivals = s.arrivals := rfl
@[simp] theorem setStream_shoots (s : State) (q : Stream) : (s.setStream q).shoots = s.shoots := rfl
@[simp] theorem setStream_saves (s : State) (q : Stream) : (s.setStream q).saves = s.saves := rfl
@[simp] theorem setStream_gangRoot (s : State) (q : Stream) : (s.setStream q).gangRoot = s.gangRoot := rfl
@[simp] theorem setStream_replies (s : State) (q : Stream) : (s.setStream q).replies = s.replies := rfl
@[simp] theorem setStream_time (s : State) (q : Stream) : (s.setStream q).time = s.time := rfl
@[simp] theorem setStream_freeCtr (s : State) (q : Stream) : (s.setStream q).freeCtr = s.freeCtr := rfl
@[simp] theorem setStream_nextNum (s : State) (q : Stream) : (s.setStream q).nextNum = s.nextNum := rfl
@[simp] theorem setStream_cur (s : State) (q : Stream) : (s.setStream q).cur = s.cur := rfl
@[simp] theorem setStream_agenda (s : State) (q : Stream) : (s.setStream q).agenda = s.agenda := rfl
@[simp] theorem setStream_queue (s : State) (q : Stream) : (s.setStream q).queue = s.queue := rfl
@[simp] theorem setStream_answers (s : State) (q : Stream) : (s.setStream q).answers = s.answers := rfl
@[simp] theorem setStream_stuck (s : State) (q : Stream) : (s.setStream q).stuck = s.stuck := rfl

/-! ### modCore -/

@[simp] theorem modCore_mem (s : State) (n d c : Nat) (f : Core → Core) : (s.modCore n d c f).mem = s.mem := rfl
@[simp] theorem modCore_poison (s : State) (n d c : Nat) (f : Core → Core) : (s.modCore n d c f).poison = s.poison := rfl
@[simp] theorem modCore_nodes (s : State) (n d c : Nat) (f : Core → Core) : (s.modCore n d c f).nodes = s.nodes := rfl
@[simp] theorem modCore_ctxs (s : State) (n d c : Nat) (f : Core → Core) : (s.modCore n d c f).ctxs = s.ctxs := rfl
@[simp] theorem modCore_placed (s : State) (n d c : Nat) (f : Core → Core) : (s.modCore n d c f).placed = s.placed := rfl
@[simp] theorem modCore_launches (s : State) (n d c : Nat) (f : Core → Core) : (s.modCore n d c f).launches = s.launches := rfl
@[simp] theorem modCore_teams (s : State) (n d c : Nat) (f : Core → Core) : (s.modCore n d c f).teams = s.teams := rfl
@[simp] theorem modCore_waves (s : State) (n d c : Nat) (f : Core → Core) : (s.modCore n d c f).waves = s.waves := rfl
@[simp] theorem modCore_streams (s : State) (n d c : Nat) (f : Core → Core) : (s.modCore n d c f).streams = s.streams := rfl
@[simp] theorem modCore_packets (s : State) (n d c : Nat) (f : Core → Core) : (s.modCore n d c f).packets = s.packets := rfl
@[simp] theorem modCore_deadStreams (s : State) (n d c : Nat) (f : Core → Core) : (s.modCore n d c f).deadStreams = s.deadStreams := rfl
@[simp] theorem modCore_deliveries (s : State) (n d c : Nat) (f : Core → Core) : (s.modCore n d c f).deliveries = s.deliveries := rfl
@[simp] theorem modCore_barriers (s : State) (n d c : Nat) (f : Core → Core) : (s.modCore n d c f).barriers = s.barriers := rfl
@[simp] theorem modCore_arrivals (s : State) (n d c : Nat) (f : Core → Core) : (s.modCore n d c f).arrivals = s.arrivals := rfl
@[simp] theorem modCore_shoots (s : State) (n d c : Nat) (f : Core → Core) : (s.modCore n d c f).shoots = s.shoots := rfl
@[simp] theorem modCore_saves (s : State) (n d c : Nat) (f : Core → Core) : (s.modCore n d c f).saves = s.saves := rfl
@[simp] theorem modCore_gangRoot (s : State) (n d c : Nat) (f : Core → Core) : (s.modCore n d c f).gangRoot = s.gangRoot := rfl
@[simp] theorem modCore_replies (s : State) (n d c : Nat) (f : Core → Core) : (s.modCore n d c f).replies = s.replies := rfl
@[simp] theorem modCore_time (s : State) (n d c : Nat) (f : Core → Core) : (s.modCore n d c f).time = s.time := rfl
@[simp] theorem modCore_freeCtr (s : State) (n d c : Nat) (f : Core → Core) : (s.modCore n d c f).freeCtr = s.freeCtr := rfl
@[simp] theorem modCore_nextNum (s : State) (n d c : Nat) (f : Core → Core) : (s.modCore n d c f).nextNum = s.nextNum := rfl
@[simp] theorem modCore_cur (s : State) (n d c : Nat) (f : Core → Core) : (s.modCore n d c f).cur = s.cur := rfl
@[simp] theorem modCore_agenda (s : State) (n d c : Nat) (f : Core → Core) : (s.modCore n d c f).agenda = s.agenda := rfl
@[simp] theorem modCore_queue (s : State) (n d c : Nat) (f : Core → Core) : (s.modCore n d c f).queue = s.queue := rfl
@[simp] theorem modCore_answers (s : State) (n d c : Nat) (f : Core → Core) : (s.modCore n d c f).answers = s.answers := rfl
@[simp] theorem modCore_stuck (s : State) (n d c : Nat) (f : Core → Core) : (s.modCore n d c f).stuck = s.stuck := rfl

/-! ### modCtx -/

@[simp] theorem modCtx_mem (s : State) (n c : Nat) (f : Ctx → Ctx) : (s.modCtx n c f).mem = s.mem := rfl
@[simp] theorem modCtx_poison (s : State) (n c : Nat) (f : Ctx → Ctx) : (s.modCtx n c f).poison = s.poison := rfl
@[simp] theorem modCtx_nodes (s : State) (n c : Nat) (f : Ctx → Ctx) : (s.modCtx n c f).nodes = s.nodes := rfl
@[simp] theorem modCtx_placed (s : State) (n c : Nat) (f : Ctx → Ctx) : (s.modCtx n c f).placed = s.placed := rfl
@[simp] theorem modCtx_launches (s : State) (n c : Nat) (f : Ctx → Ctx) : (s.modCtx n c f).launches = s.launches := rfl
@[simp] theorem modCtx_teams (s : State) (n c : Nat) (f : Ctx → Ctx) : (s.modCtx n c f).teams = s.teams := rfl
@[simp] theorem modCtx_waves (s : State) (n c : Nat) (f : Ctx → Ctx) : (s.modCtx n c f).waves = s.waves := rfl
@[simp] theorem modCtx_streams (s : State) (n c : Nat) (f : Ctx → Ctx) : (s.modCtx n c f).streams = s.streams := rfl
@[simp] theorem modCtx_cores (s : State) (n c : Nat) (f : Ctx → Ctx) : (s.modCtx n c f).cores = s.cores := rfl
@[simp] theorem modCtx_packets (s : State) (n c : Nat) (f : Ctx → Ctx) : (s.modCtx n c f).packets = s.packets := rfl
@[simp] theorem modCtx_deadStreams (s : State) (n c : Nat) (f : Ctx → Ctx) : (s.modCtx n c f).deadStreams = s.deadStreams := rfl
@[simp] theorem modCtx_deliveries (s : State) (n c : Nat) (f : Ctx → Ctx) : (s.modCtx n c f).deliveries = s.deliveries := rfl
@[simp] theorem modCtx_barriers (s : State) (n c : Nat) (f : Ctx → Ctx) : (s.modCtx n c f).barriers = s.barriers := rfl
@[simp] theorem modCtx_arrivals (s : State) (n c : Nat) (f : Ctx → Ctx) : (s.modCtx n c f).arrivals = s.arrivals := rfl
@[simp] theorem modCtx_shoots (s : State) (n c : Nat) (f : Ctx → Ctx) : (s.modCtx n c f).shoots = s.shoots := rfl
@[simp] theorem modCtx_saves (s : State) (n c : Nat) (f : Ctx → Ctx) : (s.modCtx n c f).saves = s.saves := rfl
@[simp] theorem modCtx_gangRoot (s : State) (n c : Nat) (f : Ctx → Ctx) : (s.modCtx n c f).gangRoot = s.gangRoot := rfl
@[simp] theorem modCtx_replies (s : State) (n c : Nat) (f : Ctx → Ctx) : (s.modCtx n c f).replies = s.replies := rfl
@[simp] theorem modCtx_time (s : State) (n c : Nat) (f : Ctx → Ctx) : (s.modCtx n c f).time = s.time := rfl
@[simp] theorem modCtx_freeCtr (s : State) (n c : Nat) (f : Ctx → Ctx) : (s.modCtx n c f).freeCtr = s.freeCtr := rfl
@[simp] theorem modCtx_nextNum (s : State) (n c : Nat) (f : Ctx → Ctx) : (s.modCtx n c f).nextNum = s.nextNum := rfl
@[simp] theorem modCtx_cur (s : State) (n c : Nat) (f : Ctx → Ctx) : (s.modCtx n c f).cur = s.cur := rfl
@[simp] theorem modCtx_agenda (s : State) (n c : Nat) (f : Ctx → Ctx) : (s.modCtx n c f).agenda = s.agenda := rfl
@[simp] theorem modCtx_queue (s : State) (n c : Nat) (f : Ctx → Ctx) : (s.modCtx n c f).queue = s.queue := rfl
@[simp] theorem modCtx_answers (s : State) (n c : Nat) (f : Ctx → Ctx) : (s.modCtx n c f).answers = s.answers := rfl
@[simp] theorem modCtx_stuck (s : State) (n c : Nat) (f : Ctx → Ctx) : (s.modCtx n c f).stuck = s.stuck := rfl

/-! ### modSave -/

@[simp] theorem modSave_mem (s : State) (n : Nat) (f : Save → Save) : (s.modSave n f).mem = s.mem := rfl
@[simp] theorem modSave_poison (s : State) (n : Nat) (f : Save → Save) : (s.modSave n f).poison = s.poison := rfl
@[simp] theorem modSave_nodes (s : State) (n : Nat) (f : Save → Save) : (s.modSave n f).nodes = s.nodes := rfl
@[simp] theorem modSave_ctxs (s : State) (n : Nat) (f : Save → Save) : (s.modSave n f).ctxs = s.ctxs := rfl
@[simp] theorem modSave_placed (s : State) (n : Nat) (f : Save → Save) : (s.modSave n f).placed = s.placed := rfl
@[simp] theorem modSave_launches (s : State) (n : Nat) (f : Save → Save) : (s.modSave n f).launches = s.launches := rfl
@[simp] theorem modSave_teams (s : State) (n : Nat) (f : Save → Save) : (s.modSave n f).teams = s.teams := rfl
@[simp] theorem modSave_waves (s : State) (n : Nat) (f : Save → Save) : (s.modSave n f).waves = s.waves := rfl
@[simp] theorem modSave_streams (s : State) (n : Nat) (f : Save → Save) : (s.modSave n f).streams = s.streams := rfl
@[simp] theorem modSave_cores (s : State) (n : Nat) (f : Save → Save) : (s.modSave n f).cores = s.cores := rfl
@[simp] theorem modSave_packets (s : State) (n : Nat) (f : Save → Save) : (s.modSave n f).packets = s.packets := rfl
@[simp] theorem modSave_deadStreams (s : State) (n : Nat) (f : Save → Save) : (s.modSave n f).deadStreams = s.deadStreams := rfl
@[simp] theorem modSave_deliveries (s : State) (n : Nat) (f : Save → Save) : (s.modSave n f).deliveries = s.deliveries := rfl
@[simp] theorem modSave_barriers (s : State) (n : Nat) (f : Save → Save) : (s.modSave n f).barriers = s.barriers := rfl
@[simp] theorem modSave_arrivals (s : State) (n : Nat) (f : Save → Save) : (s.modSave n f).arrivals = s.arrivals := rfl
@[simp] theorem modSave_shoots (s : State) (n : Nat) (f : Save → Save) : (s.modSave n f).shoots = s.shoots := rfl
@[simp] theorem modSave_gangRoot (s : State) (n : Nat) (f : Save → Save) : (s.modSave n f).gangRoot = s.gangRoot := rfl
@[simp] theorem modSave_replies (s : State) (n : Nat) (f : Save → Save) : (s.modSave n f).replies = s.replies := rfl
@[simp] theorem modSave_time (s : State) (n : Nat) (f : Save → Save) : (s.modSave n f).time = s.time := rfl
@[simp] theorem modSave_freeCtr (s : State) (n : Nat) (f : Save → Save) : (s.modSave n f).freeCtr = s.freeCtr := rfl
@[simp] theorem modSave_nextNum (s : State) (n : Nat) (f : Save → Save) : (s.modSave n f).nextNum = s.nextNum := rfl
@[simp] theorem modSave_cur (s : State) (n : Nat) (f : Save → Save) : (s.modSave n f).cur = s.cur := rfl
@[simp] theorem modSave_agenda (s : State) (n : Nat) (f : Save → Save) : (s.modSave n f).agenda = s.agenda := rfl
@[simp] theorem modSave_queue (s : State) (n : Nat) (f : Save → Save) : (s.modSave n f).queue = s.queue := rfl
@[simp] theorem modSave_answers (s : State) (n : Nat) (f : Save → Save) : (s.modSave n f).answers = s.answers := rfl
@[simp] theorem modSave_stuck (s : State) (n : Nat) (f : Save → Save) : (s.modSave n f).stuck = s.stuck := rfl

/-! ### unpoison -/

@[simp] theorem unpoison_mem (s : State) (k n : Nat) : (s.unpoison k n).mem = s.mem := rfl
@[simp] theorem unpoison_nodes (s : State) (k n : Nat) : (s.unpoison k n).nodes = s.nodes := rfl
@[simp] theorem unpoison_ctxs (s : State) (k n : Nat) : (s.unpoison k n).ctxs = s.ctxs := rfl
@[simp] theorem unpoison_placed (s : State) (k n : Nat) : (s.unpoison k n).placed = s.placed := rfl
@[simp] theorem unpoison_launches (s : State) (k n : Nat) : (s.unpoison k n).launches = s.launches := rfl
@[simp] theorem unpoison_teams (s : State) (k n : Nat) : (s.unpoison k n).teams = s.teams := rfl
@[simp] theorem unpoison_waves (s : State) (k n : Nat) : (s.unpoison k n).waves = s.waves := rfl
@[simp] theorem unpoison_streams (s : State) (k n : Nat) : (s.unpoison k n).streams = s.streams := rfl
@[simp] theorem unpoison_cores (s : State) (k n : Nat) : (s.unpoison k n).cores = s.cores := rfl
@[simp] theorem unpoison_packets (s : State) (k n : Nat) : (s.unpoison k n).packets = s.packets := rfl
@[simp] theorem unpoison_deadStreams (s : State) (k n : Nat) : (s.unpoison k n).deadStreams = s.deadStreams := rfl
@[simp] theorem unpoison_deliveries (s : State) (k n : Nat) : (s.unpoison k n).deliveries = s.deliveries := rfl
@[simp] theorem unpoison_barriers (s : State) (k n : Nat) : (s.unpoison k n).barriers = s.barriers := rfl
@[simp] theorem unpoison_arrivals (s : State) (k n : Nat) : (s.unpoison k n).arrivals = s.arrivals := rfl
@[simp] theorem unpoison_shoots (s : State) (k n : Nat) : (s.unpoison k n).shoots = s.shoots := rfl
@[simp] theorem unpoison_saves (s : State) (k n : Nat) : (s.unpoison k n).saves = s.saves := rfl
@[simp] theorem unpoison_gangRoot (s : State) (k n : Nat) : (s.unpoison k n).gangRoot = s.gangRoot := rfl
@[simp] theorem unpoison_replies (s : State) (k n : Nat) : (s.unpoison k n).replies = s.replies := rfl
@[simp] theorem unpoison_time (s : State) (k n : Nat) : (s.unpoison k n).time = s.time := rfl
@[simp] theorem unpoison_freeCtr (s : State) (k n : Nat) : (s.unpoison k n).freeCtr = s.freeCtr := rfl
@[simp] theorem unpoison_nextNum (s : State) (k n : Nat) : (s.unpoison k n).nextNum = s.nextNum := rfl
@[simp] theorem unpoison_cur (s : State) (k n : Nat) : (s.unpoison k n).cur = s.cur := rfl
@[simp] theorem unpoison_agenda (s : State) (k n : Nat) : (s.unpoison k n).agenda = s.agenda := rfl
@[simp] theorem unpoison_queue (s : State) (k n : Nat) : (s.unpoison k n).queue = s.queue := rfl
@[simp] theorem unpoison_answers (s : State) (k n : Nat) : (s.unpoison k n).answers = s.answers := rfl
@[simp] theorem unpoison_stuck (s : State) (k n : Nat) : (s.unpoison k n).stuck = s.stuck := rfl

/-! ### publish -/

@[simp] theorem publish_mem (s : State) (n f : Nat) (r : Record) : (s.publish n f r).mem = s.mem := rfl
@[simp] theorem publish_poison (s : State) (n f : Nat) (r : Record) : (s.publish n f r).poison = s.poison := rfl
@[simp] theorem publish_ctxs (s : State) (n f : Nat) (r : Record) : (s.publish n f r).ctxs = s.ctxs := rfl
@[simp] theorem publish_placed (s : State) (n f : Nat) (r : Record) : (s.publish n f r).placed = s.placed := rfl
@[simp] theorem publish_launches (s : State) (n f : Nat) (r : Record) : (s.publish n f r).launches = s.launches := rfl
@[simp] theorem publish_teams (s : State) (n f : Nat) (r : Record) : (s.publish n f r).teams = s.teams := rfl
@[simp] theorem publish_waves (s : State) (n f : Nat) (r : Record) : (s.publish n f r).waves = s.waves := rfl
@[simp] theorem publish_streams (s : State) (n f : Nat) (r : Record) : (s.publish n f r).streams = s.streams := rfl
@[simp] theorem publish_cores (s : State) (n f : Nat) (r : Record) : (s.publish n f r).cores = s.cores := rfl
@[simp] theorem publish_packets (s : State) (n f : Nat) (r : Record) : (s.publish n f r).packets = s.packets := rfl
@[simp] theorem publish_deadStreams (s : State) (n f : Nat) (r : Record) : (s.publish n f r).deadStreams = s.deadStreams := rfl
@[simp] theorem publish_deliveries (s : State) (n f : Nat) (r : Record) : (s.publish n f r).deliveries = s.deliveries := rfl
@[simp] theorem publish_barriers (s : State) (n f : Nat) (r : Record) : (s.publish n f r).barriers = s.barriers := rfl
@[simp] theorem publish_arrivals (s : State) (n f : Nat) (r : Record) : (s.publish n f r).arrivals = s.arrivals := rfl
@[simp] theorem publish_shoots (s : State) (n f : Nat) (r : Record) : (s.publish n f r).shoots = s.shoots := rfl
@[simp] theorem publish_saves (s : State) (n f : Nat) (r : Record) : (s.publish n f r).saves = s.saves := rfl
@[simp] theorem publish_gangRoot (s : State) (n f : Nat) (r : Record) : (s.publish n f r).gangRoot = s.gangRoot := rfl
@[simp] theorem publish_replies (s : State) (n f : Nat) (r : Record) : (s.publish n f r).replies = s.replies := rfl
@[simp] theorem publish_time (s : State) (n f : Nat) (r : Record) : (s.publish n f r).time = s.time := rfl
@[simp] theorem publish_freeCtr (s : State) (n f : Nat) (r : Record) : (s.publish n f r).freeCtr = s.freeCtr := rfl
@[simp] theorem publish_nextNum (s : State) (n f : Nat) (r : Record) : (s.publish n f r).nextNum = s.nextNum := rfl
@[simp] theorem publish_cur (s : State) (n f : Nat) (r : Record) : (s.publish n f r).cur = s.cur := rfl
@[simp] theorem publish_agenda (s : State) (n f : Nat) (r : Record) : (s.publish n f r).agenda = s.agenda := rfl
@[simp] theorem publish_queue (s : State) (n f : Nat) (r : Record) : (s.publish n f r).queue = s.queue := rfl
@[simp] theorem publish_answers (s : State) (n f : Nat) (r : Record) : (s.publish n f r).answers = s.answers := rfl
@[simp] theorem publish_stuck (s : State) (n f : Nat) (r : Record) : (s.publish n f r).stuck = s.stuck := rfl

/-! ### bump -/

@[simp] theorem bump_mem (s : State) (n i : Nat) : (s.bump n i).mem = s.mem := rfl
@[simp] theorem bump_poison (s : State) (n i : Nat) : (s.bump n i).poison = s.poison := rfl
@[simp] theorem bump_ctxs (s : State) (n i : Nat) : (s.bump n i).ctxs = s.ctxs := rfl
@[simp] theorem bump_placed (s : State) (n i : Nat) : (s.bump n i).placed = s.placed := rfl
@[simp] theorem bump_launches (s : State) (n i : Nat) : (s.bump n i).launches = s.launches := rfl
@[simp] theorem bump_teams (s : State) (n i : Nat) : (s.bump n i).teams = s.teams := rfl
@[simp] theorem bump_waves (s : State) (n i : Nat) : (s.bump n i).waves = s.waves := rfl
@[simp] theorem bump_streams (s : State) (n i : Nat) : (s.bump n i).streams = s.streams := rfl
@[simp] theorem bump_cores (s : State) (n i : Nat) : (s.bump n i).cores = s.cores := rfl
@[simp] theorem bump_packets (s : State) (n i : Nat) : (s.bump n i).packets = s.packets := rfl
@[simp] theorem bump_deadStreams (s : State) (n i : Nat) : (s.bump n i).deadStreams = s.deadStreams := rfl
@[simp] theorem bump_deliveries (s : State) (n i : Nat) : (s.bump n i).deliveries = s.deliveries := rfl
@[simp] theorem bump_barriers (s : State) (n i : Nat) : (s.bump n i).barriers = s.barriers := rfl
@[simp] theorem bump_arrivals (s : State) (n i : Nat) : (s.bump n i).arrivals = s.arrivals := rfl
@[simp] theorem bump_shoots (s : State) (n i : Nat) : (s.bump n i).shoots = s.shoots := rfl
@[simp] theorem bump_saves (s : State) (n i : Nat) : (s.bump n i).saves = s.saves := rfl
@[simp] theorem bump_gangRoot (s : State) (n i : Nat) : (s.bump n i).gangRoot = s.gangRoot := rfl
@[simp] theorem bump_replies (s : State) (n i : Nat) : (s.bump n i).replies = s.replies := rfl
@[simp] theorem bump_time (s : State) (n i : Nat) : (s.bump n i).time = s.time := rfl
@[simp] theorem bump_freeCtr (s : State) (n i : Nat) : (s.bump n i).freeCtr = s.freeCtr := rfl
@[simp] theorem bump_nextNum (s : State) (n i : Nat) : (s.bump n i).nextNum = s.nextNum := rfl
@[simp] theorem bump_cur (s : State) (n i : Nat) : (s.bump n i).cur = s.cur := rfl
@[simp] theorem bump_agenda (s : State) (n i : Nat) : (s.bump n i).agenda = s.agenda := rfl
@[simp] theorem bump_queue (s : State) (n i : Nat) : (s.bump n i).queue = s.queue := rfl
@[simp] theorem bump_answers (s : State) (n i : Nat) : (s.bump n i).answers = s.answers := rfl
@[simp] theorem bump_stuck (s : State) (n i : Nat) : (s.bump n i).stuck = s.stuck := rfl

/-! ### touch -/

@[simp] theorem touch_mem (s : State) (l : Loc) (b : Option WaveRef) : (s.touch l b).mem = s.mem := rfl
@[simp] theorem touch_poison (s : State) (l : Loc) (b : Option WaveRef) : (s.touch l b).poison = s.poison := rfl
@[simp] theorem touch_nodes (s : State) (l : Loc) (b : Option WaveRef) : (s.touch l b).nodes = s.nodes := rfl
@[simp] theorem touch_ctxs (s : State) (l : Loc) (b : Option WaveRef) : (s.touch l b).ctxs = s.ctxs := rfl
@[simp] theorem touch_placed (s : State) (l : Loc) (b : Option WaveRef) : (s.touch l b).placed = s.placed := rfl
@[simp] theorem touch_launches (s : State) (l : Loc) (b : Option WaveRef) : (s.touch l b).launches = s.launches := rfl
@[simp] theorem touch_teams (s : State) (l : Loc) (b : Option WaveRef) : (s.touch l b).teams = s.teams := rfl
@[simp] theorem touch_streams (s : State) (l : Loc) (b : Option WaveRef) : (s.touch l b).streams = s.streams := rfl
@[simp] theorem touch_cores (s : State) (l : Loc) (b : Option WaveRef) : (s.touch l b).cores = s.cores := rfl
@[simp] theorem touch_packets (s : State) (l : Loc) (b : Option WaveRef) : (s.touch l b).packets = s.packets := rfl
@[simp] theorem touch_deadStreams (s : State) (l : Loc) (b : Option WaveRef) : (s.touch l b).deadStreams = s.deadStreams := rfl
@[simp] theorem touch_barriers (s : State) (l : Loc) (b : Option WaveRef) : (s.touch l b).barriers = s.barriers := rfl
@[simp] theorem touch_arrivals (s : State) (l : Loc) (b : Option WaveRef) : (s.touch l b).arrivals = s.arrivals := rfl
@[simp] theorem touch_shoots (s : State) (l : Loc) (b : Option WaveRef) : (s.touch l b).shoots = s.shoots := rfl
@[simp] theorem touch_saves (s : State) (l : Loc) (b : Option WaveRef) : (s.touch l b).saves = s.saves := rfl
@[simp] theorem touch_gangRoot (s : State) (l : Loc) (b : Option WaveRef) : (s.touch l b).gangRoot = s.gangRoot := rfl
@[simp] theorem touch_replies (s : State) (l : Loc) (b : Option WaveRef) : (s.touch l b).replies = s.replies := rfl
@[simp] theorem touch_time (s : State) (l : Loc) (b : Option WaveRef) : (s.touch l b).time = s.time := rfl
@[simp] theorem touch_freeCtr (s : State) (l : Loc) (b : Option WaveRef) : (s.touch l b).freeCtr = s.freeCtr := rfl
@[simp] theorem touch_nextNum (s : State) (l : Loc) (b : Option WaveRef) : (s.touch l b).nextNum = s.nextNum := rfl
@[simp] theorem touch_cur (s : State) (l : Loc) (b : Option WaveRef) : (s.touch l b).cur = s.cur := rfl
@[simp] theorem touch_agenda (s : State) (l : Loc) (b : Option WaveRef) : (s.touch l b).agenda = s.agenda := rfl
@[simp] theorem touch_queue (s : State) (l : Loc) (b : Option WaveRef) : (s.touch l b).queue = s.queue := rfl
@[simp] theorem touch_answers (s : State) (l : Loc) (b : Option WaveRef) : (s.touch l b).answers = s.answers := rfl
@[simp] theorem touch_stuck (s : State) (l : Loc) (b : Option WaveRef) : (s.touch l b).stuck = s.stuck := rfl

/-! ### acmWrite -/

@[simp] theorem acmWrite_mem (s : State) (t : TeamRef) (a n v : Nat) : (s.acmWrite t a n v).mem = s.mem := rfl
@[simp] theorem acmWrite_poison (s : State) (t : TeamRef) (a n v : Nat) : (s.acmWrite t a n v).poison = s.poison := rfl
@[simp] theorem acmWrite_nodes (s : State) (t : TeamRef) (a n v : Nat) : (s.acmWrite t a n v).nodes = s.nodes := rfl
@[simp] theorem acmWrite_ctxs (s : State) (t : TeamRef) (a n v : Nat) : (s.acmWrite t a n v).ctxs = s.ctxs := rfl
@[simp] theorem acmWrite_placed (s : State) (t : TeamRef) (a n v : Nat) : (s.acmWrite t a n v).placed = s.placed := rfl
@[simp] theorem acmWrite_launches (s : State) (t : TeamRef) (a n v : Nat) : (s.acmWrite t a n v).launches = s.launches := rfl
@[simp] theorem acmWrite_waves (s : State) (t : TeamRef) (a n v : Nat) : (s.acmWrite t a n v).waves = s.waves := rfl
@[simp] theorem acmWrite_streams (s : State) (t : TeamRef) (a n v : Nat) : (s.acmWrite t a n v).streams = s.streams := rfl
@[simp] theorem acmWrite_cores (s : State) (t : TeamRef) (a n v : Nat) : (s.acmWrite t a n v).cores = s.cores := rfl
@[simp] theorem acmWrite_packets (s : State) (t : TeamRef) (a n v : Nat) : (s.acmWrite t a n v).packets = s.packets := rfl
@[simp] theorem acmWrite_deadStreams (s : State) (t : TeamRef) (a n v : Nat) : (s.acmWrite t a n v).deadStreams = s.deadStreams := rfl
@[simp] theorem acmWrite_deliveries (s : State) (t : TeamRef) (a n v : Nat) : (s.acmWrite t a n v).deliveries = s.deliveries := rfl
@[simp] theorem acmWrite_barriers (s : State) (t : TeamRef) (a n v : Nat) : (s.acmWrite t a n v).barriers = s.barriers := rfl
@[simp] theorem acmWrite_arrivals (s : State) (t : TeamRef) (a n v : Nat) : (s.acmWrite t a n v).arrivals = s.arrivals := rfl
@[simp] theorem acmWrite_shoots (s : State) (t : TeamRef) (a n v : Nat) : (s.acmWrite t a n v).shoots = s.shoots := rfl
@[simp] theorem acmWrite_saves (s : State) (t : TeamRef) (a n v : Nat) : (s.acmWrite t a n v).saves = s.saves := rfl
@[simp] theorem acmWrite_gangRoot (s : State) (t : TeamRef) (a n v : Nat) : (s.acmWrite t a n v).gangRoot = s.gangRoot := rfl
@[simp] theorem acmWrite_replies (s : State) (t : TeamRef) (a n v : Nat) : (s.acmWrite t a n v).replies = s.replies := rfl
@[simp] theorem acmWrite_time (s : State) (t : TeamRef) (a n v : Nat) : (s.acmWrite t a n v).time = s.time := rfl
@[simp] theorem acmWrite_freeCtr (s : State) (t : TeamRef) (a n v : Nat) : (s.acmWrite t a n v).freeCtr = s.freeCtr := rfl
@[simp] theorem acmWrite_nextNum (s : State) (t : TeamRef) (a n v : Nat) : (s.acmWrite t a n v).nextNum = s.nextNum := rfl
@[simp] theorem acmWrite_cur (s : State) (t : TeamRef) (a n v : Nat) : (s.acmWrite t a n v).cur = s.cur := rfl
@[simp] theorem acmWrite_agenda (s : State) (t : TeamRef) (a n v : Nat) : (s.acmWrite t a n v).agenda = s.agenda := rfl
@[simp] theorem acmWrite_queue (s : State) (t : TeamRef) (a n v : Nat) : (s.acmWrite t a n v).queue = s.queue := rfl
@[simp] theorem acmWrite_answers (s : State) (t : TeamRef) (a n v : Nat) : (s.acmWrite t a n v).answers = s.answers := rfl
@[simp] theorem acmWrite_stuck (s : State) (t : TeamRef) (a n v : Nat) : (s.acmWrite t a n v).stuck = s.stuck := rfl

/-! ### dropPacket -/

@[simp] theorem dropPacket_mem (s : State) (n : Nat) : (s.dropPacket n).mem = s.mem := rfl
@[simp] theorem dropPacket_poison (s : State) (n : Nat) : (s.dropPacket n).poison = s.poison := rfl
@[simp] theorem dropPacket_nodes (s : State) (n : Nat) : (s.dropPacket n).nodes = s.nodes := rfl
@[simp] theorem dropPacket_ctxs (s : State) (n : Nat) : (s.dropPacket n).ctxs = s.ctxs := rfl
@[simp] theorem dropPacket_placed (s : State) (n : Nat) : (s.dropPacket n).placed = s.placed := rfl
@[simp] theorem dropPacket_launches (s : State) (n : Nat) : (s.dropPacket n).launches = s.launches := rfl
@[simp] theorem dropPacket_teams (s : State) (n : Nat) : (s.dropPacket n).teams = s.teams := rfl
@[simp] theorem dropPacket_waves (s : State) (n : Nat) : (s.dropPacket n).waves = s.waves := rfl
@[simp] theorem dropPacket_streams (s : State) (n : Nat) : (s.dropPacket n).streams = s.streams := rfl
@[simp] theorem dropPacket_cores (s : State) (n : Nat) : (s.dropPacket n).cores = s.cores := rfl
@[simp] theorem dropPacket_deadStreams (s : State) (n : Nat) : (s.dropPacket n).deadStreams = s.deadStreams := rfl
@[simp] theorem dropPacket_deliveries (s : State) (n : Nat) : (s.dropPacket n).deliveries = s.deliveries := rfl
@[simp] theorem dropPacket_barriers (s : State) (n : Nat) : (s.dropPacket n).barriers = s.barriers := rfl
@[simp] theorem dropPacket_arrivals (s : State) (n : Nat) : (s.dropPacket n).arrivals = s.arrivals := rfl
@[simp] theorem dropPacket_shoots (s : State) (n : Nat) : (s.dropPacket n).shoots = s.shoots := rfl
@[simp] theorem dropPacket_saves (s : State) (n : Nat) : (s.dropPacket n).saves = s.saves := rfl
@[simp] theorem dropPacket_gangRoot (s : State) (n : Nat) : (s.dropPacket n).gangRoot = s.gangRoot := rfl
@[simp] theorem dropPacket_replies (s : State) (n : Nat) : (s.dropPacket n).replies = s.replies := rfl
@[simp] theorem dropPacket_time (s : State) (n : Nat) : (s.dropPacket n).time = s.time := rfl
@[simp] theorem dropPacket_freeCtr (s : State) (n : Nat) : (s.dropPacket n).freeCtr = s.freeCtr := rfl
@[simp] theorem dropPacket_nextNum (s : State) (n : Nat) : (s.dropPacket n).nextNum = s.nextNum := rfl
@[simp] theorem dropPacket_cur (s : State) (n : Nat) : (s.dropPacket n).cur = s.cur := rfl
@[simp] theorem dropPacket_agenda (s : State) (n : Nat) : (s.dropPacket n).agenda = s.agenda := rfl
@[simp] theorem dropPacket_queue (s : State) (n : Nat) : (s.dropPacket n).queue = s.queue := rfl
@[simp] theorem dropPacket_answers (s : State) (n : Nat) : (s.dropPacket n).answers = s.answers := rfl
@[simp] theorem dropPacket_stuck (s : State) (n : Nat) : (s.dropPacket n).stuck = s.stuck := rfl

/-! ### dropSave -/

@[simp] theorem dropSave_mem (s : State) (n : Nat) : (s.dropSave n).mem = s.mem := rfl
@[simp] theorem dropSave_poison (s : State) (n : Nat) : (s.dropSave n).poison = s.poison := rfl
@[simp] theorem dropSave_nodes (s : State) (n : Nat) : (s.dropSave n).nodes = s.nodes := rfl
@[simp] theorem dropSave_ctxs (s : State) (n : Nat) : (s.dropSave n).ctxs = s.ctxs := rfl
@[simp] theorem dropSave_placed (s : State) (n : Nat) : (s.dropSave n).placed = s.placed := rfl
@[simp] theorem dropSave_launches (s : State) (n : Nat) : (s.dropSave n).launches = s.launches := rfl
@[simp] theorem dropSave_teams (s : State) (n : Nat) : (s.dropSave n).teams = s.teams := rfl
@[simp] theorem dropSave_waves (s : State) (n : Nat) : (s.dropSave n).waves = s.waves := rfl
@[simp] theorem dropSave_streams (s : State) (n : Nat) : (s.dropSave n).streams = s.streams := rfl
@[simp] theorem dropSave_cores (s : State) (n : Nat) : (s.dropSave n).cores = s.cores := rfl
@[simp] theorem dropSave_packets (s : State) (n : Nat) : (s.dropSave n).packets = s.packets := rfl
@[simp] theorem dropSave_deadStreams (s : State) (n : Nat) : (s.dropSave n).deadStreams = s.deadStreams := rfl
@[simp] theorem dropSave_deliveries (s : State) (n : Nat) : (s.dropSave n).deliveries = s.deliveries := rfl
@[simp] theorem dropSave_barriers (s : State) (n : Nat) : (s.dropSave n).barriers = s.barriers := rfl
@[simp] theorem dropSave_arrivals (s : State) (n : Nat) : (s.dropSave n).arrivals = s.arrivals := rfl
@[simp] theorem dropSave_shoots (s : State) (n : Nat) : (s.dropSave n).shoots = s.shoots := rfl
@[simp] theorem dropSave_gangRoot (s : State) (n : Nat) : (s.dropSave n).gangRoot = s.gangRoot := rfl
@[simp] theorem dropSave_replies (s : State) (n : Nat) : (s.dropSave n).replies = s.replies := rfl
@[simp] theorem dropSave_time (s : State) (n : Nat) : (s.dropSave n).time = s.time := rfl
@[simp] theorem dropSave_freeCtr (s : State) (n : Nat) : (s.dropSave n).freeCtr = s.freeCtr := rfl
@[simp] theorem dropSave_nextNum (s : State) (n : Nat) : (s.dropSave n).nextNum = s.nextNum := rfl
@[simp] theorem dropSave_cur (s : State) (n : Nat) : (s.dropSave n).cur = s.cur := rfl
@[simp] theorem dropSave_agenda (s : State) (n : Nat) : (s.dropSave n).agenda = s.agenda := rfl
@[simp] theorem dropSave_queue (s : State) (n : Nat) : (s.dropSave n).queue = s.queue := rfl
@[simp] theorem dropSave_answers (s : State) (n : Nat) : (s.dropSave n).answers = s.answers := rfl
@[simp] theorem dropSave_stuck (s : State) (n : Nat) : (s.dropSave n).stuck = s.stuck := rfl

/-! ### dropLoads -/

@[simp] theorem dropLoads_mem (s : State) (r : WaveRef) : (s.dropLoads r).mem = s.mem := rfl
@[simp] theorem dropLoads_poison (s : State) (r : WaveRef) : (s.dropLoads r).poison = s.poison := rfl
@[simp] theorem dropLoads_nodes (s : State) (r : WaveRef) : (s.dropLoads r).nodes = s.nodes := rfl
@[simp] theorem dropLoads_ctxs (s : State) (r : WaveRef) : (s.dropLoads r).ctxs = s.ctxs := rfl
@[simp] theorem dropLoads_placed (s : State) (r : WaveRef) : (s.dropLoads r).placed = s.placed := rfl
@[simp] theorem dropLoads_launches (s : State) (r : WaveRef) : (s.dropLoads r).launches = s.launches := rfl
@[simp] theorem dropLoads_teams (s : State) (r : WaveRef) : (s.dropLoads r).teams = s.teams := rfl
@[simp] theorem dropLoads_waves (s : State) (r : WaveRef) : (s.dropLoads r).waves = s.waves := rfl
@[simp] theorem dropLoads_streams (s : State) (r : WaveRef) : (s.dropLoads r).streams = s.streams := rfl
@[simp] theorem dropLoads_cores (s : State) (r : WaveRef) : (s.dropLoads r).cores = s.cores := rfl
@[simp] theorem dropLoads_deadStreams (s : State) (r : WaveRef) : (s.dropLoads r).deadStreams = s.deadStreams := rfl
@[simp] theorem dropLoads_deliveries (s : State) (r : WaveRef) : (s.dropLoads r).deliveries = s.deliveries := rfl
@[simp] theorem dropLoads_barriers (s : State) (r : WaveRef) : (s.dropLoads r).barriers = s.barriers := rfl
@[simp] theorem dropLoads_arrivals (s : State) (r : WaveRef) : (s.dropLoads r).arrivals = s.arrivals := rfl
@[simp] theorem dropLoads_shoots (s : State) (r : WaveRef) : (s.dropLoads r).shoots = s.shoots := rfl
@[simp] theorem dropLoads_saves (s : State) (r : WaveRef) : (s.dropLoads r).saves = s.saves := rfl
@[simp] theorem dropLoads_gangRoot (s : State) (r : WaveRef) : (s.dropLoads r).gangRoot = s.gangRoot := rfl
@[simp] theorem dropLoads_replies (s : State) (r : WaveRef) : (s.dropLoads r).replies = s.replies := rfl
@[simp] theorem dropLoads_time (s : State) (r : WaveRef) : (s.dropLoads r).time = s.time := rfl
@[simp] theorem dropLoads_freeCtr (s : State) (r : WaveRef) : (s.dropLoads r).freeCtr = s.freeCtr := rfl
@[simp] theorem dropLoads_nextNum (s : State) (r : WaveRef) : (s.dropLoads r).nextNum = s.nextNum := rfl
@[simp] theorem dropLoads_cur (s : State) (r : WaveRef) : (s.dropLoads r).cur = s.cur := rfl
@[simp] theorem dropLoads_agenda (s : State) (r : WaveRef) : (s.dropLoads r).agenda = s.agenda := rfl
@[simp] theorem dropLoads_queue (s : State) (r : WaveRef) : (s.dropLoads r).queue = s.queue := rfl
@[simp] theorem dropLoads_answers (s : State) (r : WaveRef) : (s.dropLoads r).answers = s.answers := rfl
@[simp] theorem dropLoads_stuck (s : State) (r : WaveRef) : (s.dropLoads r).stuck = s.stuck := rfl

/-! ### guardPhys -/

@[simp] theorem guardPhys_mem (s : State) (k n : Nat) : (s.guardPhys k n).mem = s.mem := by
  unfold State.guardPhys; split <;> rfl
@[simp] theorem guardPhys_poison (s : State) (k n : Nat) : (s.guardPhys k n).poison = s.poison := by
  unfold State.guardPhys; split <;> rfl
@[simp] theorem guardPhys_nodes (s : State) (k n : Nat) : (s.guardPhys k n).nodes = s.nodes := by
  unfold State.guardPhys; split <;> rfl
@[simp] theorem guardPhys_ctxs (s : State) (k n : Nat) : (s.guardPhys k n).ctxs = s.ctxs := by
  unfold State.guardPhys; split <;> rfl
@[simp] theorem guardPhys_placed (s : State) (k n : Nat) : (s.guardPhys k n).placed = s.placed := by
  unfold State.guardPhys; split <;> rfl
@[simp] theorem guardPhys_launches (s : State) (k n : Nat) : (s.guardPhys k n).launches = s.launches := by
  unfold State.guardPhys; split <;> rfl
@[simp] theorem guardPhys_teams (s : State) (k n : Nat) : (s.guardPhys k n).teams = s.teams := by
  unfold State.guardPhys; split <;> rfl
@[simp] theorem guardPhys_waves (s : State) (k n : Nat) : (s.guardPhys k n).waves = s.waves := by
  unfold State.guardPhys; split <;> rfl
@[simp] theorem guardPhys_streams (s : State) (k n : Nat) : (s.guardPhys k n).streams = s.streams := by
  unfold State.guardPhys; split <;> rfl
@[simp] theorem guardPhys_cores (s : State) (k n : Nat) : (s.guardPhys k n).cores = s.cores := by
  unfold State.guardPhys; split <;> rfl
@[simp] theorem guardPhys_packets (s : State) (k n : Nat) : (s.guardPhys k n).packets = s.packets := by
  unfold State.guardPhys; split <;> rfl
@[simp] theorem guardPhys_deadStreams (s : State) (k n : Nat) : (s.guardPhys k n).deadStreams = s.deadStreams := by
  unfold State.guardPhys; split <;> rfl
@[simp] theorem guardPhys_deliveries (s : State) (k n : Nat) : (s.guardPhys k n).deliveries = s.deliveries := by
  unfold State.guardPhys; split <;> rfl
@[simp] theorem guardPhys_barriers (s : State) (k n : Nat) : (s.guardPhys k n).barriers = s.barriers := by
  unfold State.guardPhys; split <;> rfl
@[simp] theorem guardPhys_arrivals (s : State) (k n : Nat) : (s.guardPhys k n).arrivals = s.arrivals := by
  unfold State.guardPhys; split <;> rfl
@[simp] theorem guardPhys_shoots (s : State) (k n : Nat) : (s.guardPhys k n).shoots = s.shoots := by
  unfold State.guardPhys; split <;> rfl
@[simp] theorem guardPhys_saves (s : State) (k n : Nat) : (s.guardPhys k n).saves = s.saves := by
  unfold State.guardPhys; split <;> rfl
@[simp] theorem guardPhys_gangRoot (s : State) (k n : Nat) : (s.guardPhys k n).gangRoot = s.gangRoot := by
  unfold State.guardPhys; split <;> rfl
@[simp] theorem guardPhys_replies (s : State) (k n : Nat) : (s.guardPhys k n).replies = s.replies := by
  unfold State.guardPhys; split <;> rfl
@[simp] theorem guardPhys_time (s : State) (k n : Nat) : (s.guardPhys k n).time = s.time := by
  unfold State.guardPhys; split <;> rfl
@[simp] theorem guardPhys_freeCtr (s : State) (k n : Nat) : (s.guardPhys k n).freeCtr = s.freeCtr := by
  unfold State.guardPhys; split <;> rfl
@[simp] theorem guardPhys_nextNum (s : State) (k n : Nat) : (s.guardPhys k n).nextNum = s.nextNum := by
  unfold State.guardPhys; split <;> rfl
@[simp] theorem guardPhys_cur (s : State) (k n : Nat) : (s.guardPhys k n).cur = s.cur := by
  unfold State.guardPhys; split <;> rfl
@[simp] theorem guardPhys_agenda (s : State) (k n : Nat) : (s.guardPhys k n).agenda = s.agenda := by
  unfold State.guardPhys; split <;> rfl
@[simp] theorem guardPhys_queue (s : State) (k n : Nat) : (s.guardPhys k n).queue = s.queue := by
  unfold State.guardPhys; split <;> rfl
@[simp] theorem guardPhys_answers (s : State) (k n : Nat) : (s.guardPhys k n).answers = s.answers := by
  unfold State.guardPhys; split <;> rfl

/-! ### store -/

@[simp] theorem store_poison (s : State) (k : Nat) (bs : List Byte) : (s.store k bs).poison = s.poison := guardPhys_poison s k bs.length
@[simp] theorem store_nodes (s : State) (k : Nat) (bs : List Byte) : (s.store k bs).nodes = s.nodes := guardPhys_nodes s k bs.length
@[simp] theorem store_ctxs (s : State) (k : Nat) (bs : List Byte) : (s.store k bs).ctxs = s.ctxs := guardPhys_ctxs s k bs.length
@[simp] theorem store_placed (s : State) (k : Nat) (bs : List Byte) : (s.store k bs).placed = s.placed := guardPhys_placed s k bs.length
@[simp] theorem store_launches (s : State) (k : Nat) (bs : List Byte) : (s.store k bs).launches = s.launches := guardPhys_launches s k bs.length
@[simp] theorem store_teams (s : State) (k : Nat) (bs : List Byte) : (s.store k bs).teams = s.teams := guardPhys_teams s k bs.length
@[simp] theorem store_waves (s : State) (k : Nat) (bs : List Byte) : (s.store k bs).waves = s.waves := guardPhys_waves s k bs.length
@[simp] theorem store_streams (s : State) (k : Nat) (bs : List Byte) : (s.store k bs).streams = s.streams := guardPhys_streams s k bs.length
@[simp] theorem store_cores (s : State) (k : Nat) (bs : List Byte) : (s.store k bs).cores = s.cores := guardPhys_cores s k bs.length
@[simp] theorem store_packets (s : State) (k : Nat) (bs : List Byte) : (s.store k bs).packets = s.packets := guardPhys_packets s k bs.length
@[simp] theorem store_deadStreams (s : State) (k : Nat) (bs : List Byte) : (s.store k bs).deadStreams = s.deadStreams := guardPhys_deadStreams s k bs.length
@[simp] theorem store_deliveries (s : State) (k : Nat) (bs : List Byte) : (s.store k bs).deliveries = s.deliveries := guardPhys_deliveries s k bs.length
@[simp] theorem store_barriers (s : State) (k : Nat) (bs : List Byte) : (s.store k bs).barriers = s.barriers := guardPhys_barriers s k bs.length
@[simp] theorem store_arrivals (s : State) (k : Nat) (bs : List Byte) : (s.store k bs).arrivals = s.arrivals := guardPhys_arrivals s k bs.length
@[simp] theorem store_shoots (s : State) (k : Nat) (bs : List Byte) : (s.store k bs).shoots = s.shoots := guardPhys_shoots s k bs.length
@[simp] theorem store_saves (s : State) (k : Nat) (bs : List Byte) : (s.store k bs).saves = s.saves := guardPhys_saves s k bs.length
@[simp] theorem store_gangRoot (s : State) (k : Nat) (bs : List Byte) : (s.store k bs).gangRoot = s.gangRoot := guardPhys_gangRoot s k bs.length
@[simp] theorem store_replies (s : State) (k : Nat) (bs : List Byte) : (s.store k bs).replies = s.replies := guardPhys_replies s k bs.length
@[simp] theorem store_time (s : State) (k : Nat) (bs : List Byte) : (s.store k bs).time = s.time := guardPhys_time s k bs.length
@[simp] theorem store_freeCtr (s : State) (k : Nat) (bs : List Byte) : (s.store k bs).freeCtr = s.freeCtr := guardPhys_freeCtr s k bs.length
@[simp] theorem store_nextNum (s : State) (k : Nat) (bs : List Byte) : (s.store k bs).nextNum = s.nextNum := guardPhys_nextNum s k bs.length
@[simp] theorem store_cur (s : State) (k : Nat) (bs : List Byte) : (s.store k bs).cur = s.cur := guardPhys_cur s k bs.length
@[simp] theorem store_agenda (s : State) (k : Nat) (bs : List Byte) : (s.store k bs).agenda = s.agenda := guardPhys_agenda s k bs.length
@[simp] theorem store_queue (s : State) (k : Nat) (bs : List Byte) : (s.store k bs).queue = s.queue := guardPhys_queue s k bs.length
@[simp] theorem store_answers (s : State) (k : Nat) (bs : List Byte) : (s.store k bs).answers = s.answers := guardPhys_answers s k bs.length

/-! ### wipe -/

@[simp] theorem wipe_poison (s : State) (k n : Nat) : (s.wipe k n).poison = s.poison := guardPhys_poison s k n
@[simp] theorem wipe_nodes (s : State) (k n : Nat) : (s.wipe k n).nodes = s.nodes := guardPhys_nodes s k n
@[simp] theorem wipe_ctxs (s : State) (k n : Nat) : (s.wipe k n).ctxs = s.ctxs := guardPhys_ctxs s k n
@[simp] theorem wipe_placed (s : State) (k n : Nat) : (s.wipe k n).placed = s.placed := guardPhys_placed s k n
@[simp] theorem wipe_launches (s : State) (k n : Nat) : (s.wipe k n).launches = s.launches := guardPhys_launches s k n
@[simp] theorem wipe_teams (s : State) (k n : Nat) : (s.wipe k n).teams = s.teams := guardPhys_teams s k n
@[simp] theorem wipe_waves (s : State) (k n : Nat) : (s.wipe k n).waves = s.waves := guardPhys_waves s k n
@[simp] theorem wipe_streams (s : State) (k n : Nat) : (s.wipe k n).streams = s.streams := guardPhys_streams s k n
@[simp] theorem wipe_cores (s : State) (k n : Nat) : (s.wipe k n).cores = s.cores := guardPhys_cores s k n
@[simp] theorem wipe_packets (s : State) (k n : Nat) : (s.wipe k n).packets = s.packets := guardPhys_packets s k n
@[simp] theorem wipe_deadStreams (s : State) (k n : Nat) : (s.wipe k n).deadStreams = s.deadStreams := guardPhys_deadStreams s k n
@[simp] theorem wipe_deliveries (s : State) (k n : Nat) : (s.wipe k n).deliveries = s.deliveries := guardPhys_deliveries s k n
@[simp] theorem wipe_barriers (s : State) (k n : Nat) : (s.wipe k n).barriers = s.barriers := guardPhys_barriers s k n
@[simp] theorem wipe_arrivals (s : State) (k n : Nat) : (s.wipe k n).arrivals = s.arrivals := guardPhys_arrivals s k n
@[simp] theorem wipe_shoots (s : State) (k n : Nat) : (s.wipe k n).shoots = s.shoots := guardPhys_shoots s k n
@[simp] theorem wipe_saves (s : State) (k n : Nat) : (s.wipe k n).saves = s.saves := guardPhys_saves s k n
@[simp] theorem wipe_gangRoot (s : State) (k n : Nat) : (s.wipe k n).gangRoot = s.gangRoot := guardPhys_gangRoot s k n
@[simp] theorem wipe_replies (s : State) (k n : Nat) : (s.wipe k n).replies = s.replies := guardPhys_replies s k n
@[simp] theorem wipe_time (s : State) (k n : Nat) : (s.wipe k n).time = s.time := guardPhys_time s k n
@[simp] theorem wipe_freeCtr (s : State) (k n : Nat) : (s.wipe k n).freeCtr = s.freeCtr := guardPhys_freeCtr s k n
@[simp] theorem wipe_nextNum (s : State) (k n : Nat) : (s.wipe k n).nextNum = s.nextNum := guardPhys_nextNum s k n
@[simp] theorem wipe_cur (s : State) (k n : Nat) : (s.wipe k n).cur = s.cur := guardPhys_cur s k n
@[simp] theorem wipe_agenda (s : State) (k n : Nat) : (s.wipe k n).agenda = s.agenda := guardPhys_agenda s k n
@[simp] theorem wipe_queue (s : State) (k n : Nat) : (s.wipe k n).queue = s.queue := guardPhys_queue s k n
@[simp] theorem wipe_answers (s : State) (k n : Nat) : (s.wipe k n).answers = s.answers := guardPhys_answers s k n

/-! ### What the changed field becomes -/

@[simp] theorem setWave_waves (s : State) (w : Wave) : (s.setWave w).waves = s.waves.map (fun v => if v.ref == w.ref then w else v) := rfl
@[simp] theorem setTeam_teams (s : State) (t : Team) : (s.setTeam t).teams = s.teams.map (fun v => if v.ref == t.ref then t else v) := rfl
@[simp] theorem modNode_nodes (s : State) (n : Nat) (f : Node → Node) :
    (s.modNode n f).nodes = s.nodes.map (fun d => if d.num == n then f d else d) := rfl
@[simp] theorem store_mem (s : State) (k : Nat) (bs : List Byte) : (s.store k bs).mem = s.mem.writeN k bs := rfl
@[simp] theorem wipe_mem (s : State) (k n : Nat) : (s.wipe k n).mem = s.mem.clear k n := rfl
@[simp] theorem tick_time (s : State) : s.tick.time = s.time + 1 := rfl
@[simp] theorem tick_mem (s : State) : s.tick.mem = s.mem := rfl
@[simp] theorem tick_teams (s : State) : s.tick.teams = s.teams := rfl
@[simp] theorem tick_nodes (s : State) : s.tick.nodes = s.nodes := rfl
@[simp] theorem tick_stuck (s : State) : s.tick.stuck = s.stuck := rfl

/-! ### A guarded access (R372) -/

/-- A key range inside its node's memory passes the guard, and no other does. -/
theorem guardPhys_inside {s : State} {k n : Nat} (h : k % 2 ^ 52 + n ≤ physBytes) : s.guardPhys k n = s := if_pos h

/-- A guard never clears a fault. -/
theorem guardPhys_stuck {s : State} {k n : Nat} (h : (s.guardPhys k n).stuck = none) :
    s.stuck = none ∧ k % 2 ^ 52 + n ≤ physBytes := by
  unfold State.guardPhys at h
  split at h
  · exact ⟨h, ‹_›⟩
  · cases h

end Sys2Proof.Laws
end

