-- ==== Sys2Proof/Laws/Ops.lean ====
section
/-! SUPPORT. What the shared helpers give: masks of lanes, register files, finding and replacing pieces of state, the outcome of a
step. -/
namespace Sys2Proof.Laws
open Sys2Proof Sys2Proof.Machine

/-! ### Masks of lanes -/

theorem lanes_eq : lanes = List.range' 0 32 := rfl

/-- The lanes are the numbers below 32. -/
@[simp] theorem mem_lanes {l : Nat} : l ∈ lanes ↔ l < 32 := by
  rw [lanes_eq, List.mem_range'_1]; omega

theorem testBit_fold (f : Nat → Bool) : ∀ (n k i : Nat),
    ((List.range' k n).foldr (fun l m => 2 * m + (if f l then 1 else 0)) 0).testBit i = (decide (i < n) && f (k + i))
  | 0, k, i => by simp
  | n + 1, k, i => by
    rw [List.range'_succ, List.foldr_cons]
    cases i with
    | zero => cases f k <;> simp [Nat.testBit_zero, Nat.add_mod]
    | succ i =>
      have ih := testBit_fold f n (k + 1) i
      rw [Nat.testBit_succ, show (2 * List.foldr (fun l m => 2 * m + (if f l then 1 else 0)) 0 (List.range' (k + 1) n) + (if f k then 1 else 0)) / 2 =
        List.foldr (fun l m => 2 * m + (if f l then 1 else 0)) 0 (List.range' (k + 1) n) by split <;> omega, ih]
      simp [show k + 1 + i = k + (i + 1) by omega]

/-- A mask holds the lanes that its test accepts. -/
@[simp] theorem getLsbD_maskOf (f : Nat → Bool) (l : Nat) : (maskOf f).getLsbD l = (decide (l < 32) && f l) := by
  have h := testBit_fold f 32 0 l
  rw [Nat.zero_add] at h
  unfold maskOf
  rw [BitVec.getLsbD_ofNat, lanes_eq, h]
  cases decide (l < 32) <;> simp

/-- The lanes of a mask. -/
@[simp] theorem mem_maskLanes {m : Mask} {l : Nat} : l ∈ maskLanes m ↔ m.getLsbD l = true := by
  unfold maskLanes
  rw [List.mem_filter, mem_lanes]
  exact ⟨fun h => h.2, fun h => ⟨BitVec.lt_of_getLsbD h, h⟩⟩

/-- A test that accepts no lane gives no lane. -/
@[simp] theorem maskOf_false : maskOf (fun _ => false) = 0 := rfl

/-- Taking no lane away leaves a mask. -/
theorem and_not_none (m : Mask) : m &&& ~~~(0 : Mask) = m := BitVec.and_allOnes

/-! ### Register files -/

/-- Reading an element after a change of one element. -/
theorem getD_updFile {α : Type} (d : α) : ∀ (xs : List α) (i : Nat) (f : α → α) (j : Nat),
    (updFile d xs i f).getD j d = if j = i then f (xs.getD i d) else xs.getD j d
  | [], 0, f, j => by cases j <;> simp [updFile]
  | h :: t, 0, f, j => by cases j <;> simp [updFile]
  | [], i + 1, f, j => by
    cases j with
    | zero => simp [updFile]
    | succ j => have := getD_updFile d [] i f j; simpa [updFile] using this
  | h :: t, i + 1, f, j => by
    cases j with
    | zero => simp [updFile]
    | succ j => have := getD_updFile d t i f j; simpa [updFile] using this

/-- Reading an element after a write of one element. -/
@[simp] theorem getD_setFile {α : Type} (d : α) (xs : List α) (i j : Nat) (v : α) :
    (setFile d xs i v).getD j d = if j = i then v else xs.getD j d := getD_updFile d xs i _ j

/-! ### Finding and replacing -/

theorem find?_replace {α β : Type} [DecidableEq β] (key : α → β) (x : α) (k : β) : ∀ xs : List α,
    (xs.map (fun v => if key v == key x then x else v)).find? (fun v => key v == k) =
      if key x = k then (xs.find? (fun v => key v == k)).map (fun _ => x) else xs.find? (fun v => key v == k)
  | [] => by simp
  | h :: t => by
    have ih := find?_replace key x k t
    by_cases h1 : key h = key x
    · by_cases h2 : key x = k
      · simp [h1, h2]
      · simp [h1, h2] at ih ⊢; exact ih
    · by_cases h2 : key h = k
      · have h3 : ¬ key x = k := fun e => h1 (h2.trans e.symm)
        have h4 : ¬ k = key x := fun e => h3 e.symm
        simp [h2, h3, h4]
      · simp [h1, h2] at ih ⊢; exact ih

/-- The wave of a reference after a wave has been replaced. -/
theorem wave?_setWave (s : State) (w : Wave) (r : WaveRef) :
    (s.setWave w).wave? r = if w.ref = r then (s.wave? r).map (fun _ => w) else s.wave? r := find?_replace Wave.ref w r s.waves

/-- The team of a reference after a team has been replaced. -/
theorem team?_setTeam (s : State) (t : Team) (r : TeamRef) :
    (s.setTeam t).team? r = if t.ref = r then (s.team? r).map (fun _ => t) else s.team? r := find?_replace Team.ref t r s.teams

/-- The launch of a number after a launch has been replaced. -/
theorem launch?_setLaunch (s : State) (l : Launch) (n : Nat) :
    (s.setLaunch l).launch? n = if l.num = n then (s.launch? n).map (fun _ => l) else s.launch? n := find?_replace Launch.num l n s.launches

@[simp] theorem team?_setWave (s : State) (w : Wave) (t : TeamRef) : (s.setWave w).team? t = s.team? t := rfl
@[simp] theorem launch?_setWave (s : State) (w : Wave) (n : Nat) : (s.setWave w).launch? n = s.launch? n := rfl
@[simp] theorem node?_setWave (s : State) (w : Wave) (n : Nat) : (s.setWave w).node? n = s.node? n := rfl
@[simp] theorem wave?_setTeam (s : State) (t : Team) (r : WaveRef) : (s.setTeam t).wave? r = s.wave? r := rfl
@[simp] theorem launch?_setTeam (s : State) (t : Team) (n : Nat) : (s.setTeam t).launch? n = s.launch? n := rfl

/-! ### The outcome of an instruction -/

/-- An instruction answers a next state just when its state has met no fault. -/
theorem settle_next {s t : State} : settle s = .next t ↔ s.stuck = none ∧ s = t := by
  unfold settle
  split <;> simp_all

/-- A step passes one nanosecond. -/
theorem after_next {o : Host.Outcome State Fault Refusal} {t : State} : after o = .next t ↔ ∃ s, o = .next s ∧ s.tick = t := by
  cases o <;> simp [after]

end Sys2Proof.Laws
end

