-- ==== Sys2Proof/Laws/Canonical.lean ====
section
/-! SUPPORT. Every operation that writes bytes keeps the canonical form of the machine's memories, and so does every change of
anything else. -/
namespace Sys2Proof.Laws
open Sys2Proof Sys2Proof.Machine Sys2Proof.Safety

/-! ### What leaves the bytes -/

/-- A state whose bytes are another's is canonical when that one is. -/
theorem canonical_same {s t : State} (h : Canonical s) (hm : t.mem = s.mem) (ht : t.teams = s.teams) : Canonical t := by
  unfold Canonical at *; rw [hm, ht]; exact h

/-- Teams that keep their bytes keep the form. -/
theorem canonical_teams {s t : State} (h : Canonical s) (hm : t.mem = s.mem)
    (ht : ∀ m ∈ t.teams, ∃ u ∈ s.teams, m.scratch = u.scratch ∧ m.acm = u.acm) : Canonical t := by
  refine ⟨hm ▸ h.1, fun m hmem => ?_⟩
  obtain ⟨u, hu, h1, h2⟩ := ht m hmem
  rw [h1, h2]; exact h.2 u hu

theorem canonical_setWave {s : State} (h : Canonical s) (w : Wave) : Canonical (s.setWave w) := canonical_same h rfl rfl
theorem canonical_modNode {s : State} (h : Canonical s) (n : Nat) (f : Node → Node) : Canonical (s.modNode n f) := canonical_same h rfl rfl
theorem canonical_publish {s : State} (h : Canonical s) (n f : Nat) (r : Record) : Canonical (s.publish n f r) := canonical_same h rfl rfl
theorem canonical_touch {s : State} (h : Canonical s) (l : Loc) (b : Option WaveRef) : Canonical (s.touch l b) := canonical_same h rfl rfl
theorem canonical_unpoison {s : State} (h : Canonical s) (k n : Nat) : Canonical (s.unpoison k n) := canonical_same h rfl rfl
theorem canonical_dropLoads {s : State} (h : Canonical s) (r : WaveRef) : Canonical (s.dropLoads r) := canonical_same h rfl rfl
theorem canonical_tick {s : State} (h : Canonical s) : Canonical s.tick := canonical_same h rfl rfl
theorem canonical_guardPhys {s : State} (h : Canonical s) (k n : Nat) : Canonical (s.guardPhys k n) :=
  canonical_same h (guardPhys_mem s k n) (guardPhys_teams s k n)

theorem canonical_touchAll (b : Option WaveRef) : ∀ (ls : List Loc) {s : State}, Canonical s → Canonical (s.touchAll ls b)
  | [], _, h => h
  | l :: ls, s, h => by
    show Canonical (State.touchAll (s.touch l b) ls b)
    exact canonical_touchAll b ls (canonical_touch h l b)

/-! ### What writes them -/

theorem canonical_store {s : State} (h : Canonical s) (k : Nat) (bs : List Byte) : Canonical (s.store k bs) :=
  ⟨writeN_wf bs h.1 k, by rw [store_teams]; exact h.2⟩

theorem canonical_wipe {s : State} (h : Canonical s) (k n : Nat) : Canonical (s.wipe k n) :=
  ⟨clear_wf h.1 k n, by rw [wipe_teams]; exact h.2⟩

theorem canonical_poke {s : State} (h : Canonical s) (l : Loc) (b : Byte) : Canonical (s.poke l b) := by
  cases l with
  | glob a => exact canonical_unpoison (canonical_store h a [b]) a 1
  | scr t o =>
    refine ⟨h.1, fun m hm => ?_⟩
    simp only [State.poke, List.mem_map] at hm
    obtain ⟨u, hu, rfl⟩ := hm
    split
    · exact ⟨write_wf (h.2 u hu).1 o b, (h.2 u hu).2⟩
    · exact h.2 u hu

theorem canonical_pokeAll : ∀ (ls : List Loc) (bs : List Byte) {s : State}, Canonical s → Canonical (s.pokeAll ls bs)
  | [], _, _, h => h
  | _ :: _, [], _, h => h
  | l :: ls, b :: bs, _, h => canonical_pokeAll ls bs (canonical_poke h l b)

theorem canonical_writeAt {s : State} (h : Canonical s) (ls : List Loc) (bs : List Byte) (b : Option WaveRef) :
    Canonical (s.writeAt ls bs b) := canonical_touchAll b _ (canonical_pokeAll ls bs h)

theorem canonical_wrPhys {s : State} (h : Canonical s) (k : Nat) (bs : List Byte) (b : Option WaveRef) : Canonical (s.wrPhys k bs b) :=
  canonical_touchAll b _ (canonical_unpoison (canonical_store h k bs) k bs.length)

theorem canonical_acmWrite {s : State} (h : Canonical s) (t : TeamRef) (a n v : Nat) : Canonical (s.acmWrite t a n v) := by
  refine ⟨h.1, fun m hm => ?_⟩
  simp only [State.acmWrite, List.mem_map] at hm
  obtain ⟨u, hu, rfl⟩ := hm
  split
  · exact ⟨(h.2 u hu).1, writeN_wf _ (h.2 u hu).2 _⟩
  · exact h.2 u hu

/-! ### Taking a trap -/

theorem canonical_deschedule {s : State} (h : Canonical s) (w : Wave) (t : Team) (r : Region) (f : Frame) :
    Canonical (s.deschedule w t r f) := canonical_same h rfl rfl

/-- Taking a trap writes no byte but the frame (R331 to R338). -/
theorem canonical_takeTrap {s : State} (h : Canonical s) (r : WaveRef) (ti : TrapInfo) (len : Nat) : Canonical (s.takeTrap r ti len) := by
  have hd := canonical_dropLoads h r
  unfold State.takeTrap
  dsimp only
  repeat' split
  all_goals first
    | exact h
    | exact canonical_deschedule hd ..
    | exact canonical_setWave (canonical_wrPhys hd ..) _

/-- A notice for a node's security domain writes no byte of the machine's memories. -/
theorem canonical_worldNotice {s : State} (h : Canonical s) (n c r wh : Nat) : Canonical (s.worldNotice n c r wh) := by
  unfold State.worldNotice
  split
  · exact canonical_modNode h ..
  · exact canonical_publish h ..

/-- A notice of the security controller writes no byte of the machine's memories. -/
theorem canonical_worldTrapNotice {s : State} (h : Canonical s) (t : Team) (w : Wave) (l : Launch) (c d : Nat) :
    Canonical (s.worldTrapNotice t w l c d) := by
  unfold State.worldTrapNotice
  split
  · exact canonical_worldNotice h ..
  · exact h

/-- Withdrawing the updates of a trapping instruction writes no byte (R165). -/
theorem canonical_withdrawNew {s : State} (h : Canonical s) (w : Wave) (b : Nat) : Canonical (withdrawNew s w b).1 := by
  have hf : ∀ (ps : List Pend) (c : State × Wave), Canonical c.1 → Canonical (ps.foldl (fun (c : State × Wave) p =>
      let m := s.awaited w.ref p.key
      if b ≤ p.key && p.performed && p.waits != 0 then
        let v := c.2.landAll { p with mask := p.mask &&& ~~~m } (s.geo w).index s.time
        let q : Pend := { p with mask := m, performed := false, waits := 0, writes := [] }
        (c.1.withdraw w.ref p.key, { v with pend := v.pend.map (fun e => if e.key == p.key then q else e) })
      else c) c).1 := by
    intro ps
    induction ps with
    | nil => intro c hc; exact hc
    | cons p ps ih =>
      intro c hc
      refine ih _ ?_
      dsimp only
      split
      · exact canonical_same hc rfl rfl
      · exact hc
  exact hf _ _ h

/-- Finishing an instruction keeps the form (R87). -/
theorem canonical_finishIssue {s : State} (h : Canonical s) (w0 w : Wave) (x : Option Ex) (ts : List ItemTrap) (j : Bool) (b : Nat) :
    Canonical (finishIssue s w0 w x ts j b) := by
  have h1 (v : Wave) : Canonical (if ts.isEmpty then (s, v) else withdrawNew s v b).1 := by
    split
    · exact h
    · exact canonical_withdrawNew h ..
  unfold finishIssue
  dsimp only
  split
  · exact canonical_setWave (h1 _) _
  · exact canonical_takeTrap (canonical_setWave (h1 _) _) ..

/-- A trap of every active item keeps the form. -/
theorem canonical_trapWhole {s : State} (h : Canonical s) (w : Wave) (t : Team) (l : Launch) (x : Option Ex) (pre : List ItemTrap)
    (a : Mask) (c d ab : Nat) (ads : List (Nat × Nat)) : Canonical (trapWhole s w t l x pre a c d ab ads) := by
  have h1 : Canonical (s.worldTrapNotice t w l c d) := canonical_worldTrapNotice h ..
  unfold trapWhole
  dsimp only
  split
  · exact h1
  · exact canonical_takeTrap h1 ..

/-- Issuing an instruction of a wave keeps the form when its body does (R87). -/
theorem canonical_issueWave {body : Env → Effect} {s : State} (h : Canonical s) (x : Option Ex) (word : Word) (r : WaveRef)
    (hb : ∀ e s' w' ts j, Canonical e.s → body e = .done s' w' ts j → Canonical s') : Canonical (issueWave body x word s r) := by
  have hn (w : Wave) (t : Team) : Canonical (noteIssue s w t) := canonical_same h rfl rfl
  have ho : Canonical (issueOne body x word s r).1 := by
    unfold issueOne
    split
    · split
      · exact canonical_takeTrap h ..
      · dsimp only
        split
        · exact canonical_takeTrap h ..
        · split
          · exact h
          · split
            · exact canonical_finishIssue (hn _ _) ..
            · split
              · exact h
              · exact canonical_takeTrap h ..
              · split
                · exact canonical_trapWhole h ..
                · exact canonical_takeTrap h ..
              · rename_i hd
                have h1 := hb _ _ _ _ _ (hn _ _) hd
                split
                · exact canonical_takeTrap h ..
                · split
                  · exact canonical_finishIssue h1 ..
                  · split
                    · exact canonical_finishIssue h ..
                    · split
                      · rename_i hd2; exact canonical_finishIssue (hb _ _ _ _ _ (hn _ _) hd2) ..
                      · exact canonical_trapWhole h ..
                      · exact canonical_takeTrap h ..
                      · exact h
    · exact h
  unfold issueWave
  dsimp only
  split
  · exact h
  · exact ho

end Sys2Proof.Laws
end

