-- ==== Sys2Proof/Laws/Issue.lean ====
section
/-! SUPPORT. What the shared issue of a wave's instruction can do (R87), what going on leaves (R59, R60, R68), and what the completion
of an LX instruction does (R69). -/
namespace Sys2Proof.Laws
open Sys2Proof Sys2Proof.Machine

/-- The wave after an instruction none of whose items trapped: its windows have counted the instruction, and its group stands at the
next one unless the instruction has moved its items itself. -/
def goneOn (s : State) (w0 w : Wave) (x : Option Ex) (jump : Bool) (before : Nat) : Wave :=
  let w1 := if jump then w else w.setPc w0.exec ((w0.groupPc + insLen x) % 2 ^ 32)
  let w2 := countWindows w1 w0.exec before
  let left := w0.exec &&& w2.live
  { w2 with boosted := false, group := if w2.group.isNone || left == 0 || !w2.diverged then none else some (w2.lowPc left), readyAt := s.time,
            groupIssues := if w0.fallback then w0.groupIssues + 1 else 0 }

/-- Without a trap, an issued instruction replaces its wave and does nothing else. -/
theorem finishIssue_nil (s : State) (w0 w : Wave) (x : Option Ex) (jump : Bool) (before : Nat) :
    finishIssue s w0 w x [] jump before = s.setWave (goneOn s w0 w x jump before) := by
  simp only [finishIssue, goneOn, formGroup, List.isEmpty_nil, if_true, List.any_nil, maskOf_false, Bool.false_eq_true, if_false,
    and_not_none]

/-- Under the issue conditions, and with no item that traps, an instruction does what its body does and goes on. -/
theorem issueWave_done {body : Env → Effect} {x : Option Ex} {word : Word} {s s' : State} {w w' : Wave} {t : Team} {l : Launch}
    {jump : Bool} (hw : s.wave? w.ref = some w) (ht : s.team? w.ref.team = some t) (hl : s.launch? w.ref.team.launch = some l)
    (hc : waveCheck w x word = none) (htx : w.tx.isSome = true → txAllowed word.maj word.fn = true)
    (hr : issueReady w word = true) (hbp : s.behindPackets w t word = false) (ha : w.active x ≠ 0) (hq : windowOk (wordInfo x word) x word w.view = true)
    (hp : preTraps w x word (w.active x) (s.geo w).index = [])
    (hb : body ⟨noteIssue s w t, w, t, l, x, word, w.active x⟩ = .done s' w' [] jump) :
    issueWave body x word s w.ref = s'.setWave (goneOn s' w w' x jump s.nextNum) := by
  have htx' : (w.tx.isSome && !txAllowed word.maj word.fn) = false := by
    cases h : w.tx.isSome <;> simp_all
  have ha' : (w.active x == 0) = false := by simpa using ha
  have e : issueOne body x word s w.ref = (s'.setWave (goneOn s' w w' x jump s.nextNum), false) := by
    unfold issueOne
    rw [hw, ht, hl]
    simp only [hc, htx', hr, hbp, ha', hq, hp, Bool.false_eq_true, if_false, Bool.not_true, Bool.false_and, Bool.and_false, Bool.false_or, List.isEmpty_nil,
      if_true, List.any_nil, maskOf_false, and_not_none, hb, List.nil_append, finishIssue_nil, Bool.or_true]
  unfold issueWave
  rw [e]
  simp

/-- An instruction whose word fails a check takes that check's trap for its whole group, unless its wave waits for an update at
another node. -/
theorem issueWave_check {body : Env → Effect} {x : Option Ex} {word : Word} {s : State} {w : Wave} {t : Team} {l : Launch} {c d : Nat}
    (hw : s.wave? w.ref = some w) (ht : s.team? w.ref.team = some t) (hl : s.launch? w.ref.team.launch = some l)
    (hc : waveCheck w x word = some (c, d)) :
    issueWave body x word s w.ref = if s.updating w.ref then s else trapAll s w x c d 9 w.exec [] := by
  unfold issueWave issueOne
  rw [hw, ht, hl]
  simp only [hc, Bool.true_and]

/-- An unfinished LX instruction whose answers have all arrived writes its results and leaves the wave's list (R69). -/
theorem lxComplete_done {s : State} {w : Wave} {t : Team} {p : Pend} (hw : s.wave? w.ref = some w) (ht : s.team? w.ref.team = some t)
    (hp : w.pend.find? (fun q => q.key == p.key) = some p) (h0 : p.waits = 0) (hs : w.status = .ready) (hc : t.core.isSome = true)
    (hv : t.saved = false) :
    s.lxComplete w.ref p.key =
      s.setWave { w.landAll p (s.geo w).index s.time with pend := w.pend.filter (fun q => q.key != p.key) } := by
  unfold State.lxComplete
  rw [hw]
  simp only [hp, h0, hs, ht, Option.any_some, hc, hv, Bool.not_false, Bool.and_self, bne_self_eq_false, Bool.or_self, Bool.not_true,
    Bool.false_eq_true, if_false]

end Sys2Proof.Laws
end

