-- ==== Sys2Proof/Laws/PerInstr.lean ====
section
/-! SUPPORT. Per-instruction laws. RoundTrip: the decoder reads the encoder's words of a well-formed instruction as that
instruction, with its length. -/
set_option linter.unusedVariables false
set_option Elab.async false
set_option linter.unusedSimpArgs false
namespace Sys2Proof.Laws
open Sys2Proof

/-! ### Fields of a word (R61) -/

theorem maj_mkWord {m f d a b : Nat} (hm : m < 128) (hf : f < 16) (hd : d < 128) (ha : a < 128) (hb : b < 128) :
    (mkWord m f d a b).maj = m := by
  simp only [mkWord, Word.maj, BitVec.toNat_ofNat]; omega

theorem fn_mkWord {m f d a b : Nat} (hm : m < 128) (hf : f < 16) (hd : d < 128) (ha : a < 128) (hb : b < 128) :
    (mkWord m f d a b).fn = f := by
  simp only [mkWord, Word.fn, BitVec.toNat_ofNat]; omega

theorem d7_mkWord {m f d a b : Nat} (hm : m < 128) (hf : f < 16) (hd : d < 128) (ha : a < 128) (hb : b < 128) :
    (mkWord m f d a b).d7 = d := by
  simp only [mkWord, Word.d7, BitVec.toNat_ofNat]; omega

theorem a7_mkWord {m f d a b : Nat} (hm : m < 128) (hf : f < 16) (hd : d < 128) (ha : a < 128) (hb : b < 128) :
    (mkWord m f d a b).a7 = a := by
  simp only [mkWord, Word.a7, BitVec.toNat_ofNat]; omega

theorem b7_mkWord {m f d a b : Nat} (hm : m < 128) (hf : f < 16) (hd : d < 128) (ha : a < 128) (hb : b < 128) :
    (mkWord m f d a b).b7 = b := by
  simp only [mkWord, Word.b7, BitVec.toNat_ofNat]; omega

theorem maj_mkWord21 {m f o : Nat} (hm : m < 128) (hf : f < 16) (ho : o < 2 ^ 21) : (mkWord21 m f o).maj = m := by
  simp only [mkWord21, Word.maj, BitVec.toNat_ofNat]; omega

theorem fn_mkWord21 {m f o : Nat} (hm : m < 128) (hf : f < 16) (ho : o < 2 ^ 21) : (mkWord21 m f o).fn = f := by
  simp only [mkWord21, Word.fn, BitVec.toNat_ofNat]; omega

theorem low21_mkWord21 {m f o : Nat} (hm : m < 128) (hf : f < 16) (ho : o < 2 ^ 21) : (mkWord21 m f o).low21 = o := by
  simp only [mkWord21, Word.low21, BitVec.toNat_ofNat]; omega

/-! ### The EX word (R79) -/

theorem ex_maj (x : Ex) : x.word.maj = 0x7F := by
  have h1 : b2n x.neg * 8 + x.p.toNat < 16 := by
    have := x.p.isLt
    cases x.neg <;> simp [b2n] <;> omega
  exact maj_mkWord21 (by omega) h1 x.ext.isLt

theorem ex_ofWord (x : Ex) : Ex.ofWord x.word = x := by
  obtain ⟨n, p, e⟩ := x
  have hp := p.isLt
  have h1 : b2n n * 8 + p.toNat < 16 := by cases n <;> simp [b2n] <;> omega
  simp only [Ex.ofWord, Ex.word, fn_mkWord21 (by omega : 0x7F < 128) h1 e.isLt, low21_mkWord21 (by omega : 0x7F < 128) h1 e.isLt]
  have h2 : ((b2n n * 8 + p.toNat) / 8 == 1) = n := by cases n <;> simp [b2n] <;> omega
  have h3 : BitVec.ofNat 3 (b2n n * 8 + p.toNat) = p := by
    apply BitVec.eq_of_toNat_eq
    cases n <;> simp [b2n, BitVec.toNat_ofNat] <;> omega
  have h4 : BitVec.ofNat 21 e.toNat = e := by simp
  rw [h2, h3, h4]

/-! ### Bytes and words -/

theorem wordOfBytes_toBytes (w : Word) :
    wordOfBytes (BitVec.ofNat 8 w.toNat) (BitVec.ofNat 8 (w.toNat / 256)) (BitVec.ofNat 8 (w.toNat / 256 / 256))
      (BitVec.ofNat 8 (w.toNat / 256 / 256 / 256)) = w := by
  apply BitVec.eq_of_toNat_eq
  have := w.isLt
  simp only [wordOfBytes, BitVec.toNat_ofNat]; omega

theorem wordBytes_eq (w : Word) : wordBytes w = [BitVec.ofNat 8 w.toNat, BitVec.ofNat 8 (w.toNat / 256),
    BitVec.ofNat 8 (w.toNat / 256 / 256), BitVec.ofNat 8 (w.toNat / 256 / 256 / 256)] := by
  simp [wordBytes, toBytes]

theorem decodeWords_one (w : Word) (h : w.maj ≠ 0x7F) : decodeWords [w] = some (decodeWord none w, 4) := by
  simp only [decodeWords, List.flatMap_cons, List.flatMap_nil, wordBytes_eq, List.append_nil, decodeBytes, wordOfBytes_toBytes]
  rw [if_neg (by simpa using h)]

theorem decodeWords_two (w n : Word) (h : w.maj = 0x7F) : decodeWords [w, n] = some (decodePair w n, 8) := by
  simp only [decodeWords, List.flatMap_cons, List.flatMap_nil, wordBytes_eq, List.append_nil, List.cons_append, List.nil_append,
    decodeBytes, wordOfBytes_toBytes]
  rw [if_pos (by simpa using h)]

/-- An EX pair whose second word is neither an EX, a BX word nor of an unassigned major decodes as that word under the EX. -/
theorem decode_withEx (x : Option Ex) (w : Word) (h : w.maj ≠ 0x7F) (hx : x = none ∨ (isBx w.maj = false ∧ majorAssigned w.maj = true)) :
    decodeWords (withEx x w) = some (decodeWord x w, 4 * (withEx x w).length) := by
  cases x with
  | none => simpa [withEx] using decodeWords_one w h
  | some e =>
    obtain h0 | ⟨h1, h2⟩ := hx
    · cases h0
    · simp [withEx, decodeWords_two _ _ (ex_maj e), decodePair, h, h1, h2, ex_ofWord]

theorem ofNat_toNat7 (a : R7) : BitVec.ofNat 7 a.toNat = a := by simp
theorem ofNat_toNat21 (a : BitVec 21) : BitVec.ofNat 21 a.toNat = a := by simp
theorem ofNat_toNat4 (a : BitVec 4) : BitVec.ofNat 4 a.toNat = a := by simp

/-! ### What the fn field of a typed instruction gives back -/

theorem int_lt (s : Bool) (t : IntTy) : b2n s * 8 + t.code < 16 := by cases s <;> cases t <;> decide
theorem int_s (s : Bool) (t : IntTy) : ((b2n s * 8 + t.code) / 8 % 2 == 1) = s := by cases s <;> cases t <;> rfl
theorem int_t (s : Bool) (t : IntTy) : IntTy.ofCode ((b2n s * 8 + t.code) % 8) = t := by cases s <;> cases t <;> rfl
theorem fp_lt16 (s : Bool) (r : Rm) : b2n s * 4 + r.code < 16 := by cases s <;> cases r <;> decide
theorem fp_s (s : Bool) (r : Rm) : ((b2n s * 4 + r.code) / 4 % 2 == 1) = s := by cases s <;> cases r <;> rfl
theorem fp_r (s : Bool) (r : Rm) : Rm.ofCode ((b2n s * 4 + r.code) % 4) = r := by cases s <;> cases r <;> rfl
theorem hp_lt (m s : Bool) (r : Rm) : b2n m * 8 + b2n s * 4 + r.code < 16 := by cases m <;> cases s <;> cases r <;> decide
theorem hp_m (m s : Bool) (r : Rm) : ((b2n m * 8 + b2n s * 4 + r.code) / 8 % 2 == 1) = m := by cases m <;> cases s <;> cases r <;> rfl
theorem hp_s (m s : Bool) (r : Rm) : ((b2n m * 8 + b2n s * 4 + r.code) / 4 % 2 == 1) = s := by cases m <;> cases s <;> cases r <;> rfl
theorem hp_r (m s : Bool) (r : Rm) : Rm.ofCode ((b2n m * 8 + b2n s * 4 + r.code) % 4) = r := by cases m <;> cases s <;> cases r <;> rfl
theorem m8_lt (m : Bool) : b2n m * 8 < 16 := by cases m <;> decide
theorem m8_m (m : Bool) : (b2n m * 8 / 8 % 2 == 1) = m := by cases m <;> rfl
theorem rm_lt (r : Rm) : r.code < 16 := by cases r <;> decide
theorem rm_r (r : Rm) : Rm.ofCode (r.code % 4) = r := by cases r <;> rfl
theorem ic_q (q : ICond) : ICond.ofCode q.code = q := by cases q <;> rfl
theorem fc_q (q : FCond) : FCond.ofCode q.code = q := by cases q <;> rfl
theorem po_q (q : POp) : POp.ofCode q.code = q := by cases q <;> rfl
theorem np_lt (n : Bool) (p : BitVec 3) : b2n n * 8 + p.toNat < 16 := by
  have := p.isLt; cases n <;> simp [b2n] <;> omega
theorem np_n (n : Bool) (p : BitVec 3) : ((b2n n * 8 + p.toNat) / 8 % 2 == 1) = n := by
  have := p.isLt; cases n <;> simp [b2n] <;> omega
theorem np_p (n : Bool) (p : BitVec 3) : BitVec.ofNat 3 ((b2n n * 8 + p.toNat) % 8) = p := by
  apply BitVec.eq_of_toNat_eq
  have := p.isLt; cases n <;> simp [b2n, BitVec.toNat_ofNat] <;> omega
theorem cvt_lt (dt : BitVec 4) (st : BitVec 3) : dt.toNat * 8 + st.toNat < 128 := by have := dt.isLt; have := st.isLt; omega
theorem cvt_dt (dt : BitVec 4) (st : BitVec 3) : BitVec.ofNat 4 ((dt.toNat * 8 + st.toNat) / 8) = dt := by
  apply BitVec.eq_of_toNat_eq; have := dt.isLt; have := st.isLt; simp only [BitVec.toNat_ofNat]; omega
theorem cvt_st (dt : BitVec 4) (st : BitVec 3) : BitVec.ofNat 3 ((dt.toNat * 8 + st.toNat) % 8) = st := by
  apply BitVec.eq_of_toNat_eq; have := dt.isLt; have := st.isLt; simp only [BitVec.toNat_ofNat]; omega

namespace RoundTrip

/-- The decoder reads the words of a well-formed instruction as that instruction, and its length; an event has no words. -/
def Statement (i : Instr) : Prop :=
  i.wf = true → encode i = [] ∨ decodeWords (encode i) = some (i, 4 * (encode i).length)

theorem of_word {i : Instr} {x : Option Ex} {m f d a b : Nat} (he : encode i = withEx x (mkWord m f d a b))
    (hm : m < 127) (hf : f < 16) (hd : d < 128) (ha : a < 128) (hb : b < 128) (hB : isBx m = false) (hA : majorAssigned m = true)
    (hF : fnOk m f = true)
    (hX : ((!isCx m || (memberOk m (exTy x) && !exMode1 x)) && fieldOk (fixedFields m f (exTy x)).1 d &&
      fieldOk (fixedFields m f (exTy x)).2.1 a && fieldOk (fixedFields m f (exTy x)).2.2 b) = true)
    (hR : ∀ w : Word, w.maj = m → w.fn = f → w.d7 = d → w.a7 = a → w.b7 = b → decodeRow x w = i) :
    encode i = [] ∨ decodeWords (encode i) = some (i, 4 * (encode i).length) := by
  have k := maj_mkWord (m := m) (by omega) hf hd ha hb
  have k1 := fn_mkWord (m := m) (by omega) hf hd ha hb
  have k2 := d7_mkWord (m := m) (by omega) hf hd ha hb
  have k3 := a7_mkWord (m := m) (by omega) hf hd ha hb
  have k4 := b7_mkWord (m := m) (by omega) hf hd ha hb
  have hR := hR _ k k1 k2 k3 k4
  right
  rw [he, decode_withEx x _ (by rw [k]; omega) (.inr (by rw [k]; exact ⟨hB, hA⟩))]
  have e : decodeWord x (mkWord m f d a b) = i := by
    simp only [decodeWord, fixedOk, k, k1, k2, k3, k4, hA, hF, hB, hR, hX]; simp
  rw [e]

/-! ### One lemma per constructor -/

theorem iadd (x : Option Ex) (s : Bool) (t : IntTy) (d : R7) (a : R7) (b : R7) : Statement (.iadd x s t d a b) := by
  intro h
  exact of_word (x := x) (m := 0x00) (f := (b2n s * 8 + t.code)) (d := d.toNat) (a := a.toNat) (b := b.toNat) rfl (by decide) (int_lt s t) d.isLt a.isLt b.isLt rfl rfl rfl
    rfl
    (fun w h1 h2 h3 h4 h5 => by delta decodeRow; rw [h1, h2, h3, h4, h5]; show Instr.iadd _ _ _ _ _ _ = _; simp only [ofNat_toNat7, ofNat_toNat4, int_s, int_t])

theorem isub (x : Option Ex) (s : Bool) (t : IntTy) (d : R7) (a : R7) (b : R7) : Statement (.isub x s t d a b) := by
  intro h
  exact of_word (x := x) (m := 0x01) (f := (b2n s * 8 + t.code)) (d := d.toNat) (a := a.toNat) (b := b.toNat) rfl (by decide) (int_lt s t) d.isLt a.isLt b.isLt rfl rfl rfl
    rfl
    (fun w h1 h2 h3 h4 h5 => by delta decodeRow; rw [h1, h2, h3, h4, h5]; show Instr.isub _ _ _ _ _ _ = _; simp only [ofNat_toNat7, ofNat_toNat4, int_s, int_t])

theorem imul (x : Option Ex) (s : Bool) (t : IntTy) (d : R7) (a : R7) (b : R7) : Statement (.imul x s t d a b) := by
  intro h
  exact of_word (x := x) (m := 0x02) (f := (b2n s * 8 + t.code)) (d := d.toNat) (a := a.toNat) (b := b.toNat) rfl (by decide) (int_lt s t) d.isLt a.isLt b.isLt rfl rfl rfl
    rfl
    (fun w h1 h2 h3 h4 h5 => by delta decodeRow; rw [h1, h2, h3, h4, h5]; show Instr.imul _ _ _ _ _ _ = _; simp only [ofNat_toNat7, ofNat_toNat4, int_s, int_t])

theorem imulh (x : Option Ex) (s : Bool) (t : IntTy) (d : R7) (a : R7) (b : R7) : Statement (.imulh x s t d a b) := by
  intro h
  exact of_word (x := x) (m := 0x03) (f := (b2n s * 8 + t.code)) (d := d.toNat) (a := a.toNat) (b := b.toNat) rfl (by decide) (int_lt s t) d.isLt a.isLt b.isLt rfl rfl (by revert h; cases s <;> cases t <;> first | (intro _; rfl) | (intro h; exact absurd h Bool.false_ne_true))
    rfl
    (fun w h1 h2 h3 h4 h5 => by delta decodeRow; rw [h1, h2, h3, h4, h5]; show Instr.imulh _ _ _ _ _ _ = _; simp only [ofNat_toNat7, ofNat_toNat4, int_s, int_t])

theorem imad (x : Option Ex) (s : Bool) (t : IntTy) (d : R7) (a : R7) (b : R7) : Statement (.imad x s t d a b) := by
  intro h
  exact of_word (x := x) (m := 0x04) (f := (b2n s * 8 + t.code)) (d := d.toNat) (a := a.toNat) (b := b.toNat) rfl (by decide) (int_lt s t) d.isLt a.isLt b.isLt rfl rfl rfl
    rfl
    (fun w h1 h2 h3 h4 h5 => by delta decodeRow; rw [h1, h2, h3, h4, h5]; show Instr.imad _ _ _ _ _ _ = _; simp only [ofNat_toNat7, ofNat_toNat4, int_s, int_t])

theorem iaddc (x : Option Ex) (s : Bool) (t : IntTy) (d : R7) (a : R7) (b : R7) : Statement (.iaddc x s t d a b) := by
  intro h
  exact of_word (x := x) (m := 0x05) (f := (b2n s * 8 + t.code)) (d := d.toNat) (a := a.toNat) (b := b.toNat) rfl (by decide) (int_lt s t) d.isLt a.isLt b.isLt rfl rfl (by revert h; cases s <;> cases t <;> first | (intro _; rfl) | (intro h; exact absurd h Bool.false_ne_true))
    rfl
    (fun w h1 h2 h3 h4 h5 => by delta decodeRow; rw [h1, h2, h3, h4, h5]; show Instr.iaddc _ _ _ _ _ _ = _; simp only [ofNat_toNat7, ofNat_toNat4, int_s, int_t])

theorem isubb (x : Option Ex) (s : Bool) (t : IntTy) (d : R7) (a : R7) (b : R7) : Statement (.isubb x s t d a b) := by
  intro h
  exact of_word (x := x) (m := 0x06) (f := (b2n s * 8 + t.code)) (d := d.toNat) (a := a.toNat) (b := b.toNat) rfl (by decide) (int_lt s t) d.isLt a.isLt b.isLt rfl rfl (by revert h; cases s <;> cases t <;> first | (intro _; rfl) | (intro h; exact absurd h Bool.false_ne_true))
    rfl
    (fun w h1 h2 h3 h4 h5 => by delta decodeRow; rw [h1, h2, h3, h4, h5]; show Instr.isubb _ _ _ _ _ _ = _; simp only [ofNat_toNat7, ofNat_toNat4, int_s, int_t])

theorem imin (x : Option Ex) (s : Bool) (t : IntTy) (d : R7) (a : R7) (b : R7) : Statement (.imin x s t d a b) := by
  intro h
  exact of_word (x := x) (m := 0x07) (f := (b2n s * 8 + t.code)) (d := d.toNat) (a := a.toNat) (b := b.toNat) rfl (by decide) (int_lt s t) d.isLt a.isLt b.isLt rfl rfl rfl
    rfl
    (fun w h1 h2 h3 h4 h5 => by delta decodeRow; rw [h1, h2, h3, h4, h5]; show Instr.imin _ _ _ _ _ _ = _; simp only [ofNat_toNat7, ofNat_toNat4, int_s, int_t])

theorem imax (x : Option Ex) (s : Bool) (t : IntTy) (d : R7) (a : R7) (b : R7) : Statement (.imax x s t d a b) := by
  intro h
  exact of_word (x := x) (m := 0x08) (f := (b2n s * 8 + t.code)) (d := d.toNat) (a := a.toNat) (b := b.toNat) rfl (by decide) (int_lt s t) d.isLt a.isLt b.isLt rfl rfl rfl
    rfl
    (fun w h1 h2 h3 h4 h5 => by delta decodeRow; rw [h1, h2, h3, h4, h5]; show Instr.imax _ _ _ _ _ _ = _; simp only [ofNat_toNat7, ofNat_toNat4, int_s, int_t])

theorem iabs (x : Option Ex) (s : Bool) (t : IntTy) (d : R7) (a : R7) : Statement (.iabs x s t d a) := by
  intro h
  exact of_word (x := x) (m := 0x09) (f := (b2n s * 8 + t.code)) (d := d.toNat) (a := a.toNat) (b := 116) rfl (by decide) (int_lt s t) d.isLt a.isLt (by decide) rfl rfl rfl
    rfl
    (fun w h1 h2 h3 h4 h5 => by delta decodeRow; rw [h1, h2, h3, h4, h5]; show Instr.iabs _ _ _ _ _ = _; simp only [ofNat_toNat7, ofNat_toNat4, int_s, int_t])

theorem ineg (x : Option Ex) (s : Bool) (t : IntTy) (d : R7) (a : R7) : Statement (.ineg x s t d a) := by
  intro h
  exact of_word (x := x) (m := 0x0A) (f := (b2n s * 8 + t.code)) (d := d.toNat) (a := a.toNat) (b := 116) rfl (by decide) (int_lt s t) d.isLt a.isLt (by decide) rfl rfl rfl
    rfl
    (fun w h1 h2 h3 h4 h5 => by delta decodeRow; rw [h1, h2, h3, h4, h5]; show Instr.ineg _ _ _ _ _ = _; simp only [ofNat_toNat7, ofNat_toNat4, int_s, int_t])

theorem and (x : Option Ex) (s : Bool) (t : IntTy) (d : R7) (a : R7) (b : R7) : Statement (.and x s t d a b) := by
  intro h
  exact of_word (x := x) (m := 0x0B) (f := (b2n s * 8 + t.code)) (d := d.toNat) (a := a.toNat) (b := b.toNat) rfl (by decide) (int_lt s t) d.isLt a.isLt b.isLt rfl rfl (by revert h; cases s <;> cases t <;> first | (intro _; rfl) | (intro h; exact absurd h Bool.false_ne_true))
    rfl
    (fun w h1 h2 h3 h4 h5 => by delta decodeRow; rw [h1, h2, h3, h4, h5]; show Instr.and _ _ _ _ _ _ = _; simp only [ofNat_toNat7, ofNat_toNat4, int_s, int_t])

theorem or (x : Option Ex) (s : Bool) (t : IntTy) (d : R7) (a : R7) (b : R7) : Statement (.or x s t d a b) := by
  intro h
  exact of_word (x := x) (m := 0x0C) (f := (b2n s * 8 + t.code)) (d := d.toNat) (a := a.toNat) (b := b.toNat) rfl (by decide) (int_lt s t) d.isLt a.isLt b.isLt rfl rfl (by revert h; cases s <;> cases t <;> first | (intro _; rfl) | (intro h; exact absurd h Bool.false_ne_true))
    rfl
    (fun w h1 h2 h3 h4 h5 => by delta decodeRow; rw [h1, h2, h3, h4, h5]; show Instr.or _ _ _ _ _ _ = _; simp only [ofNat_toNat7, ofNat_toNat4, int_s, int_t])

theorem xor (x : Option Ex) (s : Bool) (t : IntTy) (d : R7) (a : R7) (b : R7) : Statement (.xor x s t d a b) := by
  intro h
  exact of_word (x := x) (m := 0x0D) (f := (b2n s * 8 + t.code)) (d := d.toNat) (a := a.toNat) (b := b.toNat) rfl (by decide) (int_lt s t) d.isLt a.isLt b.isLt rfl rfl (by revert h; cases s <;> cases t <;> first | (intro _; rfl) | (intro h; exact absurd h Bool.false_ne_true))
    rfl
    (fun w h1 h2 h3 h4 h5 => by delta decodeRow; rw [h1, h2, h3, h4, h5]; show Instr.xor _ _ _ _ _ _ = _; simp only [ofNat_toNat7, ofNat_toNat4, int_s, int_t])

theorem andn (x : Option Ex) (s : Bool) (t : IntTy) (d : R7) (a : R7) (b : R7) : Statement (.andn x s t d a b) := by
  intro h
  exact of_word (x := x) (m := 0x0E) (f := (b2n s * 8 + t.code)) (d := d.toNat) (a := a.toNat) (b := b.toNat) rfl (by decide) (int_lt s t) d.isLt a.isLt b.isLt rfl rfl (by revert h; cases s <;> cases t <;> first | (intro _; rfl) | (intro h; exact absurd h Bool.false_ne_true))
    rfl
    (fun w h1 h2 h3 h4 h5 => by delta decodeRow; rw [h1, h2, h3, h4, h5]; show Instr.andn _ _ _ _ _ _ = _; simp only [ofNat_toNat7, ofNat_toNat4, int_s, int_t])

theorem shl (x : Option Ex) (s : Bool) (t : IntTy) (d : R7) (a : R7) (b : R7) : Statement (.shl x s t d a b) := by
  intro h
  exact of_word (x := x) (m := 0x0F) (f := (b2n s * 8 + t.code)) (d := d.toNat) (a := a.toNat) (b := b.toNat) rfl (by decide) (int_lt s t) d.isLt a.isLt b.isLt rfl rfl (by revert h; cases s <;> cases t <;> first | (intro _; rfl) | (intro h; exact absurd h Bool.false_ne_true))
    rfl
    (fun w h1 h2 h3 h4 h5 => by delta decodeRow; rw [h1, h2, h3, h4, h5]; show Instr.shl _ _ _ _ _ _ = _; simp only [ofNat_toNat7, ofNat_toNat4, int_s, int_t])

theorem shr (x : Option Ex) (s : Bool) (t : IntTy) (d : R7) (a : R7) (b : R7) : Statement (.shr x s t d a b) := by
  intro h
  exact of_word (x := x) (m := 0x10) (f := (b2n s * 8 + t.code)) (d := d.toNat) (a := a.toNat) (b := b.toNat) rfl (by decide) (int_lt s t) d.isLt a.isLt b.isLt rfl rfl (by revert h; cases s <;> cases t <;> first | (intro _; rfl) | (intro h; exact absurd h Bool.false_ne_true))
    rfl
    (fun w h1 h2 h3 h4 h5 => by delta decodeRow; rw [h1, h2, h3, h4, h5]; show Instr.shr _ _ _ _ _ _ = _; simp only [ofNat_toNat7, ofNat_toNat4, int_s, int_t])

theorem sar (x : Option Ex) (s : Bool) (t : IntTy) (d : R7) (a : R7) (b : R7) : Statement (.sar x s t d a b) := by
  intro h
  exact of_word (x := x) (m := 0x11) (f := (b2n s * 8 + t.code)) (d := d.toNat) (a := a.toNat) (b := b.toNat) rfl (by decide) (int_lt s t) d.isLt a.isLt b.isLt rfl rfl (by revert h; cases s <;> cases t <;> first | (intro _; rfl) | (intro h; exact absurd h Bool.false_ne_true))
    rfl
    (fun w h1 h2 h3 h4 h5 => by delta decodeRow; rw [h1, h2, h3, h4, h5]; show Instr.sar _ _ _ _ _ _ = _; simp only [ofNat_toNat7, ofNat_toNat4, int_s, int_t])

theorem rol (x : Option Ex) (s : Bool) (t : IntTy) (d : R7) (a : R7) (b : R7) : Statement (.rol x s t d a b) := by
  intro h
  exact of_word (x := x) (m := 0x12) (f := (b2n s * 8 + t.code)) (d := d.toNat) (a := a.toNat) (b := b.toNat) rfl (by decide) (int_lt s t) d.isLt a.isLt b.isLt rfl rfl (by revert h; cases s <;> cases t <;> first | (intro _; rfl) | (intro h; exact absurd h Bool.false_ne_true))
    rfl
    (fun w h1 h2 h3 h4 h5 => by delta decodeRow; rw [h1, h2, h3, h4, h5]; show Instr.rol _ _ _ _ _ _ = _; simp only [ofNat_toNat7, ofNat_toNat4, int_s, int_t])

theorem popc (x : Option Ex) (s : Bool) (t : IntTy) (d : R7) (a : R7) : Statement (.popc x s t d a) := by
  intro h
  exact of_word (x := x) (m := 0x13) (f := (b2n s * 8 + t.code)) (d := d.toNat) (a := a.toNat) (b := 116) rfl (by decide) (int_lt s t) d.isLt a.isLt (by decide) rfl rfl (by revert h; cases s <;> cases t <;> first | (intro _; rfl) | (intro h; exact absurd h Bool.false_ne_true))
    rfl
    (fun w h1 h2 h3 h4 h5 => by delta decodeRow; rw [h1, h2, h3, h4, h5]; show Instr.popc _ _ _ _ _ = _; simp only [ofNat_toNat7, ofNat_toNat4, int_s, int_t])

theorem clz (x : Option Ex) (s : Bool) (t : IntTy) (d : R7) (a : R7) : Statement (.clz x s t d a) := by
  intro h
  exact of_word (x := x) (m := 0x14) (f := (b2n s * 8 + t.code)) (d := d.toNat) (a := a.toNat) (b := 116) rfl (by decide) (int_lt s t) d.isLt a.isLt (by decide) rfl rfl (by revert h; cases s <;> cases t <;> first | (intro _; rfl) | (intro h; exact absurd h Bool.false_ne_true))
    rfl
    (fun w h1 h2 h3 h4 h5 => by delta decodeRow; rw [h1, h2, h3, h4, h5]; show Instr.clz _ _ _ _ _ = _; simp only [ofNat_toNat7, ofNat_toNat4, int_s, int_t])

theorem brev (x : Option Ex) (s : Bool) (t : IntTy) (d : R7) (a : R7) : Statement (.brev x s t d a) := by
  intro h
  exact of_word (x := x) (m := 0x15) (f := (b2n s * 8 + t.code)) (d := d.toNat) (a := a.toNat) (b := 116) rfl (by decide) (int_lt s t) d.isLt a.isLt (by decide) rfl rfl (by revert h; cases s <;> cases t <;> first | (intro _; rfl) | (intro h; exact absurd h Bool.false_ne_true))
    rfl
    (fun w h1 h2 h3 h4 h5 => by delta decodeRow; rw [h1, h2, h3, h4, h5]; show Instr.brev _ _ _ _ _ = _; simp only [ofNat_toNat7, ofNat_toNat4, int_s, int_t])

theorem bfx (x : Option Ex) (s : Bool) (t : IntTy) (d : R7) (a : R7) (b : R7) : Statement (.bfx x s t d a b) := by
  intro h
  exact of_word (x := x) (m := 0x16) (f := (b2n s * 8 + t.code)) (d := d.toNat) (a := a.toNat) (b := b.toNat) rfl (by decide) (int_lt s t) d.isLt a.isLt b.isLt rfl rfl (by revert h; cases s <;> cases t <;> first | (intro _; rfl) | (intro h; exact absurd h Bool.false_ne_true))
    rfl
    (fun w h1 h2 h3 h4 h5 => by delta decodeRow; rw [h1, h2, h3, h4, h5]; show Instr.bfx _ _ _ _ _ _ = _; simp only [ofNat_toNat7, ofNat_toNat4, int_s, int_t])

theorem bfi (x : Option Ex) (s : Bool) (t : IntTy) (d : R7) (a : R7) (b : R7) : Statement (.bfi x s t d a b) := by
  intro h
  exact of_word (x := x) (m := 0x17) (f := (b2n s * 8 + t.code)) (d := d.toNat) (a := a.toNat) (b := b.toNat) rfl (by decide) (int_lt s t) d.isLt a.isLt b.isLt rfl rfl (by revert h; cases s <;> cases t <;> first | (intro _; rfl) | (intro h; exact absurd h Bool.false_ne_true))
    rfl
    (fun w h1 h2 h3 h4 h5 => by delta decodeRow; rw [h1, h2, h3, h4, h5]; show Instr.bfi _ _ _ _ _ _ = _; simp only [ofNat_toNat7, ofNat_toNat4, int_s, int_t])

theorem lea (x : Option Ex) (s : Bool) (t : IntTy) (d : R7) (a : R7) (b : R7) : Statement (.lea x s t d a b) := by
  intro h
  exact of_word (x := x) (m := 0x18) (f := (b2n s * 8 + t.code)) (d := d.toNat) (a := a.toNat) (b := b.toNat) rfl (by decide) (int_lt s t) d.isLt a.isLt b.isLt rfl rfl (by revert h; cases s <;> cases t <;> first | (intro _; rfl) | (intro h; exact absurd h Bool.false_ne_true))
    rfl
    (fun w h1 h2 h3 h4 h5 => by delta decodeRow; rw [h1, h2, h3, h4, h5]; show Instr.lea _ _ _ _ _ _ = _; simp only [ofNat_toNat7, ofNat_toNat4, int_s, int_t])

theorem bpick (x : Option Ex) (s : Bool) (t : IntTy) (d : R7) (a : R7) (b : R7) : Statement (.bpick x s t d a b) := by
  intro h
  exact of_word (x := x) (m := 0x19) (f := (b2n s * 8 + t.code)) (d := d.toNat) (a := a.toNat) (b := b.toNat) rfl (by decide) (int_lt s t) d.isLt a.isLt b.isLt rfl rfl (by revert h; cases s <;> cases t <;> first | (intro _; rfl) | (intro h; exact absurd h Bool.false_ne_true))
    rfl
    (fun w h1 h2 h3 h4 h5 => by delta decodeRow; rw [h1, h2, h3, h4, h5]; show Instr.bpick _ _ _ _ _ _ = _; simp only [ofNat_toNat7, ofNat_toNat4, int_s, int_t])

theorem fadd (x : Option Ex) (s : Bool) (r : Rm) (d : R7) (a : R7) (b : R7) : Statement (.fadd x s r d a b) := by
  intro h
  exact of_word (x := x) (m := 0x20) (f := (b2n s * 4 + r.code)) (d := d.toNat) (a := a.toNat) (b := b.toNat) rfl (by decide) (fp_lt16 s r) d.isLt a.isLt b.isLt rfl rfl (by cases s <;> cases r <;> decide)
    rfl
    (fun w h1 h2 h3 h4 h5 => by delta decodeRow; rw [h1, h2, h3, h4, h5]; show Instr.fadd _ _ _ _ _ _ = _; simp only [ofNat_toNat7, ofNat_toNat4, fp_s, fp_r])

theorem fsub (x : Option Ex) (s : Bool) (r : Rm) (d : R7) (a : R7) (b : R7) : Statement (.fsub x s r d a b) := by
  intro h
  exact of_word (x := x) (m := 0x21) (f := (b2n s * 4 + r.code)) (d := d.toNat) (a := a.toNat) (b := b.toNat) rfl (by decide) (fp_lt16 s r) d.isLt a.isLt b.isLt rfl rfl (by cases s <;> cases r <;> decide)
    rfl
    (fun w h1 h2 h3 h4 h5 => by delta decodeRow; rw [h1, h2, h3, h4, h5]; show Instr.fsub _ _ _ _ _ _ = _; simp only [ofNat_toNat7, ofNat_toNat4, fp_s, fp_r])

theorem fmul (x : Option Ex) (s : Bool) (r : Rm) (d : R7) (a : R7) (b : R7) : Statement (.fmul x s r d a b) := by
  intro h
  exact of_word (x := x) (m := 0x22) (f := (b2n s * 4 + r.code)) (d := d.toNat) (a := a.toNat) (b := b.toNat) rfl (by decide) (fp_lt16 s r) d.isLt a.isLt b.isLt rfl rfl (by cases s <;> cases r <;> decide)
    rfl
    (fun w h1 h2 h3 h4 h5 => by delta decodeRow; rw [h1, h2, h3, h4, h5]; show Instr.fmul _ _ _ _ _ _ = _; simp only [ofNat_toNat7, ofNat_toNat4, fp_s, fp_r])

theorem ffma (x : Option Ex) (s : Bool) (r : Rm) (d : R7) (a : R7) (b : R7) : Statement (.ffma x s r d a b) := by
  intro h
  exact of_word (x := x) (m := 0x23) (f := (b2n s * 4 + r.code)) (d := d.toNat) (a := a.toNat) (b := b.toNat) rfl (by decide) (fp_lt16 s r) d.isLt a.isLt b.isLt rfl rfl (by cases s <;> cases r <;> decide)
    rfl
    (fun w h1 h2 h3 h4 h5 => by delta decodeRow; rw [h1, h2, h3, h4, h5]; show Instr.ffma _ _ _ _ _ _ = _; simp only [ofNat_toNat7, ofNat_toNat4, fp_s, fp_r])

theorem fmin (x : Option Ex) (d : R7) (a : R7) (b : R7) : Statement (.fmin x d a b) := by
  intro h
  exact of_word (x := x) (m := 0x24) (f := 0) (d := d.toNat) (a := a.toNat) (b := b.toNat) rfl (by decide) (by decide) d.isLt a.isLt b.isLt rfl rfl rfl
    rfl
    (fun w h1 h2 h3 h4 h5 => by delta decodeRow; rw [h1, h2, h3, h4, h5]; show Instr.fmin _ _ _ _ = _; simp only [ofNat_toNat7, ofNat_toNat4])

theorem fmax (x : Option Ex) (d : R7) (a : R7) (b : R7) : Statement (.fmax x d a b) := by
  intro h
  exact of_word (x := x) (m := 0x25) (f := 0) (d := d.toNat) (a := a.toNat) (b := b.toNat) rfl (by decide) (by decide) d.isLt a.isLt b.isLt rfl rfl rfl
    rfl
    (fun w h1 h2 h3 h4 h5 => by delta decodeRow; rw [h1, h2, h3, h4, h5]; show Instr.fmax _ _ _ _ = _; simp only [ofNat_toNat7, ofNat_toNat4])

theorem frcp (x : Option Ex) (l : BitVec 4) (d : R7) (a : R7) : Statement (.frcp x l d a) := by
  intro h
  exact of_word (x := x) (m := 0x26) (f := l.toNat) (d := d.toNat) (a := a.toNat) (b := 116) rfl (by decide) (l.isLt) d.isLt a.isLt (by decide) rfl rfl rfl
    rfl
    (fun w h1 h2 h3 h4 h5 => by delta decodeRow; rw [h1, h2, h3, h4, h5]; show Instr.frcp _ _ _ _ = _; simp only [ofNat_toNat7, ofNat_toNat4])

theorem frsq (x : Option Ex) (l : BitVec 4) (d : R7) (a : R7) : Statement (.frsq x l d a) := by
  intro h
  exact of_word (x := x) (m := 0x27) (f := l.toNat) (d := d.toNat) (a := a.toNat) (b := 116) rfl (by decide) (l.isLt) d.isLt a.isLt (by decide) rfl rfl rfl
    rfl
    (fun w h1 h2 h3 h4 h5 => by delta decodeRow; rw [h1, h2, h3, h4, h5]; show Instr.frsq _ _ _ _ = _; simp only [ofNat_toNat7, ofNat_toNat4])

theorem fsqrt (x : Option Ex) (l : BitVec 4) (d : R7) (a : R7) : Statement (.fsqrt x l d a) := by
  intro h
  exact of_word (x := x) (m := 0x28) (f := l.toNat) (d := d.toNat) (a := a.toNat) (b := 116) rfl (by decide) (l.isLt) d.isLt a.isLt (by decide) rfl rfl rfl
    rfl
    (fun w h1 h2 h3 h4 h5 => by delta decodeRow; rw [h1, h2, h3, h4, h5]; show Instr.fsqrt _ _ _ _ = _; simp only [ofNat_toNat7, ofNat_toNat4])

theorem fexp2 (x : Option Ex) (l : BitVec 4) (d : R7) (a : R7) : Statement (.fexp2 x l d a) := by
  intro h
  exact of_word (x := x) (m := 0x29) (f := l.toNat) (d := d.toNat) (a := a.toNat) (b := 116) rfl (by decide) (l.isLt) d.isLt a.isLt (by decide) rfl rfl rfl
    rfl
    (fun w h1 h2 h3 h4 h5 => by delta decodeRow; rw [h1, h2, h3, h4, h5]; show Instr.fexp2 _ _ _ _ = _; simp only [ofNat_toNat7, ofNat_toNat4])

theorem flog2 (x : Option Ex) (l : BitVec 4) (d : R7) (a : R7) : Statement (.flog2 x l d a) := by
  intro h
  exact of_word (x := x) (m := 0x2A) (f := l.toNat) (d := d.toNat) (a := a.toNat) (b := 116) rfl (by decide) (l.isLt) d.isLt a.isLt (by decide) rfl rfl rfl
    rfl
    (fun w h1 h2 h3 h4 h5 => by delta decodeRow; rw [h1, h2, h3, h4, h5]; show Instr.flog2 _ _ _ _ = _; simp only [ofNat_toNat7, ofNat_toNat4])

theorem fsin (x : Option Ex) (l : BitVec 4) (d : R7) (a : R7) : Statement (.fsin x l d a) := by
  intro h
  exact of_word (x := x) (m := 0x2B) (f := l.toNat) (d := d.toNat) (a := a.toNat) (b := 116) rfl (by decide) (l.isLt) d.isLt a.isLt (by decide) rfl rfl rfl
    rfl
    (fun w h1 h2 h3 h4 h5 => by delta decodeRow; rw [h1, h2, h3, h4, h5]; show Instr.fsin _ _ _ _ = _; simp only [ofNat_toNat7, ofNat_toNat4])

theorem fcos (x : Option Ex) (l : BitVec 4) (d : R7) (a : R7) : Statement (.fcos x l d a) := by
  intro h
  exact of_word (x := x) (m := 0x2C) (f := l.toNat) (d := d.toNat) (a := a.toNat) (b := 116) rfl (by decide) (l.isLt) d.isLt a.isLt (by decide) rfl rfl rfl
    rfl
    (fun w h1 h2 h3 h4 h5 => by delta decodeRow; rw [h1, h2, h3, h4, h5]; show Instr.fcos _ _ _ _ = _; simp only [ofNat_toNat7, ofNat_toNat4])

theorem ftanh (x : Option Ex) (l : BitVec 4) (d : R7) (a : R7) : Statement (.ftanh x l d a) := by
  intro h
  exact of_word (x := x) (m := 0x2D) (f := l.toNat) (d := d.toNat) (a := a.toNat) (b := 116) rfl (by decide) (l.isLt) d.isLt a.isLt (by decide) rfl rfl rfl
    rfl
    (fun w h1 h2 h3 h4 h5 => by delta decodeRow; rw [h1, h2, h3, h4, h5]; show Instr.ftanh _ _ _ _ = _; simp only [ofNat_toNat7, ofNat_toNat4])

theorem fclass (x : Option Ex) (d : R7) (a : R7) : Statement (.fclass x d a) := by
  intro h
  exact of_word (x := x) (m := 0x2E) (f := 0) (d := d.toNat) (a := a.toNat) (b := 116) rfl (by decide) (by decide) d.isLt a.isLt (by decide) rfl rfl rfl
    rfl
    (fun w h1 h2 h3 h4 h5 => by delta decodeRow; rw [h1, h2, h3, h4, h5]; show Instr.fclass _ _ _ = _; simp only [ofNat_toNat7, ofNat_toNat4])

theorem fcpys (x : Option Ex) (d : R7) (a : R7) (b : R7) : Statement (.fcpys x d a b) := by
  intro h
  exact of_word (x := x) (m := 0x2F) (f := 0) (d := d.toNat) (a := a.toNat) (b := b.toNat) rfl (by decide) (by decide) d.isLt a.isLt b.isLt rfl rfl rfl
    rfl
    (fun w h1 h2 h3 h4 h5 => by delta decodeRow; rw [h1, h2, h3, h4, h5]; show Instr.fcpys _ _ _ _ = _; simp only [ofNat_toNat7, ofNat_toNat4])

theorem hadd2 (x : Option Ex) (m : Bool) (s : Bool) (r : Rm) (d : R7) (a : R7) (b : R7) : Statement (.hadd2 x m s r d a b) := by
  intro h
  exact of_word (x := x) (m := 0x30) (f := (b2n m * 8 + b2n s * 4 + r.code)) (d := d.toNat) (a := a.toNat) (b := b.toNat) rfl (by decide) (hp_lt m s r) d.isLt a.isLt b.isLt rfl rfl (by cases m <;> cases s <;> cases r <;> decide)
    rfl
    (fun w h1 h2 h3 h4 h5 => by delta decodeRow; rw [h1, h2, h3, h4, h5]; show Instr.hadd2 _ _ _ _ _ _ _ = _; simp only [ofNat_toNat7, ofNat_toNat4, hp_m, hp_s, hp_r])

theorem hmul2 (x : Option Ex) (m : Bool) (s : Bool) (r : Rm) (d : R7) (a : R7) (b : R7) : Statement (.hmul2 x m s r d a b) := by
  intro h
  exact of_word (x := x) (m := 0x31) (f := (b2n m * 8 + b2n s * 4 + r.code)) (d := d.toNat) (a := a.toNat) (b := b.toNat) rfl (by decide) (hp_lt m s r) d.isLt a.isLt b.isLt rfl rfl (by cases m <;> cases s <;> cases r <;> decide)
    rfl
    (fun w h1 h2 h3 h4 h5 => by delta decodeRow; rw [h1, h2, h3, h4, h5]; show Instr.hmul2 _ _ _ _ _ _ _ = _; simp only [ofNat_toNat7, ofNat_toNat4, hp_m, hp_s, hp_r])

theorem hfma2 (x : Option Ex) (m : Bool) (s : Bool) (r : Rm) (d : R7) (a : R7) (b : R7) : Statement (.hfma2 x m s r d a b) := by
  intro h
  exact of_word (x := x) (m := 0x32) (f := (b2n m * 8 + b2n s * 4 + r.code)) (d := d.toNat) (a := a.toNat) (b := b.toNat) rfl (by decide) (hp_lt m s r) d.isLt a.isLt b.isLt rfl rfl (by cases m <;> cases s <;> cases r <;> decide)
    rfl
    (fun w h1 h2 h3 h4 h5 => by delta decodeRow; rw [h1, h2, h3, h4, h5]; show Instr.hfma2 _ _ _ _ _ _ _ = _; simp only [ofNat_toNat7, ofNat_toNat4, hp_m, hp_s, hp_r])

theorem hmax2 (x : Option Ex) (m : Bool) (d : R7) (a : R7) (b : R7) : Statement (.hmax2 x m d a b) := by
  intro h
  exact of_word (x := x) (m := 0x33) (f := (b2n m * 8)) (d := d.toNat) (a := a.toNat) (b := b.toNat) rfl (by decide) (m8_lt m) d.isLt a.isLt b.isLt rfl rfl (by cases m <;> decide)
    rfl
    (fun w h1 h2 h3 h4 h5 => by delta decodeRow; rw [h1, h2, h3, h4, h5]; show Instr.hmax2 _ _ _ _ _ = _; simp only [ofNat_toNat7, ofNat_toNat4, m8_m])

theorem cvt (x : Option Ex) (s : Bool) (r : Rm) (d : R7) (a : R7) (dt : BitVec 4) (st : BitVec 3) : Statement (.cvt x s r d a dt st) := by
  intro h
  exact of_word (x := x) (m := 0x34) (f := (b2n s * 4 + r.code)) (d := d.toNat) (a := a.toNat) (b := (dt.toNat * 8 + st.toNat)) rfl (by decide) (fp_lt16 s r) d.isLt a.isLt (cvt_lt dt st) rfl rfl (by cases s <;> cases r <;> decide)
    rfl
    (fun w h1 h2 h3 h4 h5 => by delta decodeRow; rw [h1, h2, h3, h4, h5]; show Instr.cvt _ _ _ _ _ _ _ = _; simp only [ofNat_toNat7, ofNat_toNat4, fp_s, fp_r, cvt_dt, cvt_st])

theorem cvtq (x : Option Ex) (e : Bool) (s : Bool) (r : Rm) (d : R7) (a : R7) (t : R7) : Statement (.cvtq x e s r d a t) := by
  intro h
  exact of_word (x := x) (m := 0x35) (f := (b2n e * 8 + b2n s * 4 + r.code)) (d := d.toNat) (a := a.toNat) (b := t.toNat) rfl (by decide) (hp_lt e s r) d.isLt a.isLt t.isLt rfl rfl (by cases e <;> cases s <;> cases r <;> decide)
    rfl
    (fun w h1 h2 h3 h4 h5 => by delta decodeRow; rw [h1, h2, h3, h4, h5]; show Instr.cvtq _ _ _ _ _ _ _ = _; simp only [ofNat_toNat7, ofNat_toNat4, hp_m, hp_s, hp_r])

theorem frnd (x : Option Ex) (r : Rm) (d : R7) (a : R7) : Statement (.frnd x r d a) := by
  intro h
  exact of_word (x := x) (m := 0x36) (f := (r.code)) (d := d.toNat) (a := a.toNat) (b := 116) rfl (by decide) (rm_lt r) d.isLt a.isLt (by decide) rfl rfl (by cases r <;> decide)
    rfl
    (fun w h1 h2 h3 h4 h5 => by delta decodeRow; rw [h1, h2, h3, h4, h5]; show Instr.frnd _ _ _ _ = _; simp only [ofNat_toNat7, ofNat_toNat4, rm_r])

theorem icmp (x : Option Ex) (q : ICond) (d : R7) (a : R7) (b : R7) : Statement (.icmp x q d a b) := by
  intro h
  exact of_word (x := x) (m := 0x38) (f := (q.code)) (d := d.toNat) (a := a.toNat) (b := b.toNat) rfl (by decide) (by cases q <;> decide) d.isLt a.isLt b.isLt rfl rfl (by cases q <;> decide)
    rfl
    (fun w h1 h2 h3 h4 h5 => by delta decodeRow; rw [h1, h2, h3, h4, h5]; show Instr.icmp _ _ _ _ _ = _; simp only [ofNat_toNat7, ofNat_toNat4, ic_q])

theorem fcmp (x : Option Ex) (q : FCond) (d : R7) (a : R7) (b : R7) : Statement (.fcmp x q d a b) := by
  intro h
  exact of_word (x := x) (m := 0x39) (f := (q.code)) (d := d.toNat) (a := a.toNat) (b := b.toNat) rfl (by decide) (by cases q <;> decide) d.isLt a.isLt b.isLt rfl rfl (by cases q <;> decide)
    rfl
    (fun w h1 h2 h3 h4 h5 => by delta decodeRow; rw [h1, h2, h3, h4, h5]; show Instr.fcmp _ _ _ _ _ = _; simp only [ofNat_toNat7, ofNat_toNat4, fc_q])

theorem pset (x : Option Ex) (q : POp) (d : R7) (a : R7) (b : R7) : Statement (.pset x q d a b) := by
  intro h
  exact of_word (x := x) (m := 0x3A) (f := (q.code)) (d := d.toNat) (a := a.toNat) (b := b.toNat) rfl (by decide) (by cases q <;> decide) d.isLt a.isLt b.isLt rfl rfl (by cases q <;> decide)
    rfl
    (fun w h1 h2 h3 h4 h5 => by delta decodeRow; rw [h1, h2, h3, h4, h5]; show Instr.pset _ _ _ _ _ = _; simp only [ofNat_toNat7, ofNat_toNat4, po_q])

theorem pmovGet (x : Option Ex) (d : R7) : Statement (.pmovGet x d) := by
  intro h
  exact of_word (x := x) (m := 0x3B) (f := 0) (d := d.toNat) (a := 116) (b := 116) rfl (by decide) (by decide) d.isLt (by decide) (by decide) rfl rfl rfl
    rfl
    (fun w h1 h2 h3 h4 h5 => by delta decodeRow; rw [h1, h2, h3, h4, h5]; show Instr.pmovGet _ _ = _; simp only [ofNat_toNat7, ofNat_toNat4])

theorem pmovSet (x : Option Ex) (a : R7) : Statement (.pmovSet x a) := by
  intro h
  exact of_word (x := x) (m := 0x3B) (f := 1) (d := 116) (a := a.toNat) (b := 116) rfl (by decide) (by decide) (by decide) a.isLt (by decide) rfl rfl rfl
    rfl
    (fun w h1 h2 h3 h4 h5 => by delta decodeRow; rw [h1, h2, h3, h4, h5]; show Instr.pmovSet _ _ = _; simp only [ofNat_toNat7, ofNat_toNat4])

theorem sel (x : Option Ex) (n : Bool) (p : BitVec 3) (d : R7) (a : R7) (b : R7) : Statement (.sel x n p d a b) := by
  intro h
  exact of_word (x := x) (m := 0x3C) (f := (b2n n * 8 + p.toNat)) (d := d.toNat) (a := a.toNat) (b := b.toNat) rfl (by decide) (np_lt n p) d.isLt a.isLt b.isLt rfl rfl rfl
    rfl
    (fun w h1 h2 h3 h4 h5 => by delta decodeRow; rw [h1, h2, h3, h4, h5]; show Instr.sel _ _ _ _ _ _ = _; simp only [ofNat_toNat7, ofNat_toNat4, np_n, np_p])

theorem mov (x : Option Ex) (d : R7) (a : R7) : Statement (.mov x d a) := by
  intro h
  exact of_word (x := x) (m := 0x3D) (f := 0) (d := d.toNat) (a := a.toNat) (b := 116) rfl (by decide) (by decide) d.isLt a.isLt (by decide) rfl rfl rfl
    rfl
    (fun w h1 h2 h3 h4 h5 => by delta decodeRow; rw [h1, h2, h3, h4, h5]; show Instr.mov _ _ _ = _; simp only [ofNat_toNat7, ofNat_toNat4])

theorem movk (x : Option Ex) (d : R7) (a : R7) (i : R7) : Statement (.movk x d a i) := by
  intro h
  exact of_word (x := x) (m := 0x3E) (f := 0) (d := d.toNat) (a := a.toNat) (b := i.toNat) rfl (by decide) (by decide) d.isLt a.isLt i.isLt rfl rfl rfl
    rfl
    (fun w h1 h2 h3 h4 h5 => by delta decodeRow; rw [h1, h2, h3, h4, h5]; show Instr.movk _ _ _ _ = _; simp only [ofNat_toNat7, ofNat_toNat4])

theorem ldi (x : Option Ex) (d : R7) (i : R7) : Statement (.ldi x d i) := by
  intro h
  exact of_word (x := x) (m := 0x3F) (f := 0) (d := d.toNat) (a := 116) (b := i.toNat) rfl (by decide) (by decide) d.isLt (by decide) i.isLt rfl rfl rfl
    rfl
    (fun w h1 h2 h3 h4 h5 => by delta decodeRow; rw [h1, h2, h3, h4, h5]; show Instr.ldi _ _ _ = _; simp only [ofNat_toNat7, ofNat_toNat4])

theorem ldiHi (x : Option Ex) (d : R7) (i : R7) : Statement (.ldiHi x d i) := by
  intro h
  exact of_word (x := x) (m := 0x3F) (f := 1) (d := d.toNat) (a := 116) (b := i.toNat) rfl (by decide) (by decide) d.isLt (by decide) i.isLt rfl rfl rfl
    rfl
    (fun w h1 h2 h3 h4 h5 => by delta decodeRow; rw [h1, h2, h3, h4, h5]; show Instr.ldiHi _ _ _ = _; simp only [ofNat_toNat7, ofNat_toNat4])

theorem shfl (x : Option Ex) (l : BitVec 4) (d : R7) (a : R7) (b : R7) : Statement (.shfl x l d a b) := by
  intro h
  exact of_word (x := x) (m := 0x40) (f := l.toNat) (d := d.toNat) (a := a.toNat) (b := b.toNat) rfl (by decide) (l.isLt) d.isLt a.isLt b.isLt rfl rfl rfl
    rfl
    (fun w h1 h2 h3 h4 h5 => by delta decodeRow; rw [h1, h2, h3, h4, h5]; show Instr.shfl _ _ _ _ _ = _; simp only [ofNat_toNat7, ofNat_toNat4])

theorem shflx (x : Option Ex) (l : BitVec 4) (d : R7) (a : R7) (b : R7) : Statement (.shflx x l d a b) := by
  intro h
  exact of_word (x := x) (m := 0x41) (f := l.toNat) (d := d.toNat) (a := a.toNat) (b := b.toNat) rfl (by decide) (l.isLt) d.isLt a.isLt b.isLt rfl rfl rfl
    rfl
    (fun w h1 h2 h3 h4 h5 => by delta decodeRow; rw [h1, h2, h3, h4, h5]; show Instr.shflx _ _ _ _ _ = _; simp only [ofNat_toNat7, ofNat_toNat4])

theorem vote (x : Option Ex) (l : BitVec 4) (d : R7) (a : R7) : Statement (.vote x l d a) := by
  intro h
  exact of_word (x := x) (m := 0x42) (f := l.toNat) (d := d.toNat) (a := a.toNat) (b := 116) rfl (by decide) (l.isLt) d.isLt a.isLt (by decide) rfl rfl rfl
    rfl
    (fun w h1 h2 h3 h4 h5 => by delta decodeRow; rw [h1, h2, h3, h4, h5]; show Instr.vote _ _ _ _ = _; simp only [ofNat_toNat7, ofNat_toNat4])

theorem redux (x : Option Ex) (l : BitVec 4) (d : R7) (a : R7) (b : R7) : Statement (.redux x l d a b) := by
  intro h
  exact of_word (x := x) (m := 0x43) (f := l.toNat) (d := d.toNat) (a := a.toNat) (b := b.toNat) rfl (by decide) (l.isLt) d.isLt a.isLt b.isLt rfl rfl rfl
    rfl
    (fun w h1 h2 h3 h4 h5 => by delta decodeRow; rw [h1, h2, h3, h4, h5]; show Instr.redux _ _ _ _ _ = _; simp only [ofNat_toNat7, ofNat_toNat4])

theorem scan (x : Option Ex) (l : BitVec 4) (d : R7) (a : R7) : Statement (.scan x l d a) := by
  intro h
  exact of_word (x := x) (m := 0x44) (f := l.toNat) (d := d.toNat) (a := a.toNat) (b := 116) rfl (by decide) (l.isLt) d.isLt a.isLt (by decide) rfl rfl rfl
    rfl
    (fun w h1 h2 h3 h4 h5 => by delta decodeRow; rw [h1, h2, h3, h4, h5]; show Instr.scan _ _ _ _ = _; simp only [ofNat_toNat7, ofNat_toNat4])

theorem rbal (x : Option Ex) (l : BitVec 4) (d : R7) (a : R7) (b : R7) : Statement (.rbal x l d a b) := by
  intro h
  exact of_word (x := x) (m := 0x45) (f := l.toNat) (d := d.toNat) (a := a.toNat) (b := b.toNat) rfl (by decide) (l.isLt) d.isLt a.isLt b.isLt rfl rfl rfl
    rfl
    (fun w h1 h2 h3 h4 h5 => by delta decodeRow; rw [h1, h2, h3, h4, h5]; show Instr.rbal _ _ _ _ _ = _; simp only [ofNat_toNat7, ofNat_toNat4])

theorem bin (x : Option Ex) (l : BitVec 4) (d : R7) (a : R7) (b : R7) : Statement (.bin x l d a b) := by
  intro h
  exact of_word (x := x) (m := 0x46) (f := l.toNat) (d := d.toNat) (a := a.toNat) (b := b.toNat) rfl (by decide) (l.isLt) d.isLt a.isLt b.isLt rfl rfl rfl
    rfl
    (fun w h1 h2 h3 h4 h5 => by delta decodeRow; rw [h1, h2, h3, h4, h5]; show Instr.bin _ _ _ _ _ = _; simp only [ofNat_toNat7, ofNat_toNat4])

theorem mrg (x : Option Ex) (l : BitVec 4) (d : R7) (a : R7) (b : R7) : Statement (.mrg x l d a b) := by
  intro h
  exact of_word (x := x) (m := 0x47) (f := l.toNat) (d := d.toNat) (a := a.toNat) (b := b.toNat) rfl (by decide) (l.isLt) d.isLt a.isLt b.isLt rfl rfl rfl
    rfl
    (fun w h1 h2 h3 h4 h5 => by delta decodeRow; rw [h1, h2, h3, h4, h5]; show Instr.mrg _ _ _ _ _ = _; simp only [ofNat_toNat7, ofNat_toNat4])

theorem sortk (x : Option Ex) (l : BitVec 4) (d : R7) (a : R7) : Statement (.sortk x l d a) := by
  intro h
  exact of_word (x := x) (m := 0x48) (f := l.toNat) (d := d.toNat) (a := a.toNat) (b := 116) rfl (by decide) (l.isLt) d.isLt a.isLt (by decide) rfl rfl rfl
    rfl
    (fun w h1 h2 h3 h4 h5 => by delta decodeRow; rw [h1, h2, h3, h4, h5]; show Instr.sortk _ _ _ _ = _; simp only [ofNat_toNat7, ofNat_toNat4])

theorem brx (x : Option Ex) (a : R7) : Statement (.brx x a) := by
  intro h
  exact of_word (x := x) (m := 0x4E) (f := 0) (d := 116) (a := a.toNat) (b := 116) rfl (by decide) (by decide) (by decide) a.isLt (by decide) rfl rfl rfl
    rfl
    (fun w h1 h2 h3 h4 h5 => by delta decodeRow; rw [h1, h2, h3, h4, h5]; show Instr.brx _ _ = _; simp only [ofNat_toNat7, ofNat_toNat4])

theorem ret (x : Option Ex) (a : R7) : Statement (.ret x a) := by
  intro h
  exact of_word (x := x) (m := 0x4E) (f := 1) (d := 116) (a := a.toNat) (b := 116) rfl (by decide) (by decide) (by decide) a.isLt (by decide) rfl rfl rfl
    rfl
    (fun w h1 h2 h3 h4 h5 => by delta decodeRow; rw [h1, h2, h3, h4, h5]; show Instr.ret _ _ = _; simp only [ofNat_toNat7, ofNat_toNat4])

theorem nop (x : Option Ex) : Statement (.nop x) := by
  intro h
  exact of_word (x := x) (m := 0x4F) (f := 0) (d := 116) (a := 116) (b := 116) rfl (by decide) (by decide) (by decide) (by decide) (by decide) rfl rfl rfl
    rfl
    (fun w h1 h2 h3 h4 h5 => by delta decodeRow; rw [h1, h2, h3, h4, h5]; show Instr.nop _ = _; rfl)

theorem join (x : Option Ex) : Statement (.join x) := by
  intro h
  exact of_word (x := x) (m := 0x4F) (f := 1) (d := 116) (a := 116) (b := 116) rfl (by decide) (by decide) (by decide) (by decide) (by decide) rfl rfl rfl
    rfl
    (fun w h1 h2 h3 h4 h5 => by delta decodeRow; rw [h1, h2, h3, h4, h5]; show Instr.join _ = _; rfl)

theorem exit (x : Option Ex) : Statement (.exit x) := by
  intro h
  exact of_word (x := x) (m := 0x4F) (f := 2) (d := 116) (a := 116) (b := 116) rfl (by decide) (by decide) (by decide) (by decide) (by decide) rfl rfl rfl
    rfl
    (fun w h1 h2 h3 h4 h5 => by delta decodeRow; rw [h1, h2, h3, h4, h5]; show Instr.exit _ = _; rfl)

theorem yield (x : Option Ex) : Statement (.yield x) := by
  intro h
  exact of_word (x := x) (m := 0x4F) (f := 3) (d := 116) (a := 116) (b := 116) rfl (by decide) (by decide) (by decide) (by decide) (by decide) rfl rfl rfl
    rfl
    (fun w h1 h2 h3 h4 h5 => by delta decodeRow; rw [h1, h2, h3, h4, h5]; show Instr.yield _ = _; rfl)

theorem trap (x : Option Ex) (i : R7) : Statement (.trap x i) := by
  intro h
  exact of_word (x := x) (m := 0x4F) (f := 4) (d := 116) (a := 116) (b := i.toNat) rfl (by decide) (by decide) (by decide) (by decide) i.isLt rfl rfl rfl
    rfl
    (fun w h1 h2 h3 h4 h5 => by delta decodeRow; rw [h1, h2, h3, h4, h5]; show Instr.trap _ _ = _; simp only [ofNat_toNat7, ofNat_toNat4])

theorem form (x : Option Ex) (d : R7) (a : R7) : Statement (.form x d a) := by
  intro h
  exact of_word (x := x) (m := 0x50) (f := 0) (d := d.toNat) (a := a.toNat) (b := 116) rfl (by decide) (by decide) d.isLt a.isLt (by decide) rfl rfl rfl
    rfl
    (fun w h1 h2 h3 h4 h5 => by delta decodeRow; rw [h1, h2, h3, h4, h5]; show Instr.form _ _ _ = _; simp only [ofNat_toNat7, ofNat_toNat4])

theorem matl (x : Option Ex) (a : R7) : Statement (.matl x a) := by
  intro h
  exact of_word (x := x) (m := 0x50) (f := 1) (d := 116) (a := a.toNat) (b := 116) rfl (by decide) (by decide) (by decide) a.isLt (by decide) rfl rfl rfl
    rfl
    (fun w h1 h2 h3 h4 h5 => by delta decodeRow; rw [h1, h2, h3, h4, h5]; show Instr.matl _ _ = _; simp only [ofNat_toNat7, ofNat_toNat4])

theorem unif (x : Option Ex) (d : R7) (a : R7) : Statement (.unif x d a) := by
  intro h
  exact of_word (x := x) (m := 0x50) (f := 2) (d := d.toNat) (a := a.toNat) (b := 116) rfl (by decide) (by decide) d.isLt a.isLt (by decide) rfl rfl rfl
    rfl
    (fun w h1 h2 h3 h4 h5 => by delta decodeRow; rw [h1, h2, h3, h4, h5]; show Instr.unif _ _ _ = _; simp only [ofNat_toNat7, ofNat_toNat4])

theorem wbase (x : Option Ex) (i : R7) : Statement (.wbase x i) := by
  intro h
  exact of_word (x := x) (m := 0x51) (f := 0) (d := 116) (a := 116) (b := i.toNat) rfl (by decide) (by decide) (by decide) (by decide) i.isLt rfl rfl rfl
    rfl
    (fun w h1 h2 h3 h4 h5 => by delta decodeRow; rw [h1, h2, h3, h4, h5]; show Instr.wbase _ _ = _; simp only [ofNat_toNat7, ofNat_toNat4])

theorem wquota (x : Option Ex) (a : R7) (b : R7) : Statement (.wquota x a b) := by
  intro h
  exact of_word (x := x) (m := 0x52) (f := 0) (d := 116) (a := a.toNat) (b := b.toNat) rfl (by decide) (by decide) (by decide) a.isLt b.isLt rfl rfl rfl
    rfl
    (fun w h1 h2 h3 h4 h5 => by delta decodeRow; rw [h1, h2, h3, h4, h5]; show Instr.wquota _ _ _ = _; simp only [ofNat_toNat7, ofNat_toNat4])

theorem work (x : Option Ex) (l : BitVec 4) (d : R7) (a : R7) (b : R7) : Statement (.work x l d a b) := by
  intro h
  exact of_word (x := x) (m := 0x53) (f := l.toNat) (d := d.toNat) (a := a.toNat) (b := b.toNat) rfl (by decide) (l.isLt) d.isLt a.isLt b.isLt rfl rfl rfl
    rfl
    (fun w h1 h2 h3 h4 h5 => by delta decodeRow; rw [h1, h2, h3, h4, h5]; show Instr.work _ _ _ _ _ = _; simp only [ofNat_toNat7, ofNat_toNat4])

theorem idx (x : Option Ex) (d : R7) (a : R7) (i : R7) : Statement (.idx x d a i) := by
  intro h
  exact of_word (x := x) (m := 0x54) (f := 0) (d := d.toNat) (a := a.toNat) (b := i.toNat) rfl (by decide) (by decide) d.isLt a.isLt i.isLt rfl rfl rfl
    rfl
    (fun w h1 h2 h3 h4 h5 => by delta decodeRow; rw [h1, h2, h3, h4, h5]; show Instr.idx _ _ _ _ = _; simp only [ofNat_toNat7, ofNat_toNat4])

theorem ldg (x : Option Ex) (l : BitVec 4) (d : R7) (a : R7) (b : R7) : Statement (.ldg x l d a b) := by
  intro h
  exact of_word (x := x) (m := 0x58) (f := l.toNat) (d := d.toNat) (a := a.toNat) (b := b.toNat) rfl (by decide) (l.isLt) d.isLt a.isLt b.isLt rfl rfl rfl
    rfl
    (fun w h1 h2 h3 h4 h5 => by delta decodeRow; rw [h1, h2, h3, h4, h5]; show Instr.ldg _ _ _ _ _ = _; simp only [ofNat_toNat7, ofNat_toNat4])

theorem stg (x : Option Ex) (l : BitVec 4) (d : R7) (a : R7) (b : R7) : Statement (.stg x l d a b) := by
  intro h
  exact of_word (x := x) (m := 0x59) (f := l.toNat) (d := d.toNat) (a := a.toNat) (b := b.toNat) rfl (by decide) (l.isLt) d.isLt a.isLt b.isLt rfl rfl rfl
    rfl
    (fun w h1 h2 h3 h4 h5 => by delta decodeRow; rw [h1, h2, h3, h4, h5]; show Instr.stg _ _ _ _ _ = _; simp only [ofNat_toNat7, ofNat_toNat4])

theorem lds (x : Option Ex) (l : BitVec 4) (d : R7) (a : R7) (b : R7) : Statement (.lds x l d a b) := by
  intro h
  exact of_word (x := x) (m := 0x5A) (f := l.toNat) (d := d.toNat) (a := a.toNat) (b := b.toNat) rfl (by decide) (l.isLt) d.isLt a.isLt b.isLt rfl rfl rfl
    rfl
    (fun w h1 h2 h3 h4 h5 => by delta decodeRow; rw [h1, h2, h3, h4, h5]; show Instr.lds _ _ _ _ _ = _; simp only [ofNat_toNat7, ofNat_toNat4])

theorem sts (x : Option Ex) (l : BitVec 4) (d : R7) (a : R7) (b : R7) : Statement (.sts x l d a b) := by
  intro h
  exact of_word (x := x) (m := 0x5B) (f := l.toNat) (d := d.toNat) (a := a.toNat) (b := b.toNat) rfl (by decide) (l.isLt) d.isLt a.isLt b.isLt rfl rfl rfl
    rfl
    (fun w h1 h2 h3 h4 h5 => by delta decodeRow; rw [h1, h2, h3, h4, h5]; show Instr.sts _ _ _ _ _ = _; simp only [ofNat_toNat7, ofNat_toNat4])

theorem ldc (x : Option Ex) (l : BitVec 4) (d : R7) (a : R7) (b : R7) : Statement (.ldc x l d a b) := by
  intro h
  exact of_word (x := x) (m := 0x5C) (f := l.toNat) (d := d.toNat) (a := a.toNat) (b := b.toNat) rfl (by decide) (l.isLt) d.isLt a.isLt b.isLt rfl rfl rfl
    rfl
    (fun w h1 h2 h3 h4 h5 => by delta decodeRow; rw [h1, h2, h3, h4, h5]; show Instr.ldc _ _ _ _ _ = _; simp only [ofNat_toNat7, ofNat_toNat4])

theorem stc (x : Option Ex) (l : BitVec 4) (d : R7) (a : R7) (b : R7) : Statement (.stc x l d a b) := by
  intro h
  exact of_word (x := x) (m := 0x5D) (f := l.toNat) (d := d.toNat) (a := a.toNat) (b := b.toNat) rfl (by decide) (l.isLt) d.isLt a.isLt b.isLt rfl rfl rfl
    rfl
    (fun w h1 h2 h3 h4 h5 => by delta decodeRow; rw [h1, h2, h3, h4, h5]; show Instr.stc _ _ _ _ _ = _; simp only [ofNat_toNat7, ofNat_toNat4])

theorem ldt (x : Option Ex) (l : BitVec 4) (d : R7) (a : R7) (b : R7) : Statement (.ldt x l d a b) := by
  intro h
  exact of_word (x := x) (m := 0x5E) (f := l.toNat) (d := d.toNat) (a := a.toNat) (b := b.toNat) rfl (by decide) (l.isLt) d.isLt a.isLt b.isLt rfl rfl rfl
    rfl
    (fun w h1 h2 h3 h4 h5 => by delta decodeRow; rw [h1, h2, h3, h4, h5]; show Instr.ldt _ _ _ _ _ = _; simp only [ofNat_toNat7, ofNat_toNat4])

theorem stt (x : Option Ex) (l : BitVec 4) (d : R7) (a : R7) (b : R7) : Statement (.stt x l d a b) := by
  intro h
  exact of_word (x := x) (m := 0x5F) (f := l.toNat) (d := d.toNat) (a := a.toNat) (b := b.toNat) rfl (by decide) (l.isLt) d.isLt a.isLt b.isLt rfl rfl rfl
    rfl
    (fun w h1 h2 h3 h4 h5 => by delta decodeRow; rw [h1, h2, h3, h4, h5]; show Instr.stt _ _ _ _ _ = _; simp only [ofNat_toNat7, ofNat_toNat4])

theorem ldu (x : Option Ex) (l : BitVec 4) (d : R7) (a : R7) (b : R7) : Statement (.ldu x l d a b) := by
  intro h
  exact of_word (x := x) (m := 0x60) (f := l.toNat) (d := d.toNat) (a := a.toNat) (b := b.toNat) rfl (by decide) (l.isLt) d.isLt a.isLt b.isLt rfl rfl rfl
    rfl
    (fun w h1 h2 h3 h4 h5 => by delta decodeRow; rw [h1, h2, h3, h4, h5]; show Instr.ldu _ _ _ _ _ = _; simp only [ofNat_toNat7, ofNat_toNat4])

theorem lda (x : Option Ex) (l : BitVec 4) (d : R7) (a : R7) (b : R7) : Statement (.lda x l d a b) := by
  intro h
  exact of_word (x := x) (m := 0x61) (f := l.toNat) (d := d.toNat) (a := a.toNat) (b := b.toNat) rfl (by decide) (l.isLt) d.isLt a.isLt b.isLt rfl rfl rfl
    rfl
    (fun w h1 h2 h3 h4 h5 => by delta decodeRow; rw [h1, h2, h3, h4, h5]; show Instr.lda _ _ _ _ _ = _; simp only [ofNat_toNat7, ofNat_toNat4])

theorem sta (x : Option Ex) (l : BitVec 4) (d : R7) (a : R7) (b : R7) : Statement (.sta x l d a b) := by
  intro h
  exact of_word (x := x) (m := 0x62) (f := l.toNat) (d := d.toNat) (a := a.toNat) (b := b.toNat) rfl (by decide) (l.isLt) d.isLt a.isLt b.isLt rfl rfl rfl
    rfl
    (fun w h1 h2 h3 h4 h5 => by delta decodeRow; rw [h1, h2, h3, h4, h5]; show Instr.sta _ _ _ _ _ = _; simp only [ofNat_toNat7, ofNat_toNat4])

theorem stw (x : Option Ex) (l : BitVec 4) (d : R7) (a : R7) (b : R7) : Statement (.stw x l d a b) := by
  intro h
  exact of_word (x := x) (m := 0x63) (f := l.toNat) (d := d.toNat) (a := a.toNat) (b := b.toNat) rfl (by decide) (l.isLt) d.isLt a.isLt b.isLt rfl rfl rfl
    rfl
    (fun w h1 h2 h3 h4 h5 => by delta decodeRow; rw [h1, h2, h3, h4, h5]; show Instr.stw _ _ _ _ _ = _; simp only [ofNat_toNat7, ofNat_toNat4])

theorem stwb (x : Option Ex) (l : BitVec 4) (d : R7) : Statement (.stwb x l d) := by
  intro h
  exact of_word (x := x) (m := 0x64) (f := l.toNat) (d := d.toNat) (a := 116) (b := 116) rfl (by decide) (l.isLt) d.isLt (by decide) (by decide) rfl rfl rfl
    rfl
    (fun w h1 h2 h3 h4 h5 => by delta decodeRow; rw [h1, h2, h3, h4, h5]; show Instr.stwb _ _ _ = _; simp only [ofNat_toNat7, ofNat_toNat4])

theorem pref (x : Option Ex) (l : BitVec 4) (a : R7) (b : R7) : Statement (.pref x l a b) := by
  intro h
  exact of_word (x := x) (m := 0x65) (f := l.toNat) (d := 116) (a := a.toNat) (b := b.toNat) rfl (by decide) (l.isLt) (by decide) a.isLt b.isLt rfl rfl rfl
    rfl
    (fun w h1 h2 h3 h4 h5 => by delta decodeRow; rw [h1, h2, h3, h4, h5]; show Instr.pref _ _ _ _ = _; simp only [ofNat_toNat7, ofNat_toNat4])

theorem atomg (x : Option Ex) (l : BitVec 4) (d : R7) (a : R7) (b : R7) : Statement (.atomg x l d a b) := by
  intro h
  exact of_word (x := x) (m := 0x68) (f := l.toNat) (d := d.toNat) (a := a.toNat) (b := b.toNat) rfl (by decide) (l.isLt) d.isLt a.isLt b.isLt rfl rfl rfl
    rfl
    (fun w h1 h2 h3 h4 h5 => by delta decodeRow; rw [h1, h2, h3, h4, h5]; show Instr.atomg _ _ _ _ _ = _; simp only [ofNat_toNat7, ofNat_toNat4])

theorem atoms (x : Option Ex) (l : BitVec 4) (d : R7) (a : R7) (b : R7) : Statement (.atoms x l d a b) := by
  intro h
  exact of_word (x := x) (m := 0x69) (f := l.toNat) (d := d.toNat) (a := a.toNat) (b := b.toNat) rfl (by decide) (l.isLt) d.isLt a.isLt b.isLt rfl rfl rfl
    rfl
    (fun w h1 h2 h3 h4 h5 => by delta decodeRow; rw [h1, h2, h3, h4, h5]; show Instr.atoms _ _ _ _ _ = _; simp only [ofNat_toNat7, ofNat_toNat4])

theorem atomc (x : Option Ex) (l : BitVec 4) (d : R7) (a : R7) (b : R7) : Statement (.atomc x l d a b) := by
  intro h
  exact of_word (x := x) (m := 0x6A) (f := l.toNat) (d := d.toNat) (a := a.toNat) (b := b.toNat) rfl (by decide) (l.isLt) d.isLt a.isLt b.isLt rfl rfl rfl
    rfl
    (fun w h1 h2 h3 h4 h5 => by delta decodeRow; rw [h1, h2, h3, h4, h5]; show Instr.atomc _ _ _ _ _ = _; simp only [ofNat_toNat7, ofNat_toNat4])

theorem redg (x : Option Ex) (l : BitVec 4) (a : R7) (b : R7) : Statement (.redg x l a b) := by
  intro h
  exact of_word (x := x) (m := 0x6B) (f := l.toNat) (d := 116) (a := a.toNat) (b := b.toNat) rfl (by decide) (l.isLt) (by decide) a.isLt b.isLt rfl rfl rfl
    rfl
    (fun w h1 h2 h3 h4 h5 => by delta decodeRow; rw [h1, h2, h3, h4, h5]; show Instr.redg _ _ _ _ = _; simp only [ofNat_toNat7, ofNat_toNat4])

theorem rgrsv (x : Option Ex) (l : BitVec 4) (d : R7) (a : R7) : Statement (.rgrsv x l d a) := by
  intro h
  exact of_word (x := x) (m := 0x6C) (f := l.toNat) (d := d.toNat) (a := a.toNat) (b := 116) rfl (by decide) (l.isLt) d.isLt a.isLt (by decide) rfl rfl rfl
    rfl
    (fun w h1 h2 h3 h4 h5 => by delta decodeRow; rw [h1, h2, h3, h4, h5]; show Instr.rgrsv _ _ _ _ = _; simp only [ofNat_toNat7, ofNat_toNat4])

theorem rgpub (x : Option Ex) (l : BitVec 4) (d : R7) (a : R7) (b : R7) : Statement (.rgpub x l d a b) := by
  intro h
  exact of_word (x := x) (m := 0x6D) (f := l.toNat) (d := d.toNat) (a := a.toNat) (b := b.toNat) rfl (by decide) (l.isLt) d.isLt a.isLt b.isLt rfl rfl rfl
    rfl
    (fun w h1 h2 h3 h4 h5 => by delta decodeRow; rw [h1, h2, h3, h4, h5]; show Instr.rgpub _ _ _ _ _ = _; simp only [ofNat_toNat7, ofNat_toNat4])

theorem rgtake (x : Option Ex) (l : BitVec 4) (d : R7) (a : R7) : Statement (.rgtake x l d a) := by
  intro h
  exact of_word (x := x) (m := 0x6E) (f := l.toNat) (d := d.toNat) (a := a.toNat) (b := 116) rfl (by decide) (l.isLt) d.isLt a.isLt (by decide) rfl rfl rfl
    rfl
    (fun w h1 h2 h3 h4 h5 => by delta decodeRow; rw [h1, h2, h3, h4, h5]; show Instr.rgtake _ _ _ _ = _; simp only [ofNat_toNat7, ofNat_toNat4])

theorem rgfree (x : Option Ex) (l : BitVec 4) (d : R7) (a : R7) (b : R7) : Statement (.rgfree x l d a b) := by
  intro h
  exact of_word (x := x) (m := 0x6F) (f := l.toNat) (d := d.toNat) (a := a.toNat) (b := b.toNat) rfl (by decide) (l.isLt) d.isLt a.isLt b.isLt rfl rfl rfl
    rfl
    (fun w h1 h2 h3 h4 h5 => by delta decodeRow; rw [h1, h2, h3, h4, h5]; show Instr.rgfree _ _ _ _ _ = _; simp only [ofNat_toNat7, ofNat_toNat4])

theorem txend (x : Option Ex) : Statement (.txend x) := by
  intro h
  exact of_word (x := x) (m := 0x72) (f := 0) (d := 116) (a := 116) (b := 116) rfl (by decide) (by decide) (by decide) (by decide) (by decide) rfl rfl rfl
    rfl
    (fun w h1 h2 h3 h4 h5 => by delta decodeRow; rw [h1, h2, h3, h4, h5]; show Instr.txend _ = _; rfl)

theorem retry (x : Option Ex) : Statement (.retry x) := by
  intro h
  exact of_word (x := x) (m := 0x72) (f := 1) (d := 116) (a := 116) (b := 116) rfl (by decide) (by decide) (by decide) (by decide) (by decide) rfl rfl rfl
    rfl
    (fun w h1 h2 h3 h4 h5 => by delta decodeRow; rw [h1, h2, h3, h4, h5]; show Instr.retry _ = _; rfl)

theorem orend (x : Option Ex) : Statement (.orend x) := by
  intro h
  exact of_word (x := x) (m := 0x72) (f := 2) (d := 116) (a := 116) (b := 116) rfl (by decide) (by decide) (by decide) (by decide) (by decide) rfl rfl rfl
    rfl
    (fun w h1 h2 h3 h4 h5 => by delta decodeRow; rw [h1, h2, h3, h4, h5]; show Instr.orend _ = _; rfl)

theorem txabort (x : Option Ex) : Statement (.txabort x) := by
  intro h
  exact of_word (x := x) (m := 0x72) (f := 3) (d := 116) (a := 116) (b := 116) rfl (by decide) (by decide) (by decide) (by decide) (by decide) rfl rfl rfl
    rfl
    (fun w h1 h2 h3 h4 h5 => by delta decodeRow; rw [h1, h2, h3, h4, h5]; show Instr.txabort _ = _; rfl)

theorem txstat (x : Option Ex) (d : R7) : Statement (.txstat x d) := by
  intro h
  exact of_word (x := x) (m := 0x72) (f := 4) (d := d.toNat) (a := 116) (b := 116) rfl (by decide) (by decide) d.isLt (by decide) (by decide) rfl rfl rfl
    rfl
    (fun w h1 h2 h3 h4 h5 => by delta decodeRow; rw [h1, h2, h3, h4, h5]; show Instr.txstat _ _ = _; simp only [ofNat_toNat7, ofNat_toNat4])

theorem acq (x : Option Ex) (d : R7) (a : R7) : Statement (.acq x d a) := by
  intro h
  exact of_word (x := x) (m := 0x73) (f := 0) (d := d.toNat) (a := a.toNat) (b := 116) rfl (by decide) (by decide) d.isLt a.isLt (by decide) rfl rfl rfl
    rfl
    (fun w h1 h2 h3 h4 h5 => by delta decodeRow; rw [h1, h2, h3, h4, h5]; show Instr.acq _ _ _ = _; simp only [ofNat_toNat7, ofNat_toNat4])

theorem rel (x : Option Ex) (d : R7) (a : R7) : Statement (.rel x d a) := by
  intro h
  exact of_word (x := x) (m := 0x73) (f := 1) (d := d.toNat) (a := a.toNat) (b := 116) rfl (by decide) (by decide) d.isLt a.isLt (by decide) rfl rfl rfl
    rfl
    (fun w h1 h2 h3 h4 h5 => by delta decodeRow; rw [h1, h2, h3, h4, h5]; show Instr.rel _ _ _ = _; simp only [ofNat_toNat7, ofNat_toNat4])

theorem fence (x : Option Ex) : Statement (.fence x) := by
  intro h
  exact of_word (x := x) (m := 0x73) (f := 2) (d := 116) (a := 116) (b := 116) rfl (by decide) (by decide) (by decide) (by decide) (by decide) rfl rfl rfl
    rfl
    (fun w h1 h2 h3 h4 h5 => by delta decodeRow; rw [h1, h2, h3, h4, h5]; show Instr.fence _ = _; rfl)

theorem arrive (x : Option Ex) (d : R7) (a : R7) : Statement (.arrive x d a) := by
  intro h
  exact of_word (x := x) (m := 0x73) (f := 3) (d := d.toNat) (a := a.toNat) (b := 116) rfl (by decide) (by decide) d.isLt a.isLt (by decide) rfl rfl rfl
    rfl
    (fun w h1 h2 h3 h4 h5 => by delta decodeRow; rw [h1, h2, h3, h4, h5]; show Instr.arrive _ _ _ = _; simp only [ofNat_toNat7, ofNat_toNat4])

theorem bind (x : Option Ex) (a : R7) (b : R7) : Statement (.bind x a b) := by
  intro h
  exact of_word (x := x) (m := 0x74) (f := 0) (d := 116) (a := a.toNat) (b := b.toNat) rfl (by decide) (by decide) (by decide) a.isLt b.isLt rfl rfl rfl
    rfl
    (fun w h1 h2 h3 h4 h5 => by delta decodeRow; rw [h1, h2, h3, h4, h5]; show Instr.bind _ _ _ = _; simp only [ofNat_toNat7, ofNat_toNat4])

theorem barinit (x : Option Ex) (a : R7) (b : R7) : Statement (.barinit x a b) := by
  intro h
  exact of_word (x := x) (m := 0x74) (f := 1) (d := 116) (a := a.toNat) (b := b.toNat) rfl (by decide) (by decide) (by decide) a.isLt b.isLt rfl rfl rfl
    rfl
    (fun w h1 h2 h3 h4 h5 => by delta decodeRow; rw [h1, h2, h3, h4, h5]; show Instr.barinit _ _ _ = _; simp only [ofNat_toNat7, ofNat_toNat4])

theorem rgdef (x : Option Ex) (a : R7) (b : R7) : Statement (.rgdef x a b) := by
  intro h
  exact of_word (x := x) (m := 0x74) (f := 2) (d := 116) (a := a.toNat) (b := b.toNat) rfl (by decide) (by decide) (by decide) a.isLt b.isLt rfl rfl rfl
    rfl
    (fun w h1 h2 h3 h4 h5 => by delta decodeRow; rw [h1, h2, h3, h4, h5]; show Instr.rgdef _ _ _ = _; simp only [ofNat_toNat7, ofNat_toNat4])

theorem rkinit (x : Option Ex) (a : R7) (b : R7) : Statement (.rkinit x a b) := by
  intro h
  exact of_word (x := x) (m := 0x75) (f := 0) (d := 116) (a := a.toNat) (b := b.toNat) rfl (by decide) (by decide) (by decide) a.isLt b.isLt rfl rfl rfl
    rfl
    (fun w h1 h2 h3 h4 h5 => by delta decodeRow; rw [h1, h2, h3, h4, h5]; show Instr.rkinit _ _ _ = _; simp only [ofNat_toNat7, ofNat_toNat4])

theorem rkthr (x : Option Ex) (a : R7) (s : R7) : Statement (.rkthr x a s) := by
  intro h
  exact of_word (x := x) (m := 0x75) (f := 1) (d := 116) (a := a.toNat) (b := s.toNat) rfl (by decide) (by decide) (by decide) a.isLt s.isLt rfl rfl rfl
    rfl
    (fun w h1 h2 h3 h4 h5 => by delta decodeRow; rw [h1, h2, h3, h4, h5]; show Instr.rkthr _ _ _ = _; simp only [ofNat_toNat7, ofNat_toNat4])

theorem pthr (x : Option Ex) (d : R7) (a : R7) (s : R7) : Statement (.pthr x d a s) := by
  intro h
  exact of_word (x := x) (m := 0x75) (f := 2) (d := d.toNat) (a := a.toNat) (b := s.toNat) rfl (by decide) (by decide) d.isLt a.isLt s.isLt rfl rfl rfl
    rfl
    (fun w h1 h2 h3 h4 h5 => by delta decodeRow; rw [h1, h2, h3, h4, h5]; show Instr.pthr _ _ _ _ = _; simp only [ofNat_toNat7, ofNat_toNat4])

theorem rkpush (x : Option Ex) (l : BitVec 4) (d : R7) (a : R7) (b : R7) : Statement (.rkpush x l d a b) := by
  intro h
  exact of_word (x := x) (m := 0x76) (f := l.toNat) (d := d.toNat) (a := a.toNat) (b := b.toNat) rfl (by decide) (l.isLt) d.isLt a.isLt b.isLt rfl rfl rfl
    rfl
    (fun w h1 h2 h3 h4 h5 => by delta decodeRow; rw [h1, h2, h3, h4, h5]; show Instr.rkpush _ _ _ _ _ = _; simp only [ofNat_toNat7, ofNat_toNat4])

theorem rkmerge (x : Option Ex) (a : R7) (b : R7) : Statement (.rkmerge x a b) := by
  intro h
  exact of_word (x := x) (m := 0x77) (f := 0) (d := 116) (a := a.toNat) (b := b.toNat) rfl (by decide) (by decide) (by decide) a.isLt b.isLt rfl rfl rfl
    rfl
    (fun w h1 h2 h3 h4 h5 => by delta decodeRow; rw [h1, h2, h3, h4, h5]; show Instr.rkmerge _ _ _ = _; simp only [ofNat_toNat7, ofNat_toNat4])

theorem rkread (x : Option Ex) (d : R7) (a : R7) (b : R7) : Statement (.rkread x d a b) := by
  intro h
  exact of_word (x := x) (m := 0x77) (f := 1) (d := d.toNat) (a := a.toNat) (b := b.toNat) rfl (by decide) (by decide) d.isLt a.isLt b.isLt rfl rfl rfl
    rfl
    (fun w h1 h2 h3 h4 h5 => by delta decodeRow; rw [h1, h2, h3, h4, h5]; show Instr.rkread _ _ _ _ = _; simp only [ofNat_toNat7, ofNat_toNat4])

theorem copy (x : Option Ex) (f : BitVec 4) (d : R7) (a : R7) (b : R7) : Statement (.copy x f d a b) := by
  intro h
  exact of_word (x := x) (m := 0x78) (f := f.toNat) (d := d.toNat) (a := a.toNat) (b := b.toNat) rfl (by decide) (f.isLt) d.isLt a.isLt b.isLt rfl rfl rfl
    (by simp only [Instr.wf, Bool.and_eq_true, beq_iff_eq, Bool.not_eq_true'] at h; rw [h.1, h.2]; rfl)
    (fun w h1 h2 h3 h4 h5 => by
      cases x with
      | none => delta decodeRow; rw [h1, h2, h3, h4, h5]; show Instr.copy _ _ _ _ _ = _; simp only [ofNat_toNat7, ofNat_toNat4]
      | some e =>
        have hz : (e.ty == 0) = true := by simp only [Instr.wf, exTy, Bool.and_eq_true] at h; exact h.1
        have hz := eq_of_beq hz
        delta decodeRow; rw [h1, h2, h3, h4, h5]
        have e1 : (e.ty == 1) = false := by rw [hz]; rfl
        have e2 : (e.ty == 2) = false := by rw [hz]; rfl
        have e3 : (e.ty == 3) = false := by rw [hz]; rfl
        show (if (e.ty == 1) = true then _ else if (e.ty == 2) = true then _ else if (e.ty == 3) = true then _ else _) = _
        rw [e1, e2, e3]; show Instr.copy _ _ _ _ _ = _; simp only [ofNat_toNat7, ofNat_toNat4])

theorem copyx (x : Ex) (f : BitVec 4) (d : R7) (a : R7) (b : R7) : Statement (.copyx x f d a b) := by
  intro h
  exact of_word (x := (some x)) (m := 0x78) (f := f.toNat) (d := d.toNat) (a := a.toNat) (b := b.toNat) rfl (by decide) (f.isLt) d.isLt a.isLt b.isLt rfl rfl rfl
    (by simp only [Instr.wf, Bool.and_eq_true, beq_iff_eq, Bool.not_eq_true'] at h; simp only [exTy, exMode1]; rw [h.1, h.2]; rfl)
    (fun w h1 h2 h3 h4 h5 => by
      have hz : x.ty = 1 := by simp only [Instr.wf, Bool.and_eq_true, beq_iff_eq] at h; exact h.1
      delta decodeRow; rw [h1, h2, h3, h4, h5]
      have e1 : (x.ty == 1) = true := by rw [hz]; rfl
      have e2 : (x.ty == 2) = false := by rw [hz]; rfl
      have e3 : (x.ty == 3) = false := by rw [hz]; rfl
      show (if (x.ty == 1) = true then _ else if (x.ty == 2) = true then _ else if (x.ty == 3) = true then _ else _) = _
      rw [e1, e2, e3]; show Instr.copyx _ _ _ _ _ = _; simp only [ofNat_toNat7, ofNat_toNat4])

theorem gath (x : Ex) (f : BitVec 4) (d : R7) (a : R7) (b : R7) : Statement (.gath x f d a b) := by
  intro h
  exact of_word (x := (some x)) (m := 0x78) (f := f.toNat) (d := d.toNat) (a := a.toNat) (b := b.toNat) rfl (by decide) (f.isLt) d.isLt a.isLt b.isLt rfl rfl rfl
    (by simp only [Instr.wf, Bool.and_eq_true, beq_iff_eq, Bool.not_eq_true'] at h; simp only [exTy, exMode1]; rw [h.1, h.2]; rfl)
    (fun w h1 h2 h3 h4 h5 => by
      have hz : x.ty = 2 := by simp only [Instr.wf, Bool.and_eq_true, beq_iff_eq] at h; exact h.1
      delta decodeRow; rw [h1, h2, h3, h4, h5]
      have e1 : (x.ty == 1) = false := by rw [hz]; rfl
      have e2 : (x.ty == 2) = true := by rw [hz]; rfl
      have e3 : (x.ty == 3) = false := by rw [hz]; rfl
      show (if (x.ty == 1) = true then _ else if (x.ty == 2) = true then _ else if (x.ty == 3) = true then _ else _) = _
      rw [e1, e2, e3]; show Instr.gath _ _ _ _ _ = _; simp only [ofNat_toNat7, ofNat_toNat4])

theorem scatx (x : Ex) (f : BitVec 4) (d : R7) (a : R7) (b : R7) : Statement (.scatx x f d a b) := by
  intro h
  exact of_word (x := (some x)) (m := 0x78) (f := f.toNat) (d := d.toNat) (a := a.toNat) (b := b.toNat) rfl (by decide) (f.isLt) d.isLt a.isLt b.isLt rfl rfl rfl
    (by simp only [Instr.wf, Bool.and_eq_true, beq_iff_eq, Bool.not_eq_true'] at h; simp only [exTy, exMode1]; rw [h.1, h.2]; rfl)
    (fun w h1 h2 h3 h4 h5 => by
      have hz : x.ty = 3 := by simp only [Instr.wf, Bool.and_eq_true, beq_iff_eq] at h; exact h.1
      delta decodeRow; rw [h1, h2, h3, h4, h5]
      have e1 : (x.ty == 1) = false := by rw [hz]; rfl
      have e2 : (x.ty == 2) = false := by rw [hz]; rfl
      have e3 : (x.ty == 3) = true := by rw [hz]; rfl
      show (if (x.ty == 1) = true then _ else if (x.ty == 2) = true then _ else if (x.ty == 3) = true then _ else _) = _
      rw [e1, e2, e3]; show Instr.scatx _ _ _ _ _ = _; simp only [ofNat_toNat7, ofNat_toNat4])

theorem mma (x : Option Ex) (f : BitVec 4) (d : R7) (a : R7) : Statement (.mma x f d a) := by
  intro h
  exact of_word (x := x) (m := 0x79) (f := f.toNat) (d := d.toNat) (a := a.toNat) (b := 116) rfl (by decide) (f.isLt) d.isLt a.isLt (by decide) rfl rfl rfl
    (by simp only [Instr.wf, Bool.and_eq_true, beq_iff_eq, Bool.not_eq_true'] at h; rw [h.1, h.2]; rfl)
    (fun w h1 h2 h3 h4 h5 => by
      cases x with
      | none => delta decodeRow; rw [h1, h2, h3, h4, h5]; show Instr.mma _ _ _ _ = _; simp only [ofNat_toNat7, ofNat_toNat4]
      | some e =>
        have hz : (e.ty == 0) = true := by simp only [Instr.wf, exTy, Bool.and_eq_true] at h; exact h.1
        have hz := eq_of_beq hz
        delta decodeRow; rw [h1, h2, h3, h4, h5]
        have e1 : (e.ty == 1) = false := by rw [hz]; rfl
        have e2 : (e.ty == 2) = false := by rw [hz]; rfl
        have e3 : (e.ty == 3) = false := by rw [hz]; rfl
        show (if (e.ty == 1) = true then _ else if (e.ty == 2) = true then _ else _) = _
        rw [e1, e2]; show Instr.mma _ _ _ _ = _; simp only [ofNat_toNat7, ofNat_toNat4])

theorem mmab (x : Ex) (f : BitVec 4) (d : R7) (a : R7) : Statement (.mmab x f d a) := by
  intro h
  exact of_word (x := (some x)) (m := 0x79) (f := f.toNat) (d := d.toNat) (a := a.toNat) (b := 116) rfl (by decide) (f.isLt) d.isLt a.isLt (by decide) rfl rfl rfl
    (by simp only [Instr.wf, Bool.and_eq_true, beq_iff_eq, Bool.not_eq_true'] at h; simp only [exTy, exMode1]; rw [h.1, h.2]; rfl)
    (fun w h1 h2 h3 h4 h5 => by
      have hz : x.ty = 1 := by simp only [Instr.wf, Bool.and_eq_true, beq_iff_eq] at h; exact h.1
      delta decodeRow; rw [h1, h2, h3, h4, h5]
      have e1 : (x.ty == 1) = true := by rw [hz]; rfl
      have e2 : (x.ty == 2) = false := by rw [hz]; rfl
      have e3 : (x.ty == 3) = false := by rw [hz]; rfl
      show (if (x.ty == 1) = true then _ else if (x.ty == 2) = true then _ else _) = _
      rw [e1, e2]; show Instr.mmab _ _ _ _ = _; simp only [ofNat_toNat7, ofNat_toNat4])

theorem mmas (x : Ex) (f : BitVec 4) (d : R7) (a : R7) : Statement (.mmas x f d a) := by
  intro h
  exact of_word (x := (some x)) (m := 0x79) (f := f.toNat) (d := d.toNat) (a := a.toNat) (b := 116) rfl (by decide) (f.isLt) d.isLt a.isLt (by decide) rfl rfl rfl
    (by simp only [Instr.wf, Bool.and_eq_true, beq_iff_eq, Bool.not_eq_true'] at h; simp only [exTy, exMode1]; rw [h.1, h.2]; rfl)
    (fun w h1 h2 h3 h4 h5 => by
      have hz : x.ty = 2 := by simp only [Instr.wf, Bool.and_eq_true, beq_iff_eq] at h; exact h.1
      delta decodeRow; rw [h1, h2, h3, h4, h5]
      have e1 : (x.ty == 1) = false := by rw [hz]; rfl
      have e2 : (x.ty == 2) = true := by rw [hz]; rfl
      have e3 : (x.ty == 3) = false := by rw [hz]; rfl
      show (if (x.ty == 1) = true then _ else if (x.ty == 2) = true then _ else _) = _
      rw [e1, e2]; show Instr.mmas _ _ _ _ = _; simp only [ofNat_toNat7, ofNat_toNat4])

theorem attn (x : Option Ex) (f : BitVec 4) (d : R7) (a : R7) (b : R7) : Statement (.attn x f d a b) := by
  intro h
  exact of_word (x := x) (m := 0x7A) (f := f.toNat) (d := d.toNat) (a := a.toNat) (b := b.toNat) rfl (by decide) (f.isLt) d.isLt a.isLt b.isLt rfl rfl rfl
    (by simp only [Instr.wf, Bool.and_eq_true, beq_iff_eq, Bool.not_eq_true'] at h; rw [h.1, h.2]; rfl)
    (fun w h1 h2 h3 h4 h5 => by
      cases x with
      | none => delta decodeRow; rw [h1, h2, h3, h4, h5]; show Instr.attn _ _ _ _ _ = _; simp only [ofNat_toNat7, ofNat_toNat4]
      | some e =>
        have hz : (e.ty == 0) = true := by simp only [Instr.wf, exTy, Bool.and_eq_true] at h; exact h.1
        have hz := eq_of_beq hz
        delta decodeRow; rw [h1, h2, h3, h4, h5]
        have e1 : (e.ty == 1) = false := by rw [hz]; rfl
        have e2 : (e.ty == 2) = false := by rw [hz]; rfl
        have e3 : (e.ty == 3) = false := by rw [hz]; rfl
        show (if (e.ty == 1) = true then _ else if (e.ty == 2) = true then _ else _) = _
        rw [e1, e2]; show Instr.attn _ _ _ _ _ = _; simp only [ofNat_toNat7, ofNat_toNat4])

theorem attnfin (x : Ex) (f : BitVec 4) (d : R7) (a : R7) : Statement (.attnfin x f d a) := by
  intro h
  exact of_word (x := (some x)) (m := 0x7A) (f := f.toNat) (d := d.toNat) (a := a.toNat) (b := 116) rfl (by decide) (f.isLt) d.isLt a.isLt (by decide) rfl rfl rfl
    (by simp only [Instr.wf, Bool.and_eq_true, beq_iff_eq, Bool.not_eq_true'] at h; simp only [exTy, exMode1]; rw [h.1, h.2]; rfl)
    (fun w h1 h2 h3 h4 h5 => by
      have hz : x.ty = 1 := by simp only [Instr.wf, Bool.and_eq_true, beq_iff_eq] at h; exact h.1
      delta decodeRow; rw [h1, h2, h3, h4, h5]
      have e1 : (x.ty == 1) = true := by rw [hz]; rfl
      have e2 : (x.ty == 2) = false := by rw [hz]; rfl
      have e3 : (x.ty == 3) = false := by rw [hz]; rfl
      show (if (x.ty == 1) = true then _ else if (x.ty == 2) = true then _ else _) = _
      rw [e1, e2]; show Instr.attnfin _ _ _ _ = _; simp only [ofNat_toNat7, ofNat_toNat4])

theorem fold (x : Ex) (f : BitVec 4) (d : R7) (a : R7) : Statement (.fold x f d a) := by
  intro h
  exact of_word (x := (some x)) (m := 0x7A) (f := f.toNat) (d := d.toNat) (a := a.toNat) (b := 116) rfl (by decide) (f.isLt) d.isLt a.isLt (by decide) rfl rfl rfl
    (by simp only [Instr.wf, Bool.and_eq_true, beq_iff_eq, Bool.not_eq_true'] at h; simp only [exTy, exMode1]; rw [h.1, h.2]; rfl)
    (fun w h1 h2 h3 h4 h5 => by
      have hz : x.ty = 2 := by simp only [Instr.wf, Bool.and_eq_true, beq_iff_eq] at h; exact h.1
      delta decodeRow; rw [h1, h2, h3, h4, h5]
      have e1 : (x.ty == 1) = false := by rw [hz]; rfl
      have e2 : (x.ty == 2) = true := by rw [hz]; rfl
      have e3 : (x.ty == 3) = false := by rw [hz]; rfl
      show (if (x.ty == 1) = true then _ else if (x.ty == 2) = true then _ else _) = _
      rw [e1, e2]; show Instr.fold _ _ _ _ = _; simp only [ofNat_toNat7, ofNat_toNat4])

theorem disp (x : Option Ex) (f : BitVec 4) (d : R7) (a : R7) (b : R7) : Statement (.disp x f d a b) := by
  intro h
  exact of_word (x := x) (m := 0x7B) (f := f.toNat) (d := d.toNat) (a := a.toNat) (b := b.toNat) rfl (by decide) (f.isLt) d.isLt a.isLt b.isLt rfl rfl rfl
    (by simp only [Instr.wf, Bool.and_eq_true, beq_iff_eq, Bool.not_eq_true'] at h; rw [h.1, h.2]; rfl)
    (fun w h1 h2 h3 h4 h5 => by
      cases x with
      | none => delta decodeRow; rw [h1, h2, h3, h4, h5]; show Instr.disp _ _ _ _ _ = _; simp only [ofNat_toNat7, ofNat_toNat4]
      | some e =>
        have hz : (e.ty == 0) = true := by simp only [Instr.wf, exTy, Bool.and_eq_true] at h; exact h.1
        have hz := eq_of_beq hz
        delta decodeRow; rw [h1, h2, h3, h4, h5]
        have e1 : (e.ty == 1) = false := by rw [hz]; rfl
        have e2 : (e.ty == 2) = false := by rw [hz]; rfl
        have e3 : (e.ty == 3) = false := by rw [hz]; rfl
        show (if (e.ty == 1) = true then _ else if (e.ty == 2) = true then _ else if (e.ty == 3) = true then _ else _) = _
        rw [e1, e2, e3]; show Instr.disp _ _ _ _ _ = _; simp only [ofNat_toNat7, ofNat_toNat4])

theorem axedit (x : Ex) (f : BitVec 4) (d : R7) (a : R7) : Statement (.axedit x f d a) := by
  intro h
  exact of_word (x := (some x)) (m := 0x7B) (f := f.toNat) (d := d.toNat) (a := a.toNat) (b := 116) rfl (by decide) (f.isLt) d.isLt a.isLt (by decide) rfl rfl rfl
    (by simp only [Instr.wf, Bool.and_eq_true, beq_iff_eq, Bool.not_eq_true'] at h; simp only [exTy, exMode1]; rw [h.1, h.2]; rfl)
    (fun w h1 h2 h3 h4 h5 => by
      have hz : x.ty = 1 := by simp only [Instr.wf, Bool.and_eq_true, beq_iff_eq] at h; exact h.1
      delta decodeRow; rw [h1, h2, h3, h4, h5]
      have e1 : (x.ty == 1) = true := by rw [hz]; rfl
      have e2 : (x.ty == 2) = false := by rw [hz]; rfl
      have e3 : (x.ty == 3) = false := by rw [hz]; rfl
      show (if (x.ty == 1) = true then _ else if (x.ty == 2) = true then _ else if (x.ty == 3) = true then _ else _) = _
      rw [e1, e2, e3]; show Instr.axedit _ _ _ _ = _; simp only [ofNat_toNat7, ofNat_toNat4])

theorem axsync (x : Ex) (f : BitVec 4) (d : R7) (a : R7) : Statement (.axsync x f d a) := by
  intro h
  exact of_word (x := (some x)) (m := 0x7B) (f := f.toNat) (d := d.toNat) (a := a.toNat) (b := 116) rfl (by decide) (f.isLt) d.isLt a.isLt (by decide) rfl rfl rfl
    (by simp only [Instr.wf, Bool.and_eq_true, beq_iff_eq, Bool.not_eq_true'] at h; simp only [exTy, exMode1]; rw [h.1, h.2]; rfl)
    (fun w h1 h2 h3 h4 h5 => by
      have hz : x.ty = 2 := by simp only [Instr.wf, Bool.and_eq_true, beq_iff_eq] at h; exact h.1
      delta decodeRow; rw [h1, h2, h3, h4, h5]
      have e1 : (x.ty == 1) = false := by rw [hz]; rfl
      have e2 : (x.ty == 2) = true := by rw [hz]; rfl
      have e3 : (x.ty == 3) = false := by rw [hz]; rfl
      show (if (x.ty == 1) = true then _ else if (x.ty == 2) = true then _ else if (x.ty == 3) = true then _ else _) = _
      rw [e1, e2, e3]; show Instr.axsync _ _ _ _ = _; simp only [ofNat_toNat7, ofNat_toNat4])

theorem launch (x : Ex) (f : BitVec 4) (d : R7) (a : R7) : Statement (.launch x f d a) := by
  intro h
  exact of_word (x := (some x)) (m := 0x7B) (f := f.toNat) (d := d.toNat) (a := a.toNat) (b := 116) rfl (by decide) (f.isLt) d.isLt a.isLt (by decide) rfl rfl rfl
    (by simp only [Instr.wf, Bool.and_eq_true, beq_iff_eq, Bool.not_eq_true'] at h; simp only [exTy, exMode1]; rw [h.1, h.2]; rfl)
    (fun w h1 h2 h3 h4 h5 => by
      have hz : x.ty = 3 := by simp only [Instr.wf, Bool.and_eq_true, beq_iff_eq] at h; exact h.1
      delta decodeRow; rw [h1, h2, h3, h4, h5]
      have e1 : (x.ty == 1) = false := by rw [hz]; rfl
      have e2 : (x.ty == 2) = false := by rw [hz]; rfl
      have e3 : (x.ty == 3) = true := by rw [hz]; rfl
      show (if (x.ty == 1) = true then _ else if (x.ty == 2) = true then _ else if (x.ty == 3) = true then _ else _) = _
      rw [e1, e2, e3]; show Instr.launch _ _ _ _ = _; simp only [ofNat_toNat7, ofNat_toNat4])

theorem waitf (x : Option Ex) (n : R7) (i : R7) : Statement (.waitf x n i) := by
  intro h
  exact of_word (x := x) (m := 0x7C) (f := 0) (d := n.toNat) (a := 116) (b := i.toNat) rfl (by decide) (by decide) n.isLt (by decide) i.isLt rfl rfl rfl
    rfl
    (fun w h1 h2 h3 h4 h5 => by delta decodeRow; rw [h1, h2, h3, h4, h5]; show Instr.waitf _ _ _ = _; simp only [ofNat_toNat7, ofNat_toNat4])

theorem qfence (x : Option Ex) (d : R7) (i : R7) : Statement (.qfence x d i) := by
  intro h
  exact of_word (x := x) (m := 0x7C) (f := 1) (d := d.toNat) (a := 116) (b := i.toNat) rfl (by decide) (by decide) d.isLt (by decide) i.isLt rfl rfl rfl
    rfl
    (fun w h1 h2 h3 h4 h5 => by delta decodeRow; rw [h1, h2, h3, h4, h5]; show Instr.qfence _ _ _ = _; simp only [ofNat_toNat7, ofNat_toNat4])

theorem csrr (x : Option Ex) (d : R7) (i : R7) : Statement (.csrr x d i) := by
  intro h
  exact of_word (x := x) (m := 0x7D) (f := 0) (d := d.toNat) (a := 116) (b := i.toNat) rfl (by decide) (by decide) d.isLt (by decide) i.isLt rfl rfl rfl
    rfl
    (fun w h1 h2 h3 h4 h5 => by delta decodeRow; rw [h1, h2, h3, h4, h5]; show Instr.csrr _ _ _ = _; simp only [ofNat_toNat7, ofNat_toNat4])

theorem csrw (x : Option Ex) (a : R7) (i : R7) : Statement (.csrw x a i) := by
  intro h
  exact of_word (x := x) (m := 0x7D) (f := 1) (d := 116) (a := a.toNat) (b := i.toNat) rfl (by decide) (by decide) (by decide) a.isLt i.isLt rfl rfl rfl
    rfl
    (fun w h1 h2 h3 h4 h5 => by
      simp only [Instr.wf, Bool.and_eq_true, bne_iff_ne] at h
      delta decodeRow; rw [h1, h2, h3, h4, h5]
      show (if (i.toNat == 3) = true then _ else if (i.toNat == 4) = true then _ else _) = _
      rw [if_neg (by simpa using h.1), if_neg (by simpa using h.2)]; simp only [ofNat_toNat7, ofNat_toNat4])

theorem csrwSstat (x : Option Ex) (a : R7) : Statement (.csrwSstat x a) := by
  intro h
  exact of_word (x := x) (m := 0x7D) (f := 1) (d := 116) (a := a.toNat) (b := 3) rfl (by decide) (by decide) (by decide) a.isLt (by decide) rfl rfl rfl
    rfl
    (fun w h1 h2 h3 h4 h5 => by delta decodeRow; rw [h1, h2, h3, h4, h5]; show Instr.csrwSstat _ _ = _; simp only [ofNat_toNat7, ofNat_toNat4])

theorem csrwBnd (x : Option Ex) (a : R7) : Statement (.csrwBnd x a) := by
  intro h
  exact of_word (x := x) (m := 0x7D) (f := 1) (d := 116) (a := a.toNat) (b := 4) rfl (by decide) (by decide) (by decide) a.isLt (by decide) rfl rfl rfl
    rfl
    (fun w h1 h2 h3 h4 h5 => by delta decodeRow; rw [h1, h2, h3, h4, h5]; show Instr.csrwBnd _ _ = _; simp only [ofNat_toNat7, ofNat_toNat4])

theorem tret (x : Option Ex) : Statement (.tret x) := by
  intro h
  exact of_word (x := x) (m := 0x7D) (f := 2) (d := 116) (a := 116) (b := 0) rfl (by decide) (by decide) (by decide) (by decide) (by decide) rfl rfl rfl
    rfl
    (fun w h1 h2 h3 h4 h5 => by delta decodeRow; rw [h1, h2, h3, h4, h5]; show Instr.tret _ = _; rfl)

theorem replay (x : Option Ex) (e : R7) : Statement (.replay x e) := by
  intro h
  exact of_word (x := x) (m := 0x7D) (f := 3) (d := 116) (a := 116) (b := e.toNat) rfl (by decide) (by decide) (by decide) (by decide) e.isLt rfl rfl rfl
    rfl
    (fun w h1 h2 h3 h4 h5 => by delta decodeRow; rw [h1, h2, h3, h4, h5]; show Instr.replay _ _ = _; simp only [ofNat_toNat7, ofNat_toNat4])

theorem rqdrop (x : Option Ex) (e : R7) : Statement (.rqdrop x e) := by
  intro h
  exact of_word (x := x) (m := 0x7D) (f := 4) (d := 116) (a := 116) (b := e.toNat) rfl (by decide) (by decide) (by decide) (by decide) e.isLt rfl rfl rfl
    rfl
    (fun w h1 h2 h3 h4 h5 => by delta decodeRow; rw [h1, h2, h3, h4, h5]; show Instr.rqdrop _ _ = _; simp only [ofNat_toNat7, ofNat_toNat4])

theorem halt (x : Option Ex) (i : R7) : Statement (.halt x i) := by
  intro h
  exact of_word (x := x) (m := 0x7D) (f := 5) (d := 116) (a := 116) (b := i.toNat) rfl (by decide) (by decide) (by decide) (by decide) i.isLt rfl rfl rfl
    rfl
    (fun w h1 h2 h3 h4 h5 => by delta decodeRow; rw [h1, h2, h3, h4, h5]; show Instr.halt _ _ = _; simp only [ofNat_toNat7, ofNat_toNat4])

theorem bkpt (x : Option Ex) (i : R7) : Statement (.bkpt x i) := by
  intro h
  exact of_word (x := x) (m := 0x7D) (f := 6) (d := 116) (a := 116) (b := i.toNat) rfl (by decide) (by decide) (by decide) (by decide) i.isLt rfl rfl rfl
    rfl
    (fun w h1 h2 h3 h4 h5 => by delta decodeRow; rw [h1, h2, h3, h4, h5]; show Instr.bkpt _ _ = _; simp only [ofNat_toNat7, ofNat_toNat4])

theorem version (x : Option Ex) (a : R7) : Statement (.version x a) := by
  intro h
  exact of_word (x := x) (m := 0x7D) (f := 7) (d := 116) (a := a.toNat) (b := 0) rfl (by decide) (by decide) (by decide) a.isLt (by decide) rfl rfl rfl
    rfl
    (fun w h1 h2 h3 h4 h5 => by delta decodeRow; rw [h1, h2, h3, h4, h5]; show Instr.version _ _ = _; simp only [ofNat_toNat7, ofNat_toNat4])

theorem regionSet (x : Option Ex) (a : R7) : Statement (.regionSet x a) := by
  intro h
  exact of_word (x := x) (m := 0x7D) (f := 7) (d := 116) (a := a.toNat) (b := 1) rfl (by decide) (by decide) (by decide) a.isLt (by decide) rfl rfl rfl
    rfl
    (fun w h1 h2 h3 h4 h5 => by delta decodeRow; rw [h1, h2, h3, h4, h5]; show Instr.regionSet _ _ = _; simp only [ofNat_toNat7, ofNat_toNat4])

theorem regionGet (x : Option Ex) (a : R7) : Statement (.regionGet x a) := by
  intro h
  exact of_word (x := x) (m := 0x7D) (f := 7) (d := 116) (a := a.toNat) (b := 2) rfl (by decide) (by decide) (by decide) a.isLt (by decide) rfl rfl rfl
    rfl
    (fun w h1 h2 h3 h4 h5 => by delta decodeRow; rw [h1, h2, h3, h4, h5]; show Instr.regionGet _ _ = _; simp only [ofNat_toNat7, ofNat_toNat4])

theorem sfdomSet (x : Option Ex) (a : R7) : Statement (.sfdomSet x a) := by
  intro h
  exact of_word (x := x) (m := 0x7D) (f := 7) (d := 116) (a := a.toNat) (b := 3) rfl (by decide) (by decide) (by decide) a.isLt (by decide) rfl rfl rfl
    rfl
    (fun w h1 h2 h3 h4 h5 => by delta decodeRow; rw [h1, h2, h3, h4, h5]; show Instr.sfdomSet _ _ = _; simp only [ofNat_toNat7, ofNat_toNat4])

theorem measure (x : Option Ex) (a : R7) : Statement (.measure x a) := by
  intro h
  exact of_word (x := x) (m := 0x7D) (f := 7) (d := 116) (a := a.toNat) (b := 4) rfl (by decide) (by decide) (by decide) a.isLt (by decide) rfl rfl rfl
    rfl
    (fun w h1 h2 h3 h4 h5 => by delta decodeRow; rw [h1, h2, h3, h4, h5]; show Instr.measure _ _ = _; simp only [ofNat_toNat7, ofNat_toNat4])

theorem extend (x : Option Ex) (a : R7) : Statement (.extend x a) := by
  intro h
  exact of_word (x := x) (m := 0x7D) (f := 7) (d := 116) (a := a.toNat) (b := 5) rfl (by decide) (by decide) (by decide) a.isLt (by decide) rfl rfl rfl
    rfl
    (fun w h1 h2 h3 h4 h5 => by delta decodeRow; rw [h1, h2, h3, h4, h5]; show Instr.extend _ _ = _; simp only [ofNat_toNat7, ofNat_toNat4])

theorem random (x : Option Ex) (a : R7) : Statement (.random x a) := by
  intro h
  exact of_word (x := x) (m := 0x7D) (f := 7) (d := 116) (a := a.toNat) (b := 6) rfl (by decide) (by decide) (by decide) a.isLt (by decide) rfl rfl rfl
    rfl
    (fun w h1 h2 h3 h4 h5 => by delta decodeRow; rw [h1, h2, h3, h4, h5]; show Instr.random _ _ = _; simp only [ofNat_toNat7, ofNat_toNat4])

theorem powerRead (x : Option Ex) (a : R7) : Statement (.powerRead x a) := by
  intro h
  exact of_word (x := x) (m := 0x7D) (f := 7) (d := 116) (a := a.toNat) (b := 7) rfl (by decide) (by decide) (by decide) a.isLt (by decide) rfl rfl rfl
    rfl
    (fun w h1 h2 h3 h4 h5 => by delta decodeRow; rw [h1, h2, h3, h4, h5]; show Instr.powerRead _ _ = _; simp only [ofNat_toNat7, ofNat_toNat4])

theorem time (x : Option Ex) (d : R7) : Statement (.time x d) := by
  intro h
  exact of_word (x := x) (m := 0x7D) (f := 8) (d := d.toNat) (a := 116) (b := 0) rfl (by decide) (by decide) d.isLt (by decide) (by decide) rfl rfl rfl
    rfl
    (fun w h1 h2 h3 h4 h5 => by delta decodeRow; rw [h1, h2, h3, h4, h5]; show Instr.time _ _ = _; simp only [ofNat_toNat7, ofNat_toNat4])

theorem lxComplete (r : WaveRef) (e : Nat) : Statement (.lxComplete r e) := by
  intro h; exact .inl rfl

theorem launchTake (node : Nat) (ccn : Nat) : Statement (.launchTake node ccn) := by
  intro h; exact .inl rfl

theorem teamPlacement (t : TeamRef) : Statement (.teamPlacement t) := by
  intro h; exact .inl rfl

theorem deficitPreempt (node : Nat) (die : Nat) (ccn : Nat) : Statement (.deficitPreempt node die ccn) := by
  intro h; exact .inl rfl

theorem forceprePreempt (t : TeamRef) : Statement (.forceprePreempt t) := by
  intro h; exact .inl rfl

theorem waveBoost (r : WaveRef) : Statement (.waveBoost r) := by
  intro h; exact .inl rfl

theorem yieldExpiry (r : WaveRef) : Statement (.yieldExpiry r) := by
  intro h; exact .inl rfl

theorem fallbackRotation (r : WaveRef) : Statement (.fallbackRotation r) := by
  intro h; exact .inl rfl

theorem waitingBudgetExpiry (node : Nat) (rcb : Nat) : Statement (.waitingBudgetExpiry node rcb) := by
  intro h; exact .inl rfl

theorem engineCommandStart (q : StreamRef) : Statement (.engineCommandStart q) := by
  intro h; exact .inl rfl

theorem engineCommandComplete (q : StreamRef) : Statement (.engineCommandComplete q) := by
  intro h; exact .inl rfl

theorem shootDown (i : Nat) : Statement (.shootDown i) := by
  intro h; exact .inl rfl

theorem shootDownAcknowledge (i : Nat) : Statement (.shootDownAcknowledge i) := by
  intro h; exact .inl rfl

theorem faultRecord (node : Nat) (fdom : Nat) : Statement (.faultRecord node fdom) := by
  intro h; exact .inl rfl

theorem remoteAccess (r : RemoteReq) : Statement (.remoteAccess r) := by
  intro h; exact .inl rfl

theorem fabricStreamFail (st : FabStream) : Statement (.fabricStreamFail st) := by
  intro h; exact .inl rfl

theorem packetLifetimeExpiry (pkt : Nat) : Statement (.packetLifetimeExpiry pkt) := by
  intro h; exact .inl rfl

theorem hwBarrierArrival (i : Nat) : Statement (.hwBarrierArrival i) := by
  intro h; exact .inl rfl

theorem hwBarrierRelease (i : Nat) : Statement (.hwBarrierRelease i) := by
  intro h; exact .inl rfl

theorem sendQueueTimeout (node : Nat) (die : Nat) (dst : Nat) : Statement (.sendQueueTimeout node die dst) := by
  intro h; exact .inl rfl

theorem dispatchPacketReceive (pkt : Nat) : Statement (.dispatchPacketReceive pkt) := by
  intro h; exact .inl rfl

theorem deliveryRetry (i : Nat) : Statement (.deliveryRetry i) := by
  intro h; exact .inl rfl

theorem generationRetireWait (q : StreamRef) : Statement (.generationRetireWait q) := by
  intro h; exact .inl rfl

theorem gangSliceBoundary (node : Nat) : Statement (.gangSliceBoundary node) := by
  intro h; exact .inl rfl

theorem gangBarrierArrival (node : Nat) (gen : Nat) : Statement (.gangBarrierArrival node gen) := by
  intro h; exact .inl rfl

theorem gangAbort  : Statement (.gangAbort) := by
  intro h; exact .inl rfl

theorem gangDecision (node : Nat) : Statement (.gangDecision node) := by
  intro h; exact .inl rfl

theorem peerSet (h : Mgmt) (ccn : Nat) (lo : Nat) (hi : Nat) : Statement (.peerSet h ccn lo hi) := by
  intro h; exact .inl rfl

theorem fdomSet (h : Mgmt) (n : Nat) (ring : Nat) : Statement (.fdomSet h n ring) := by
  intro h; exact .inl rfl

theorem routeSet (h : Mgmt) (die : Nat) (ccn : Nat) (r : RouteArg) : Statement (.routeSet h die ccn r) := by
  intro h; exact .inl rfl

theorem gangSched (h : Mgmt) (rec : List Byte) : Statement (.gangSched h rec) := by
  intro h; exact .inl rfl

theorem queueReset (h : Mgmt) (q : StreamRef) : Statement (.queueReset h q) := by
  intro h; exact .inl rfl

theorem waveResume (h : Mgmt) (r : WaveRef) : Statement (.waveResume h r) := by
  intro h; exact .inl rfl

theorem waveEnd (h : Mgmt) (r : WaveRef) : Statement (.waveEnd h r) := by
  intro h; exact .inl rfl

theorem ctxResume (h : Mgmt) (ccn : Nat) : Statement (.ctxResume h ccn) := by
  intro h; exact .inl rfl

theorem ctxDestroy (h : Mgmt) (ccn : Nat) : Statement (.ctxDestroy h ccn) := by
  intro h; exact .inl rfl

theorem debugStop (h : Mgmt) (rs : List WaveRef) : Statement (.debugStop h rs) := by
  intro h; exact .inl rfl

theorem debugRead (h : Mgmt) (i : DebugItem) : Statement (.debugRead h i) := by
  intro h; exact .inl rfl

theorem debugWrite (h : Mgmt) (i : DebugItem) (v : Nat) : Statement (.debugWrite h i v) := by
  intro h; exact .inl rfl

theorem debugResume (h : Mgmt) (rs : List WaveRef) : Statement (.debugResume h rs) := by
  intro h; exact .inl rfl

theorem counters (h : Mgmt) : Statement (.counters h) := by
  intro h; exact .inl rfl

theorem enable (h : Mgmt) : Statement (.enable h) := by
  intro h; exact .inl rfl

theorem getVersion (h : Mgmt) (msg : List Byte) : Statement (.getVersion h msg) := by
  intro h; exact .inl rfl

theorem getCapabilities (h : Mgmt) (msg : List Byte) : Statement (.getCapabilities h msg) := by
  intro h; exact .inl rfl

theorem negotiateAlgorithms (h : Mgmt) (msg : List Byte) : Statement (.negotiateAlgorithms h msg) := by
  intro h; exact .inl rfl

theorem getDigests (h : Mgmt) (msg : List Byte) : Statement (.getDigests h msg) := by
  intro h; exact .inl rfl

theorem getCertificate (h : Mgmt) (msg : List Byte) : Statement (.getCertificate h msg) := by
  intro h; exact .inl rfl

theorem challenge (h : Mgmt) (msg : List Byte) : Statement (.challenge h msg) := by
  intro h; exact .inl rfl

theorem getMeasurements (h : Mgmt) (msg : List Byte) : Statement (.getMeasurements h msg) := by
  intro h; exact .inl rfl

theorem deviceReset (node : Nat) : Statement (.deviceReset node) := by
  intro h; exact .inl rfl

theorem loaderPlace (q : LoadReq) : Statement (.loaderPlace q) := by
  intro h; exact .inl rfl

theorem wakeWithoutCause (r : WaveRef) : Statement (.wakeWithoutCause r) := by
  intro h; exact .inl rfl

theorem swcUnknownService (x : Option Ex) (a : R7) (n : R7) : Statement (.swcUnknownService x a n) := by
  intro h
  exact of_word (x := x) (m := 0x7D) (f := 7) (d := 116) (a := a.toNat) (b := n.toNat) rfl (by decide) (by decide) (by decide) a.isLt n.isLt rfl rfl rfl
    rfl
    (fun w h1 h2 h3 h4 h5 => by
      simp only [Instr.wf, decide_eq_true_eq] at h
      delta decodeRow; rw [h1, h2, h3, h4, h5]
      show (if (n.toNat == 0) = true then _ else if (n.toNat == 1) = true then _ else if (n.toNat == 2) = true then _ else if (n.toNat == 3) = true then _ else if (n.toNat == 4) = true then _ else if (n.toNat == 5) = true then _ else if (n.toNat == 6) = true then _ else if (n.toNat == 7) = true then _ else _) = _
      rw [if_neg (by simp only [beq_iff_eq]; omega)]
      rw [if_neg (by simp only [beq_iff_eq]; omega)]
      rw [if_neg (by simp only [beq_iff_eq]; omega)]
      rw [if_neg (by simp only [beq_iff_eq]; omega)]
      rw [if_neg (by simp only [beq_iff_eq]; omega)]
      rw [if_neg (by simp only [beq_iff_eq]; omega)]
      rw [if_neg (by simp only [beq_iff_eq]; omega)]
      rw [if_neg (by simp only [beq_iff_eq]; omega)]
      simp only [ofNat_toNat7, ofNat_toNat4])

theorem unknownManagementCode (h : Mgmt) (code : Nat) : Statement (.unknownManagementCode h code) := by
  intro h; exact .inl rfl

theorem unsupportedRequest (h : Mgmt) (msg : List Byte) : Statement (.unsupportedRequest h msg) := by
  intro h; exact .inl rfl

theorem bra (c : BitVec 4) (o : BitVec 21) : Statement (.bra c o) := by
  intro h; right
  have k : (mkWord21 0x4C c.toNat o.toNat).maj = 0x4C := maj_mkWord21 (by decide) c.isLt o.isLt
  have k1 := fn_mkWord21 (m := 0x4C) (by decide) c.isLt o.isLt
  have k2 := low21_mkWord21 (m := 0x4C) (by decide) c.isLt o.isLt
  show decodeWords [_] = _
  have e : decodeWord none (mkWord21 0x4C c.toNat o.toNat) = .bra c o := by
    have hm : majorAssigned 0x4C = true := rfl
    have hf : fnOk 0x4C c.toNat = true := rfl
    have hx : fixedOk none (mkWord21 0x4C c.toNat o.toNat) = true := by unfold fixedOk; rw [k]; first | rfl | (rw [k1]; rfl)
    simp only [decodeWord, k, k1, hm, hf, hx, Bool.not_true, Bool.false_eq_true, if_false]
    delta decodeRow; rw [k, k1, k2]; show Instr.bra _ _ = _; simp only [ofNat_toNat4, ofNat_toNat21]
  rw [decodeWords_one _ (by rw [k]; decide)]
  rw [e]; rfl

theorem call (c : BitVec 4) (o : BitVec 21) : Statement (.call c o) := by
  intro h; right
  have k : (mkWord21 0x4D c.toNat o.toNat).maj = 0x4D := maj_mkWord21 (by decide) c.isLt o.isLt
  have k1 := fn_mkWord21 (m := 0x4D) (by decide) c.isLt o.isLt
  have k2 := low21_mkWord21 (m := 0x4D) (by decide) c.isLt o.isLt
  show decodeWords [_] = _
  have e : decodeWord none (mkWord21 0x4D c.toNat o.toNat) = .call c o := by
    have hm : majorAssigned 0x4D = true := rfl
    have hf : fnOk 0x4D c.toNat = true := rfl
    have hx : fixedOk none (mkWord21 0x4D c.toNat o.toNat) = true := by unfold fixedOk; rw [k]; first | rfl | (rw [k1]; rfl)
    simp only [decodeWord, k, k1, hm, hf, hx, Bool.not_true, Bool.false_eq_true, if_false]
    delta decodeRow; rw [k, k1, k2]; show Instr.call _ _ = _; simp only [ofNat_toNat4, ofNat_toNat21]
  rw [decodeWords_one _ (by rw [k]; decide)]
  rw [e]; rfl

theorem txbegin (o : BitVec 21) : Statement (.txbegin o) := by
  intro h; right
  have k : (mkWord21 0x70 0 o.toNat).maj = 0x70 := maj_mkWord21 (by decide) (by decide) o.isLt
  have k1 : (mkWord21 0x70 0 o.toNat).fn = 0 := fn_mkWord21 (by decide) (by decide) o.isLt
  have k2 := low21_mkWord21 (m := 0x70) (f := 0) (by decide) (by decide) o.isLt
  show decodeWords [_] = _
  have e : decodeWord none (mkWord21 0x70 0 o.toNat) = .txbegin o := by
    have hm : majorAssigned 0x70 = true := rfl
    have hf : fnOk 0x70 0 = true := rfl
    have hx : fixedOk none (mkWord21 0x70 0 o.toNat) = true := by unfold fixedOk; rw [k]; first | rfl | (rw [k1]; rfl)
    simp only [decodeWord, k, k1, hm, hf, hx, Bool.not_true, Bool.false_eq_true, if_false]
    delta decodeRow; rw [k, k1, k2]; show Instr.txbegin _ = _; simp only [ofNat_toNat4, ofNat_toNat21]
  rw [decodeWords_one _ (by rw [k]; decide)]
  rw [e]; rfl

theorem orelse (o : BitVec 21) : Statement (.orelse o) := by
  intro h; right
  have k : (mkWord21 0x71 0 o.toNat).maj = 0x71 := maj_mkWord21 (by decide) (by decide) o.isLt
  have k1 : (mkWord21 0x71 0 o.toNat).fn = 0 := fn_mkWord21 (by decide) (by decide) o.isLt
  have k2 := low21_mkWord21 (m := 0x71) (f := 0) (by decide) (by decide) o.isLt
  show decodeWords [_] = _
  have e : decodeWord none (mkWord21 0x71 0 o.toNat) = .orelse o := by
    have hm : majorAssigned 0x71 = true := rfl
    have hf : fnOk 0x71 0 = true := rfl
    have hx : fixedOk none (mkWord21 0x71 0 o.toNat) = true := by unfold fixedOk; rw [k]; first | rfl | (rw [k1]; rfl)
    simp only [decodeWord, k, k1, hm, hf, hx, Bool.not_true, Bool.false_eq_true, if_false]
    delta decodeRow; rw [k, k1, k2]; show Instr.orelse _ = _; simp only [ofNat_toNat4, ofNat_toNat21]
  rw [decodeWords_one _ (by rw [k]; decide)]
  rw [e]; rfl

theorem unassignedMajor (w : Word) : Statement (.unassignedMajor w) := by
  intro h; right
  simp only [Instr.wf, Bool.and_eq_true, Bool.not_eq_true', bne_iff_ne] at h
  show decodeWords [_] = _
  rw [decodeWords_one _ h.2]
  simp [decodeWord, h.1, encode]

theorem reservedFnValue (x : Option Ex) (w : Word) : Statement (.reservedFnValue x w) := by
  intro h; right
  simp only [Instr.wf, Bool.and_eq_true, Bool.not_eq_true', Bool.or_eq_true] at h
  obtain ⟨⟨h1, h2⟩, h3⟩ := h
  have h7 : w.maj ≠ 0x7F := by intro e; rw [e] at h1; cases h1
  show decodeWords (withEx x w) = _
  rw [decode_withEx x w h7 (h3.imp (by simp) (fun h => ⟨h, h1⟩))]
  simp [decodeWord, h1, h2, encode]

theorem reservedOperandValue (x : Option Ex) (w : Word) : Statement (.reservedOperandValue x w) := by
  intro h; right
  simp only [Instr.wf, Bool.and_eq_true, Bool.not_eq_true', Bool.or_eq_true] at h
  obtain ⟨⟨⟨h1, h2⟩, h4⟩, h3⟩ := h
  have h7 : w.maj ≠ 0x7F := by intro e; rw [e] at h1; cases h1
  show decodeWords (withEx x w) = _
  rw [decode_withEx x w h7 (h3.imp (by simp) (fun h => ⟨h, h1⟩))]
  simp [decodeWord, h1, h2, h4, encode]

theorem exMisuse (w n : Word) : Statement (.exMisuse w n) := by
  intro h; right
  simp only [Instr.wf, Bool.and_eq_true, beq_iff_eq] at h
  show decodeWords [_, _] = _
  rw [decodeWords_two _ _ h.1]
  simp only [decodePair, h.2, encode, if_true]; rfl

end RoundTrip
end Sys2Proof.Laws
end

