-- ==== Sys2Proof/Tests/Slice0.lean ====
section
/-! SUPPORT. Tests: what the decoder refuses, words of the spec, the worked cases of the spec on small states, and a state that meets
the hypotheses of each statement. -/
set_option Elab.async false
set_option maxRecDepth 100000
set_option synthInstance.maxSize 20000
set_option synthInstance.maxHeartbeats 400000
namespace Sys2Proof.Tests
open Sys2Proof Sys2Proof.Machine Sys2Proof.Safety Sys2Proof.Claims

/-! ### Small states -/

/-- A launch of one team of one wave. -/
def launch0 : Launch := probeLaunch 0 1
/-- Its team. -/
def team0 : Team := probeTeam 0 1
/-- Its wave: 32 live items, every register 0. -/
def wave0 : Wave := probeWave 1 0
/-- A machine of one booted node on which one wave issues next. -/
def scene (w : Wave) : State :=
  { State.reset with
    nodes := [{ Node.reset 0 with booted := true }]
    launches := [launch0], teams := [team0], waves := [w], cores := [probeCore 0], nextNum := 2, cur := .wave w.ref }
/-- That machine. -/
def s0 : State := scene wave0
/-- The state after an instruction or event; the same state where it stops. -/
def afterExec (i : Instr) (s : State) : State :=
  match exec i s with
  | .next s' => s'
  | _ => s
/-- Whether an instruction or event answers a next state. -/
def goesOn (i : Instr) (s : State) : Bool :=
  match exec i s with
  | .next _ => true
  | _ => false
/-- An EX that holds only a type (R80). -/
def exTyped (t : Nat) : Option Ex := some ⟨false, 0, BitVec.ofNat 21 (t * 2 ^ 13)⟩
/-- An EX that holds a type and a modifier (R80). -/
def exFxed (t f : Nat) : Option Ex := some ⟨false, 0, BitVec.ofNat 21 (t * 2 ^ 13 + f * 2 ^ 9)⟩
/-- An EX of MODE 1 with high immediate bits 0 (R81). -/
def exImm (t : Nat) : Option Ex := some ⟨false, 0, BitVec.ofNat 21 (2 ^ 20 + t * 2 ^ 16)⟩

/-! ### States that meet the hypotheses: arithmetic, moves and predicates -/

/-- An integer instruction of each kind; among them a pair, an x pair, a k destination, z and an immediate. -/
def ints : List Instr := [.iadd none false .s32 4 6 8, .iadd none true .s64 4 6 8, .iadd (exImm 0) false .n8 116 6 5, .isub none false .n64 114 6 8,
  .imul none false .s16 4 6 8, .imulh none false .n64 4 6 8, .imad none true .s32 4 6 8, .imin none false .s8 4 6 8,
  .imax none false .n16 88 90 92, .iabs none false .s32 4 6, .ineg none true .n64 4 6, .and none false .n64 4 6 8, .or none false .s32 4 6 8,
  .xor none false .s32 4 6 8, .andn none false .n32 4 6 8, .shl none false .s32 4 6 8, .shr none false .n32 4 6 8, .sar none false .s64 4 6 8,
  .rol none false .n32 4 6 8, .popc none false .n64 4 6, .clz none false .s32 4 6, .brev none false .n32 4 6, .bfx none false .s32 4 6 8,
  .bfi none false .n64 4 6 8, .lea none false .s32 4 6 8, .bpick none false .s32 4 6 8]
theorem meets_integer_lanes : ints.all (fun i => (intRule i).any (fun r => decide (r.Pre i s0 wave0 team0 launch0))) = true := by decide +kernel

def carries : List Instr := [.iaddc none false .n32 4 6 8, .isubb none true .s64 4 6 8]
theorem meets_carry : carries.all (fun i => (carryRule i).any (fun r => decide (CarryPre r.1 i s0 wave0 team0 launch0))) = true := by
  decide +kernel

def floats : List Instr := [.fadd none true .rn 4 5 6, .fsub none false .rz 4 5 6, .fmul none false .ru 88 89 90, .ffma none false .rd 4 5 6,
  .fmin none 4 5 6, .fmax none 4 5 6, .fclass none 4 5, .fcpys none 4 5 6, .hadd2 none true false .rn 4 5 6, .hmul2 none false true .rz 4 5 6,
  .hfma2 none false false .rn 4 5 6, .hmax2 none true 4 5 6, .cvt none true .rn 4 5 11 4, .frnd none .rn 4 5]
theorem meets_float_lanes : floats.all (fun i => (floatRule i).any (fun r => decide (r.Pre i s0 wave0 team0 launch0))) = true := by
  decide +kernel

theorem meets_cvtq : [0, 1, 2].all (fun k => decide (PredPre none (.cvtq none (k == 0) false .rn 4 5 k) s0 wave0 team0 launch0)) = true := by
  decide +kernel

def reads : List Instr := [.sel none false 3 4 5 6, .mov none 4 117, .movk none 4 5 31, .ldi none 4 5, .ldiHi none 4 5, .pmovGet none 4,
  .form none 4 5, .unif none 4 5, .idx none 4 6 2, .csrr none 4 6, .csrr none 88 32, .txstat none 88, .time none 90]
theorem meets_moves_and_reads : reads.all (fun i => (readRule i).any (fun r => decide (r.Pre i s0 wave0 team0 launch0))) = true := by
  decide +kernel

def comparisons : List Instr := [.icmp none .lt 1 4 5, .icmp (exTyped 3) .ge 7 4 6, .fcmp none .nan 2 4 5, .fcmp (exTyped 10) .num 0 4 5]
theorem meets_comparisons : comparisons.all (fun i => (predRule i).any (fun r => decide (PredPre r.1 i s0 wave0 team0 launch0))) = true := by
  decide +kernel
theorem meets_pmov_set : PredPre none (.pmovSet none 5) s0 wave0 team0 launch0 := by decide +kernel
theorem meets_pset : ops130.all (fun q => decide (PredPre none (.pset none q 7 1 0) s0 wave0 team0 launch0)) = true := by decide +kernel
theorem meets_pset_check : (waveCheck wave0 none (wordOf (.pset none .not 7 1 1))).isSome = true := by decide +kernel
theorem meets_pset_reserved : decodeWord none (mkWord 0x3A 5 1 1 1) = .reservedFnValue none (mkWord 0x3A 5 1 1 1) := by decide +kernel

/-! ### Long-latency and control instructions -/

def lxs : List Instr := [.frcp none 2 4 5, .frsq none 0 4 5, .fsqrt none 15 4 5, .fexp2 none 0 4 5, .flog2 none 0 4 5, .fsin none 0 4 5,
  .fcos none 0 4 5, .ftanh none 0 4 5, .shfl none 0 4 5 6, .shflx none 0 4 5 6, .vote none 0 4 5, .redux none 0 4 5 116,
  .scan none 0 4 5, .rbal none 0 4 5 90, .mrg none 0 4 6 8, .sortk none 0 4 6]
theorem meets_lx : lxs.all (fun i => (lxRule i).any (fun r => decide (r.Pre i s0 wave0 team0 launch0))) = true := by decide +kernel
theorem meets_work : WorkPre none (.work none 0 4 90 92) s0 wave0 team0 launch0 := by decide +kernel

def waveOps : List Instr := [.nop none, .join none, .fence none, .waitf none 0 4, .yield none, .wbase none 0,
  .csrwSstat none 91, .csrwBnd none 91, .txbegin 4]
theorem meets_wave_state : waveOps.all (fun i => (waveRule i).any (fun r => decide (r.Pre i s0 wave0 team0 launch0))) = true := by decide +kernel

/-- A wave whose predicate 1 holds in the lower half. -/
def halfWave : Wave := { wave0 with preds := setFile 0 wave0.preds 1 0xFFFF }
theorem meets_exit : ((waveRule (.exit (some ⟨false, 1, 0⟩))).any (fun r =>
    decide (r.Pre (.exit (some ⟨false, 1, 0⟩)) (scene halfWave) halfWave team0 launch0))) = true := by decide +kernel

/-- A wave in a transaction of one level that has read one line. -/
def txWave : Wave := { wave0 with tx := some ⟨64, 0, 0, 1, [], [.glob 0], [], [], 0, []⟩ }
def txOps : List Instr := [.txbegin 4, .orelse 8]
theorem meets_transaction_state : txOps.all (fun i => (waveRule i).any (fun r => decide (r.Pre i (scene txWave) txWave team0 launch0))) = true := by
  decide +kernel
/-- A wave with one alternative pending. -/
def altWave : Wave := { txWave with tx := some ⟨64, 0, 0, 1, [⟨32, 1, [], [], []⟩], [], [], [], 0, []⟩ }
theorem meets_orend : (waveRule (.orend none)).any (fun r => decide (r.Pre (.orend none) (scene altWave) altWave team0 launch0)) = true := by
  decide +kernel

theorem meets_matl : PredPre none (.matl none 5) s0 wave0 team0 launch0 := by decide +kernel
/-- Two waves of 96 registers. -/
def giver : Wave := { wave0 with ref := ⟨⟨1, 0⟩, 1⟩, quota := 96, v := List.replicate 96 {}, rowBudget := 96 }
/-- The wave that takes registers: 8 from wave 1. -/
def taker : Wave := { wave0 with k := [1, 0, 8] ++ List.replicate 21 0, quota := 96, v := List.replicate 96 {}, rowBudget := 96 }
def quotaScene : State := { scene taker with waves := [taker, giver], teams := [{ team0 with slots := [(0, 96), (0, 96)] }] }
theorem meets_wquota : QuotaPre none (.wquota none 88 90) quotaScene taker giver { team0 with slots := [(0, 96), (0, 96)] } launch0 8 := by
  decide +kernel

def jumps : List Instr := [.bra 0 4, .bra 9 0x1FFFFF, .call 0 4, .brx none 4, .ret none 115]
theorem meets_transfers : jumps.all (fun i => (jumpRule i).any (fun r => decide (JumpPre r.1 r.2.1 r.2.2.1 i s0 wave0 team0 launch0))) = true := by
  decide +kernel

def services : List Instr := [.version none 92, .regionSet none 92, .regionGet none 92, .sfdomSet none 92, .measure none 92, .extend none 92,
  .random none 92, .powerRead none 92, .swcUnknownService none 92 9]
theorem meets_services : services.all (fun i => (serviceRule i).any (fun r =>
    decide (ServicePre r.1 (reply r.2.1 r.2.2 s0 wave0 team0 launch0).2 i s0 wave0 team0 launch0))) = true := by decide +kernel

/-! ### Memory -/

def loads : List Instr := [.ldg none 0 10 4 6, .ldg (exTyped 2) 3 10 4 6, .lds (exTyped 6) 0 10 4 6, .ldc none 0 10 4 6, .lda none 0 10 4 6,
  .ldu none 0 88 90 92]
theorem meets_loads : loads.all (fun i => (loadSpace i).any (fun r => decide (LoadPre r.1 r.2 i s0 wave0 team0 launch0))) = true := by
  decide +kernel
def stores : List Instr := [.stg none 0 10 4 6, .stg (exTyped 3) 0 10 4 6, .sts (exTyped 4) 0 10 4 6, .stc none 0 10 4 6, .sta none 0 10 4 6]
theorem meets_stores : stores.all (fun i => (storeSpace i).any (fun r => decide (StorePre r.1 r.2 i s0 wave0 team0 launch0))) = true := by
  decide +kernel

theorem meets_pref : AtOncePre none (.pref none 0 4 6) s0 wave0 team0 launch0 := by decide +kernel
/-- A wave whose k-registers name a stash window: 128 bytes of global address 0 at scratchpad byte 256. -/
def stwWave : Wave := { wave0 with k := [0, 0, 256, 128] ++ List.replicate 20 0 }
theorem meets_stw : StwPre none (.stw none 0 3 88 90) (scene stwWave) stwWave team0 launch0 := by
  refine ⟨by decide +kernel, by decide +kernel, by decide +kernel, by decide +kernel, by decide +kernel, by decide +kernel, by decide +kernel,
    by decide +kernel, 0, rfl⟩
/-- A team whose window slot 3 is live. -/
def windowTeam : Team := { team0 with windows := [none, none, none, some ⟨0, 256, 128⟩, none, none, none, none] }
theorem meets_stwb : StwbPre none (.stwb none 0 3) { s0 with teams := [windowTeam] } wave0 windowTeam launch0 ⟨0, 256, 128⟩ := by decide +kernel

def atoms : List Instr := [.atomg none 0 10 4 6, .atomg (exFxed 3 8) 0 10 4 6, .atoms none 0 10 4 6, .atomc none 0 10 4 6, .redg none 0 4 6]
theorem meets_atomics : atoms.all (fun i => (atomRule i).any (fun r => decide (AtomPre r.1 r.2.1 i s0 wave0 team0 launch0))) = true := by
  decide +kernel
/-- A wave whose k1:k0 names 4 bins from scratchpad byte 0. -/
def binWave : Wave := { wave0 with k := [0, 4] ++ List.replicate 22 0 }
theorem meets_bin : BinPre none (.bin none 0 10 4 88) (scene binWave) binWave team0 launch0 := by decide +kernel
theorem meets_team_reduction : RoundPre (exFxed 0 8) (.redux (exFxed 0 8) 0 10 4 88) s0 wave0 team0 launch0 := by decide +kernel

/-! ### Synchronisation -/

/-- A wave whose k-registers name a sync object at 0x1000, and legal parameters. -/
def syncWave : Wave := { wave0 with k := [0x1000, 0, 0x2000, 0, 128, 0] ++ List.replicate 18 0 }
theorem meets_acq : SeqPre none false (.acq none 10 88) (scene syncWave) syncWave team0 launch0 0x1000 := by decide +kernel
theorem meets_rel : SeqPre none true (.rel none 10 88) (scene syncWave) syncWave team0 launch0 0x1000 := by decide +kernel
theorem meets_bind : BindPre none (.bind none 88 90) (scene syncWave) syncWave team0 launch0 0x1000 := by decide +kernel
/-- A wave whose k-registers define a ring: 4 slots of 128 bytes at 0x2000, the descriptor at 0x1000. -/
def ringWave : Wave := { wave0 with k := [0x1000, 0, 0x2000, 0, 0x207] ++ List.replicate 19 0 }
theorem meets_rgdef : RgdefPre none (.rgdef none 88 90) (scene ringWave) ringWave team0 launch0 0x1000 0x2200 := by decide +kernel
/-- A wave whose k-registers name a barrier object at the start of the sync region for one wave of its team. -/
def barWave : Wave := { wave0 with k := [65408, 0x10000] ++ List.replicate 22 0 }
theorem meets_barinit : BarinitPre none (.barinit none 88 89) (scene barWave) barWave team0 launch0 := by decide +kernel
theorem meets_arrive : ArrivePre none (.arrive none 10 88) (scene barWave) barWave team0 launch0 := by decide +kernel

/-- A state of the small machine with bytes of memory. -/
def withMem (w : Wave) (ms : List (Nat × Nat × Nat)) : State :=
  { scene w with mem := ms.foldl (fun m p => m.writeN p.1 (toBytes p.2.1 p.2.2)) [] }
/-- A ring of 4 slots of 128 bytes at 0x2000 with its descriptor at 0x1000, all of whose slots are free (R179, R180). -/
def ringMem : List (Nat × Nat × Nat) := [(0x1000, 8, 0x2000), (0x1008, 4, 0x207), (0x1014, 4, 4)]
/-- Where the ring lies. -/
def ring0 : RingAt := ⟨0x1000, 0x2200, 2⟩
/-- A wave whose v5:v4 names the ring in every lane. -/
def ringUser : Wave := { wave0 with v := setFile {} wave0.v 4 { form := .u 0x1000 } }
def ringOps : List Instr := [.rgrsv none 0 10 4, .rgpub none 0 10 4 6, .rgtake none 0 10 4, .rgfree none 0 10 4 6]
theorem meets_rings : ringOps.all (fun i => (ringRule i).any (fun r =>
    decide (RingPre r.1 i (withMem ringUser ringMem) ringUser team0 launch0 (fun _ => ring0)))) = true := by decide +kernel

/-! ### Ranked lists -/

/-- A wave whose k0 names the list at word 0x100, and k1 a configuration of 4 ranks with signed keys. -/
def listWave : Wave := { wave0 with k := [0x100, 4, 0x200] ++ List.replicate 21 0 }
/-- A team whose accumulator memory holds lists of 4 ranks at words 0x100 and 0x200. -/
def listTeam : Team := { team0 with acm := Memory.writeN (Memory.writeN [] 0x400 (toBytes 4 4)) 0x800 (toBytes 4 4) }
def listScene : State := { scene listWave with teams := [listTeam] }
theorem meets_rkinit : RkinitPre none (.rkinit none 88 89) (scene listWave) listWave team0 launch0 := by decide +kernel
theorem meets_rkthr : RkthrPre none (.rkthr none 88 1) listScene listWave listTeam launch0 := by decide +kernel
theorem meets_rkthr_unbind : RkthrPre none (.rkthr none 116 1) listScene listWave listTeam launch0 := by decide +kernel
theorem meets_pthr : WavePre none (.pthr none 2 6 1) listScene listWave listTeam launch0 := by decide +kernel
theorem meets_rkpush : RkpushPre none (.rkpush none 0 88 4 5) listScene listWave listTeam launch0 := by decide +kernel
theorem meets_rkmerge : RkmergePre none (.rkmerge none 88 90) listScene listWave listTeam launch0 ⟨1, 0⟩ := by decide +kernel
theorem meets_rkread : RkreadPre none (.rkread none 10 88 5) listScene listWave listTeam launch0 := by decide +kernel

/-! ### Transactions -/

theorem meets_txend : TxendPre none (.txend none) (scene txWave) txWave team0 launch0 ⟨64, 0, 0, 1, [], [.glob 0], [], [], 0, []⟩ := by decide +kernel
theorem meets_retry : LeavePre none (.retry none) (scene txWave) txWave team0 launch0 ⟨64, 0, 0, 1, [], [.glob 0], [], [], 0, []⟩ := by
  decide +kernel
theorem meets_txabort : LeavePre none (.txabort none) (scene txWave) txWave team0 launch0 ⟨64, 0, 0, 1, [], [.glob 0], [], [], 0, []⟩ := by
  decide +kernel

/-! ### Commands -/

/-- An EX of member `m` (R84). -/
def exMember (m : Nat) : Ex := ⟨false, 0, BitVec.ofNat 21 (m * 2 ^ 13)⟩
/-- A wave whose k4 upward hold descriptor words. -/
def descWave (ws : List Nat) : Wave := { wave0 with k := List.replicate 4 0 ++ ws.map (BitVec.ofNat 32) ++ List.replicate (20 - ws.length) 0 }
/-- Each command with a legal descriptor (R231 to R257). -/
def commands : List (Instr × List Nat) := [
  (.copy none 12 116 92 116, [0x20000, 0, 0x101]), (.copyx (exMember 1) 2 88 92 8, [0x100000, 0, 0x120]),
  (.gath (exMember 2) 12 116 92 8, [0, 0, 128, 0, 0x801]), (.scatx (exMember 3) 12 116 92 8, [0, 0, 128, 0, 0x801]),
  (.mma none 3 88 92, [0x401B, 0, 0x400, 0, 0, 0]), (.mmab (exMember 1) 12 116 92, [0x405B, 0]), (.mmas (exMember 2) 12 116 92, [0x401B, 0, 0x400, 0, 0x1000, 0x2000, 0, 0]),
  (.attn none 12 116 92 116, [0, 0x2581, 0, 0, 1, 0, 0, 0]), (.attnfin (exMember 1) 12 116 92, [0, 0x81, 0]), (.fold (exMember 2) 12 116 92, [0, 0x80, 0x481, 0x100, 0]),
  (.disp none 12 116 92 8, [0, 64, 0]), (.axedit (exMember 1) 12 116 92, [0x00110003, 16, 16, 0, 0]), (.axsync (exMember 2) 12 116 92, [0]),
  (.launch (exMember 3) 12 116 92, [0, 0])]
theorem meets_commands : commands.all (fun p => (engineRule p.1).any (fun x =>
    decide (CommandPre x p.1 (scene (descWave p.2)) (descWave p.2) team0 launch0))) = true := by decide +kernel
theorem meets_qfence : QfencePre none (.qfence none 3 7) s0 wave0 team0 launch0 := by decide +kernel

/-! ### Tensor elements -/

/-- The 128 bytes of an object of one axis of 64 elements of 4 bytes, from 0x4000 (R295). -/
def tensorBytes : List Byte := toBytes 8 0x4000 ++ toBytes 8 0 ++ toBytes 4 64 ++ toBytes 4 4 ++ toBytes 2 0 ++ toBytes 1 0 ++ toBytes 1 1 ++
  List.replicate 100 0
/-- A team whose context has four handles. -/
def tensorTeam : Team := { team0 with segs := { probeSegs with ttcount := 4 } }
/-- The scene with that object in its core's cache under handle 0. -/
def tensorScene (w : Wave) : State := { scene w with teams := [tensorTeam], cores := [{ probeCore 0 with objs := [(0, 0, tensorBytes)] }] }
theorem meets_ldt : TensorPre none false (.ldt none 0 10 88 6) (tensorScene wave0) wave0 tensorTeam launch0 := by decide +kernel
theorem meets_stt : TensorPre none true (.stt none 0 10 88 6) (tensorScene wave0) wave0 tensorTeam launch0 := by decide +kernel

/-! ### Traps -/

/-- Words that are illegal (R88). -/
def illegals : List Instr := [.unassignedMajor 0x02000000, .unassignedMajor (mkWord 0x7E 0 0 0 0), .reservedFnValue none (mkWord 0x3A 5 1 1 1),
  .exMisuse (mkWord 0x7F 0 0 0 0) (mkWord 0x01 0 0 0 0)]
/-- A launch whose kernel has a handler at 0x100 with its frames from 0x8000 (R107). -/
def handled : Launch := { launch0 with kernel := { launch0.kernel with hEntry := some 0x100, hParam := 0x8000 } }
def handledScene (w : Wave) : State := { scene w with launches := [handled] }
theorem meets_illegal : illegals.all (fun i => (illegal88 i).any (fun c => decide (AtIssue s0 wave0 team0 launch0 ∧ Takeable s0 wave0 team0 launch0 c.1) &&
    decide (AtIssue (handledScene wave0) wave0 team0 handled ∧ Takeable (handledScene wave0) wave0 team0 handled c.1) &&
    host332 launch0 wave0 c.1 && !(host332 handled wave0 c.1) && (frame333 (handledScene wave0) handled team0 wave0).isSome)) = true := by
  decide +kernel
/-- Words that fail a check: a reserved EX type, a vector register where k is needed, handler only, a CSR that cannot be written, a
reserved operand value. -/
def unchecked : List Instr := [.iadd (exTyped 9) false .s32 4 6 8, .ldt none 0 10 4 6, .rqdrop none 0, .csrw none 88 0,
  .reservedOperandValue none (mkWord 0x09 0 4 124 7), .exit (exTyped 1), .halt (exTyped 1) 0]
theorem meets_word_checks : unchecked.all (fun i => (waveCheck wave0 (exAt i) (wordOf i)).any (fun c =>
    decide (issues87 i = true ∧ AtIssue s0 wave0 team0 launch0 ∧ lives87 wave0 i = true ∧ Takeable s0 wave0 team0 launch0 c.1))) = true := by decide +kernel
theorem meets_csrw : (Instr.csrw none 88 0).wf = true ∧ (Instr.reservedOperandValue none (mkWord 0x09 0 4 124 7)).wf = true := by decide +kernel
theorem meets_misuse : issues87 (.acq none 10 88) = true ∧ AtIssue (scene txWave) txWave team0 launch0 ∧
    waveCheck txWave (exAt (.acq none 10 88)) (wordOf (.acq none 10 88)) = none ∧ txWave.tx.isSome = true ∧ txWave.active (exAt (.acq none 10 88)) ≠ 0 ∧ lives87 txWave (.acq none 10 88) = true ∧
    txAllowed (wordOf (.acq none 10 88)).maj (wordOf (.acq none 10 88)).fn = false ∧ Takeable (scene txWave) txWave team0 launch0 0x0A := by
  decide +kernel
theorem meets_codes : [Instr.trap none 5, .bkpt none 0].all (fun i => (code329 i).any (fun c =>
    decide (WavePre c.1 i s0 wave0 team0 launch0 ∧ Takeable s0 wave0 team0 launch0 c.2.1) &&
    decide (WavePre c.1 i (handledScene wave0) wave0 team0 handled ∧ Takeable (handledScene wave0) wave0 team0 handled c.2.1) &&
    host332 launch0 wave0 c.2.1 && !host332 handled wave0 c.2.1)) = true := by decide +kernel

/-! ### In a handler -/

/-- A wave in a handler whose frame is at 0x8000. -/
def handlerWave : Wave := { wave0 with handler := some ⟨0x8000, 0xFFFFFFFF, 0xFFFFFFFF, false⟩ }
/-- A frame of one entry: an ATOMG of all lanes with destination v10, performed (R335, R336). -/
def handlerScene (stat : Nat) : State := withMem handlerWave [(0x8028, 4, 1), (0x8200, 4, (mkWord 0x68 0 10 4 6).toNat), (0x8208, 4, 0xFFFFFFFF),
  (0x820C, 4, stat)]
theorem meets_rqdrop : HandlerPre none (.rqdrop none 0) (handlerScene 2) handlerWave team0 launch0 ⟨0x8000, 0xFFFFFFFF, 0xFFFFFFFF, false⟩ 0x8000 ∧
    0 < valid336 (handlerScene 2) 0x8000 := by decide +kernel
theorem meets_replay : ReplayPre none 0 (handlerScene 2) handlerWave team0 launch0 ⟨0x8000, 0xFFFFFFFF, 0xFFFFFFFF, false⟩ 0x8000 := by decide +kernel
theorem meets_tret : TretPre none (handlerScene 2) handlerWave team0 launch0 ⟨0x8000, 0xFFFFFFFF, 0xFFFFFFFF, false⟩ 0x8000 ∧
    running262 none handlerWave ⟨0x8000, 0xFFFFFFFF, 0xFFFFFFFF, false⟩ = 0 := by decide +kernel
theorem meets_tret_waiting : TretPre (some ⟨false, 1, 0⟩) (withMem { handlerWave with preds := setFile 0 wave0.preds 1 0xFFFF } [])
    { handlerWave with preds := setFile 0 wave0.preds 1 0xFFFF } team0 launch0 ⟨0x8000, 0xFFFFFFFF, 0xFFFFFFFF, false⟩ 0x8000 ∧
    running262 (some ⟨false, 1, 0⟩) { handlerWave with preds := setFile 0 wave0.preds 1 0xFFFF } ⟨0x8000, 0xFFFFFFFF, 0xFFFFFFFF, false⟩ ≠ 0 := by
  decide +kernel
theorem meets_halt : HaltPre none (.halt none 7) s0 wave0 team0 launch0 := by decide +kernel
theorem meets_handler_only : [Instr.tret none, .replay none 0, .rqdrop none 0].all (fun i => handlerOnly259 i && decide (i.wf = true ∧ AtIssue s0 wave0 team0 launch0 ∧
    wave0.exec ≠ 0 ∧ wave0.handler = none ∧ Takeable s0 wave0 team0 launch0 1)) = true := by decide +kernel

/-! ### Events of the scheduler and of the engines -/

/-- The scene at a time of its own. -/
def sceneAt (w : Wave) (time : Nat) : State := { scene w with time := time }
theorem meets_boost : (sceneAt wave0 256).stuck = none ∧ (sceneAt wave0 256).wave? wave0.ref = some wave0 ∧
    (sceneAt wave0 256).waveReady wave0 = true ∧ wave0.readyAt + 256 ≤ (sceneAt wave0 256).time := by decide +kernel
/-- A wave that has let others go first. -/
def yielder : Wave := { wave0 with yielded := some [] }
theorem meets_yield_expiry : (sceneAt yielder 64).wave? yielder.ref = some yielder ∧ yielder.yielded.isSome = true ∧
    yielder.yieldAt + 64 ≤ (sceneAt yielder 64).time := by decide +kernel
/-- A wave in per-item fallback: its lower half stands at 0, its upper half at 8, and the lower has issued 1,024 times. -/
def splitWave : Wave := { wave0 with pcs := List.replicate 16 0 ++ List.replicate 16 8, groupIssues := 1024 }
theorem meets_rotation : splitWave.fallback = true ∧ free150 (scene splitWave) splitWave team0 launch0 = List.replicate 16 0 ++ List.replicate 16 8 ∧
    (scene splitWave).wave? splitWave.ref = some splitWave ∧ Next150 splitWave (free150 (scene splitWave) splitWave team0 launch0) 8 := by decide +kernel
/-- A wave asleep. -/
def sleeper : Wave := { wave0 with status := .asleep, wake := [.glob 0] }
theorem meets_wake : (scene sleeper).stuck = none ∧ (woken195 sleeper).txCause = 4 := by decide +kernel

/-- A command of the scene's wave in its stream. -/
def cmdOf (i : Instr) (x : Option Ex) (ws : List Nat) (st : CmdState) (pred : Option (Queue × Nat)) (done : Done) : Cmd :=
  { seq := 1, wave := some wave0.ref, word := wordOf i, exw := (x.map Ex.word).getD 0, ops := ws.map (BitVec.ofNat 32), mask := 0xFFFFFFFF,
    b0 := [], b1 := [], done := done, state := st, pred := pred, progress := 0, pins := [], join := none }
/-- The scene with one command in a stream. -/
def cmdScene (q : StreamRef) (c : Cmd) (more : List Stream) : State :=
  { s0 with time := 10 ^ 6, streams := ⟨q, 1, [c], false, none, []⟩ :: more }
/-- A stream of the scene's team. -/
def ofTeam (q : Queue) : StreamRef := .team team0.ref q
/-- A COPY of one row of 128 bytes from scratchpad 0 to scratchpad 256, its flag 3 (R231). -/
def copyCmd (st : CmdState) (pred : Option (Queue × Nat)) (done : Done) : Cmd :=
  cmdOf (.copy none 3 116 92 116) none [0x20000, 0, 0x101] st pred done

theorem meets_start_pred : Front (cmdScene (ofTeam .copy) (copyCmd .held (some (.attn, 1)) (.flag 3)) [⟨ofTeam .attn, 1, [], true, none, [1]⟩]) (ofTeam .copy)
      (copyCmd .held (some (.attn, 1)) (.flag 3)) team0 launch0 ∧
    (cmdScene (ofTeam .copy) (copyCmd .held (some (.attn, 1)) (.flag 3)) [⟨ofTeam .attn, 1, [], true, none, [1]⟩]).predOf
      (copyCmd .held (some (.attn, 1)) (.flag 3)) = some false := by decide +kernel
/-- An AXSYNC of the context's axis stream (R258). -/
def axsyncCmd : Cmd := cmdOf (.axsync (exMember 2) 3 116 92) (some (exMember 2)) [0] .queued none (.flag 3)
theorem meets_start_axsync : Front (cmdScene (.ctx 0 0) axsyncCmd []) (.ctx 0 0) axsyncCmd team0 launch0 ∧ axsyncCmd.state.waits = true ∧
    (cmdScene (.ctx 0 0) axsyncCmd []).predOf axsyncCmd = some true ∧ (engine223 (cmdScene (.ctx 0 0) axsyncCmd []) axsyncCmd team0 launch0).behind = false ∧ axsyncCmd.is 0x7B 2 = true := by decide +kernel
theorem meets_start : let c := copyCmd .queued none (.flag 3)
    let s := cmdScene (ofTeam .copy) c []
    let r := (engine223 s c team0 launch0).payload
    Front s (ofTeam .copy) c team0 launch0 ∧ c.state.waits = true ∧ s.predOf c = some true ∧ (engine223 s c team0 launch0).behind = false ∧
    (c.is 0x7B 0 && (engine223 s c team0 launch0).dispWaits) = false ∧ r.s.stuck = none ∧ (stream218 r.s (ofTeam .copy)).ref = ofTeam .copy ∧
    (r.s.streams.any (fun m => m.ref == ofTeam .copy)) = true := by decide +kernel

/-- Completions of each kind (R75), with a word of another node and a word whose segment check fails. -/
def dones : List Done := [.flag 3, .ws 64 7, .wsa 64 7, .wc 64 7, .wg 0x4000 7, .wg 0x0100000000004000 7, .wg 0x00F0000000004000 7, .none]
theorem meets_complete : dones.all (fun d => let c := copyCmd (.started 0) none d
    let s := cmdScene (ofTeam .copy) c []
    decide (Front s (ofTeam .copy) c team0 launch0 ∧ Alone s (ofTeam .copy) team0 ∧ c.is 0x7A 0 = false ∧
      (c.is 0x7B 1 && waits306 s c team0 launch0) = false ∧ home76 s team0 c.done = true)) = true := by decide +kernel
theorem meets_fail : let c := copyCmd (.started 7) none (.flag 3)
    let s := cmdScene (ofTeam .copy) c []
    Front s (ofTeam .copy) c team0 launch0 ∧ Alone s (ofTeam .copy) team0 := by decide +kernel

/-- A shoot-down of handle 0, axis 0 for the scene's core. -/
def shoot0 (arrived : Bool) : Shoot := ⟨0, 0, 0, .ctx 0 0, 0, 0, arrived⟩
theorem meets_shoot_down : { s0 with shoots := [shoot0 false] }.shoots[0]? = some (shoot0 false) := by decide +kernel
theorem meets_shoot_acknowledge : { s0 with shoots := [shoot0 true] }.shoots[0]? = some (shoot0 true) ∧
    { s0 with shoots := [shoot0 true] }.coreBusy 0 0 0 = false := by decide +kernel
/-- An AXEDIT whose payload has been performed, of handle 0 and axis 0. -/
def editDone : Cmd := cmdOf (.axedit (exMember 1) 3 116 92) (some (exMember 1)) [0] (.started 0) none (.flag 3)
theorem meets_edit_waits : let s := { cmdScene (.ctx 0 0) editDone [] with shoots := [shoot0 false] }
    Front s (.ctx 0 0) editDone team0 launch0 ∧ Alone s (.ctx 0 0) team0 ∧ editDone.is 0x7B 1 = true ∧ waits306 s editDone team0 launch0 = true := by
  decide +kernel

/-- A DISP of generation 5, which the context has retired at time 0. -/
def dispCmd : Cmd := cmdOf (.disp none 3 116 92 8) none [0, 64, 5] .queued none (.flag 3)
def dispNode : Node := { Node.reset 0 with booted := true, geners := [⟨0, 6, [(5, 0)]⟩] }
theorem meets_retire : let s := { cmdScene (ofTeam .disp) dispCmd [] with nodes := [dispNode], time := lifetime }
    RetireStart s (ofTeam .disp) dispCmd team0 launch0 dispNode := by decide +kernel

/-! ### Launching, placing and waiting -/

/-- Words of memory: (address, bytes, value). -/
def put (m : Memory) (ws : List (Nat × Nat × Nat)) : Memory := ws.foldl (fun m p => m.writeN p.1 (toBytes p.2.1 p.2.2)) m
/-- The RCB of a root region (R266) at `a`: CTRL, queue head at 0x3000, segments at 0x2000, 8 cores, SLICE 1,000, WAITB 50. -/
def rcbAt (a ctrl : Nat) : List (Nat × Nat × Nat) := [(a + 8, 4, 0x1FF), (a + 12, 4, ctrl), (a + 16, 4, 8), (a + 24, 8, 2 ^ 30), (a + 32, 8, 1000),
  (a + 40, 8, 50), (a + 48, 8, 0x2000), (a + 56, 8, 0x3000)]
/-- A segment table of one segment over the first 2^40 bytes, with every right (R293). -/
def segAt (a : Nat) : List (Nat × Nat × Nat) := [(a + 8, 8, 2 ^ 40 + 15 * 2 ^ 56)]
/-- A launch record at 0x4000 (R269): 100 by 2 items under the region of RCB 0x1000, with flags. -/
def record0 (flags : Nat) : List (Nat × Nat × Nat) := [(0x4008, 8, 0x1000), (0x4010, 8, 0x7000), (0x4018, 4, 100), (0x401C, 4, 2), (0x4020, 4, 1),
  (0x4024, 4, flags), (0x4030, 8, 0x6000), (0x4038, 4, 8), (0x403C, 4, 7), (0x4040, 8, 0x6100)]
/-- A context of the region of RCB 0x1000. -/
def ctx0 : Ctx := { node := 0, ccn := 1, rcb := 0x1000, deficit := [0, 0, 0, 0], held := none, waits := [(0x1000, 60)], reported := [], watch := 0 }
/-- A kernel of one wave per team, 48 registers. -/
def kernel1 : Kernel := { probeKernel with krec := 0x7000, quota := 48, scr := 128, sync := 0, acm := 0, split := 4 }
/-- Its kernel record (R102). -/
def kernelRec (split : Nat) : List (Nat × Nat × Nat) := [(0x7008, 2, 48), (0x700A, 2, 32), (0x700C, 2, 1), (0x700E, 2, 1), (0x7010, 4, 128),
  (0x701C, 1, split)]
/-- A node whose context 1 has its peer entry. -/
def peerNode : Node := { Node.reset 0 with booted := true, peers := [⟨1, 0x1000, true, 0, 0⟩, ⟨2, 0x1200, true, 0, 0⟩] }
/-- A machine of contexts 1 and 2, of RCBs 0x1000 and 0x1200 (FORCEPRE), whose first queue offers a record. -/
def hosted (ctrl flags : Nat) : State :=
  { State.reset with
    nodes := [peerNode], ctxs := [ctx0, { ctx0 with ccn := 2, rcb := 0x1200, waits := [] }], time := 5000, nextNum := 20
    placed := [⟨0, 0, 1, kernel1⟩]
    mem := put [] (rcbAt 0x1000 ctrl ++ rcbAt 0x1200 (2 ^ 23) ++ segAt 0x2000 ++ [(0x3000, 8, 0x4000)] ++ record0 flags ++ kernelRec 4) }
/-- The region of an RCB of a state. -/
def regionOf (s : State) (rcb : Nat) : Region := (s.region? 0 rcb).getD probeRegion
/-- The record that the machine's first context offers. -/
def rec0 (s : State) : LaunchRec := launchRecOf (s.mem.readN 0x4000 128)
/-- The segments of that machine. -/
def segs0 (s : State) : SegTable := s.segTable 0 0x2000

theorem meets_take : let s := hosted 0 0xF00
    let h := headed269 s 0x3000 0 1 0x4000 (rec0 s)
    let g := (h.region? 0 (rec0 s).rcb).getD (regionOf s 0x1000)
    TakePre s 0 1 (regionOf s 0x1000) (segs0 s) 0x3000 0x4000 (rec0 s) 0x3000 0x402C g ∧
    status270 h 0 1 0x4000 (regionOf s 0x1000).rcb (segs0 s) (rec0 s) = none ∧ kernel270 h 0 1 (segs0 s) g.world (rec0 s) = some ⟨0, 0, 1, kernel1⟩ ∧
    params270 h 0 1 (segs0 s) g.world (rec0 s) = some (toBytes 8 0) := by decide +kernel
/-- A record of which another check fails has that status: here reserved flags (5), and a record of no legal region (1). -/
theorem meets_reject : [(hosted 0 0xF08, 5), (hosted (2 ^ 4) 0xF00, 1)].all (fun p =>
    let s := p.1
    let h := headed269 s 0x3000 0 1 0x4000 (rec0 s)
    let g := (h.region? 0 (rec0 s).rcb).getD (regionOf s 0x1000)
    decide (p.2 = 5 → TakePre s 0 1 (regionOf s 0x1000) (segs0 s) 0x3000 0x4000 (rec0 s) 0x3000 0x402C g) &&
    decide (status270 h 0 1 0x4000 (regionOf s 0x1000).rcb (segs0 s) (rec0 s) = some p.2)) = true := by decide +kernel

/-- The region of an RCB of `rcbAt` as it was last read. -/
def regionLit (rcb ctrl : Nat) : Region := { rcb := rcb, ctxRcb := rcb, prio := 0, world := false, fdom := 0, modes := ctrl / 2 ^ 16 % 2 ^ 6 * 65536, forcepre := ctrl.testBit 23, cores := 8, memb := 2 ^ 30, slice := 1000, waitb := 50, extw := [] }
/-- Two launches, of the two contexts, whose kernels have different splits. -/
def launchA (ctrl : Nat) (s : State) : Launch := { probeLaunch 0 1 with ccn := 1, kernel := kernel1, region := regionLit 0x1000 ctrl, segs := segs0 s }
def launchB (s : State) : Launch := { probeLaunch 0 2 with ccn := 2, kernel := { kernel1 with split := 8 }, region := regionLit 0x1200 (2 ^ 23), segs := segs0 s }
/-- A team of the first launch on core 0, and one of the second that waits. -/
def teamA : Team := { probeTeam 0 1 with slots := [(0, 48)] }
def teamB : Team := { probeTeam 0 2 with core := none, cut := false, slots := [] }
/-- Its wave. -/
def waveA : Wave := { probeWave 1 0 with quota := 48, v := List.replicate 48 {}, rowBudget := 48 }
/-- The machine with both; only the cores `usable` work. -/
def shared (ctrl : Nat) (w : Wave) (usable : Nat) : State :=
  let s := hosted ctrl 0xF00
  { s with launches := [launchA ctrl s, launchB s], teams := [teamA, teamB], waves := [w], cores := [{ probeCore 0 with split := 4 }]
           nodes := [{ peerNode with disabled := List.replicate 4 ((List.range 170).drop usable) }] }
/-- Where the second launch's team fits. -/
def place0 : List (Nat × Nat × Nat) := ((shared 0 waveA 2).fitTeam teamB (launchB (hosted 0 0xF00)) 1).getD []
theorem meets_placement : PlacePre (shared 0 waveA 2) ⟨2, 0⟩ teamB (launchB (hosted 0 0xF00)) 1 place0 := by decide +kernel
theorem meets_deficit : let s := shared 0 waveA 1
    s.stuck = none ∧ s.ctxs.find? (fun d => d.node == 0 && d.ccn == 1 && decide (d.deficit.getD 0 0 ≤ 0)) = some ctx0 ∧ s.rival 0 0 1 = some teamB ∧
    s.tryPlace teamB.ref = none ∧ s.victims 0 0 (fun u => s.ccnOfTeam u == 1 && s.prioOf u == s.prioOf teamB) = [teamA.ref] ∧
    Preemptable s teamA (launchA 0 (hosted 0 0xF00)) ∧ ((s.preemptUnit 1 teamA.ref).tryPlace teamB.ref).any (fun s2 => s2.stuck.isNone) = true := by
  decide +kernel
theorem meets_force : let s := shared 0 waveA 1
    let l := launchB (hosted 0 0xF00)
    s.team? ⟨2, 0⟩ = some teamB ∧ s.launch? 2 = some l ∧ l.region.forcepre = true ∧ s.waiting teamB = true ∧ teamB.waitSince + l.region.slice ≤ s.time ∧
    s.tryPlace ⟨2, 0⟩ = none ∧ s.forceCore teamB l = some 0 ∧ s.teamsOn l.node l.die 0 = [teamA] ∧ Preemptable s teamA (launchA 0 (hosted 0 0xF00)) ∧
    ((s.preemptUnit 2 teamA.ref).tryPlace ⟨2, 0⟩).any (fun s2 => s2.stuck.isNone) = true := by decide +kernel
/-- A sleeping wave of the first launch. -/
def sleeperA : Wave := { waveA with status := .asleep, wake := [.glob 0x6000] }
/-- The machine with only that team, whose region waits. -/
def waitingScene (ctrl : Nat) : State := { shared ctrl sleeperA 2 with teams := [teamA] }
theorem meets_budget_record : BudgetPre (waitingScene (2 ^ 20)) 0 0x1000 (regionLit 0x1000 (2 ^ 20)) ctx0 ∧
    (regionLit 0x1000 (2 ^ 20)).modes.testBit 20 = true ∧ ctx0.reported.contains 0x1000 = false := by decide +kernel
theorem meets_budget_snapshot : BudgetPre (waitingScene 0) 0 0x1000 (regionLit 0x1000 0) ctx0 ∧
    (regionLit 0x1000 0).modes.testBit 20 = false ∧ ((waitingScene 0).waves.all (fun w => !(waitingScene 0).updating w.ref)) = true ∧
    ((waitingScene 0).saves.all (fun v => decide (v.num < (waitingScene 0).nextNum))) = true := by decide +kernel

/-! ### Between nodes -/

/-- A node address of node 1. -/
def far (a : Nat) : Nat := 2 ^ 52 + a
/-- A ring of 4 slots of 128 bytes at 0x9000 whose descriptor is at 0x8000 of node 1: RESERVED and so on as given, slot states `st`. -/
def farRing (rsv credit st : Nat) : List (Nat × Nat × Nat) := [(far 0x8000, 8, 0x9000), (far 0x8008, 4, 0x207), (far 0x8010, 4, rsv), (far 0x8014, 4, credit),
  (far 0x9200, 1, st)]
/-- The memory of node 1: a region at 0x1000 with its segments, and the ring. -/
def farMem (ring : List (Nat × Nat × Nat)) : Memory :=
  put [] ((rcbAt 0x1000 0 ++ segAt 0x2000).map (fun p => (far p.1, p.2)) ++ rcbAt 0x1000 0 ++ segAt 0x2000 ++ ring)
/-- A wave with an entry that waits for answers. -/
def asking : Wave := { wave0 with pend := [⟨4, 0, 0, 0xFFFFFFFF, false, List.replicate 32 3, .none, .none, .none, [(4, {}), (5, {})], 32, 60⟩] }
/-- A request packet from node 0 to node 1 for lane 0 of that entry. -/
def request (op : RemoteOp) (addr : Nat) : Packet :=
  { num := 30, stream := ⟨.request, 0, 0, 1⟩, addr := BitVec.ofNat 64 (2 ^ 56 + addr), ccn := 1, world := false, time := 0, wave := some wave0.ref, pend := 4,
    op := some op, tokens := [], rcb := 0x1000, fdom := 1 }
/-- Two nodes with one packet between them. -/
def pair (p : Packet) (ring : List (Nat × Nat × Nat)) : State :=
  { scene asking with
    mem := farMem ring, packets := [p]
    nodes := [{ Node.reset 0 with booted := true }, { Node.reset 1 with booted := true, peers := [⟨1, 0x1000, true, 0xFFFF, 0xFFFF⟩] }] }
/-- The same with a packet that names another context, of which node 1 has no peer entry. -/
def stranger (p : Packet) : Packet := { p with ccn := 2 }

theorem meets_remote_load : let p := request (.load 0 4 4 0) 0x5000
    Deliverable (pair p []) p (.load 0 4 4 0) ∧ Single (pair p []) p ∧ bytes162 0 = 4 ∧ key361 (pair p []) p 4 .read = some (far 0x5000) ∧
    present (globBytes (far 0x5000) 4) = true := by decide +kernel
theorem meets_remote_store : [RemoteOp.store (toBytes 4 7) 60, .poison (toBytes 4 7), .word 7 5].all (fun op => let p := request op 0x5000
    decide (Deliverable (pair p []) p op ∧ Single (pair p []) p ∧ key361 (pair p []) p 4 .write = some (far 0x5000) ∧
      present (globBytes (far 0x5000) 4) = true)) = true := by decide +kernel
theorem meets_remote_atomic : let w := mkWord 0x68 0 10 4 6
    let p := request (.atomic 0 4 w 0 3 0) 0x5000
    Deliverable (pair p []) p (.atomic 0 4 w 0 3 0) ∧ Single (pair p []) p ∧ update175 w 0 = true ∧ key361 (pair p []) p 4 .rmw = some (far 0x5000) ∧
    bytes162 (exTy (ex361 0)) = 4 ∧ present (globBytes (far 0x5000) 4) = true ∧ poisoned (pair p []) (globBytes (far 0x5000) 4) = false := by decide +kernel
/-- The ring at node 1. -/
def ring1 : RingAt := ⟨far 0x8000, far 0x9200, 2⟩
theorem meets_remote_ring : [0, 1, 2, 3].all (fun op =>
    let p := request (.ring 0 4 op 0) 0x8000
    let s := pair p (farRing 0 4 0)
    decide (Deliverable s p (.ring 0 4 op 0) ∧ Single s p ∧ key361 s p 256 .rmw = some (far 0x8000) ∧ (s.ringAt (s.targetRes p) (far 0x8000)).toOption = some ring1 ∧
      present (ringBytes ring1) = true ∧ poisoned s (ringBytes ring1) = false ∧ ring1.desc + 256 ≤ ring1.states)) = true := by decide +kernel
/-- Two updates of one instruction, of lanes 0 and 1. -/
def mate (num lane : Nat) : Packet := { request (.atomic lane 4 (mkWord 0x68 0 10 4 6) 0 3 0) 0x5000 with num := num }
/-- The two nodes with both. -/
def matesScene : State := { pair (mate 30 0) [] with packets := [mate 30 0, mate 31 1] }
theorem meets_mates : let s := matesScene
    Deliverable s (mate 30 0) (.atomic 0 4 (mkWord 0x68 0 10 4 6) 0 3 0) ∧ stream357 s (mate 30 0) = [mate 30 0, mate 31 1] ∧ mates319 (mate 30 0) (mate 31 1) = true ∧
    (s.packets.countP (· == mate 30 0)) = 1 ∧ s.time ≤ (mate 31 1).time + lifetime ∧
    let sq := { s with packets := s.packets.filter (fun u => u.num != 31) }
    goesOn (.remoteAccess (.packet 30)) sq = true ∧
    goesOn (.remoteAccess (.packet 31)) { afterExec (.remoteAccess (.packet 30)) sq with packets := delivered s (mate 30 0) } = true := by decide +kernel
/-- Requests of each kind that a context without a peer entry sends (R361, R362). -/
def refusedOps : List RemoteOp := [.load 0 4 4 0, .atomic 0 4 (mkWord 0x68 0 10 4 6) 0 3 0, .ring 0 4 0 0, .store (toBytes 4 7) 60, .word 7 5]
theorem meets_refused : refusedOps.all (fun op => let p := stranger (request op 0x5000)
    match (pair p []).remoteKey 1 p.ccn p.world p.addr.toNat (access361 op).1 (access361 op).2 with
      | .error _ => decide (Deliverable (pair p []) p op ∧ Single (pair p []) p)
      | .ok _ => false) = true := by decide +kernel
/-- A request of each kind that a host adapter may send (R361). -/
def hostAsks : List HostReq := [⟨200, 1, 3, 1, 0x5000, .load 4⟩, ⟨192, 0, 0, 0, 0x5000, .store [1] false⟩, ⟨254, 1, 3, 1, 0x5000, .atomic 0 3 0⟩,
  ⟨200, 1, 3, 1, 0x8000, .ring 3 0⟩]
theorem meets_host_request : hostAsks.all (fun q => hostOk q && decide (s0.stuck = none)) = true := by decide +kernel

theorem meets_stream_fail : let p := request (.load 0 4 4 0) 0x5000
    LosesResults (pair p []) p.stream ∧ lost342 (pair p []) p.stream = [p] := by decide +kernel
theorem meets_lifetime_expiry : let p := request (.load 0 4 4 0) 0x5000
    let s := { pair p [] with time := lifetime + 1 }
    s.packets.find? (fun q => q.num == p.num) = some p ∧ p.time + lifetime < s.time ∧ LosesResults s p.stream := by decide +kernel

/-- A trap record of domain 1. -/
def record1 : Record := ⟨1, 0x0F, 0x1000, 0, 0, 0, 0, 0, 0, 0⟩
/-- A node with that record and a ring for domain 1. -/
def recordNode (ring : Nat) : Node := { Node.reset 0 with booted := true, records := [(1, record1)], fdoms := [(1, ring)] }
/-- Its machine; the ring's descriptor is at 0x8000 of node 0, and `credit` slots are free. -/
def recordScene (ring credit : Nat) : State :=
  { s0 with
    nodes := [recordNode ring]
    mem := put [] (rcbAt 0x1000 0 ++ segAt 0x2000 ++ [(0x8000, 8, 0x9000), (0x8008, 4, 0x207), (0x8010, 4, 4 - credit), (0x8014, 4, credit)]) }
theorem meets_record_lost : (recordScene 0 4).node? 0 = some (recordNode 0) ∧ FirstRecord (recordNode 0) 1 record1 [] [] ∧ Unawaited (recordScene 0 4) record1 ∧
    (((recordNode 0).fdoms.find? (fun p => p.1 == 1)).map Prod.snd).getD 0 = 0 := by decide +kernel
/-- A ring with a free slot, and a ring that is full. -/
theorem meets_record_placed : [(4, 0x9000), (0, 0x9000)].all (fun q =>
    let s := recordScene 0x8000 q.1
    let g : RingAt := ⟨0x8000, 0x9200, 2⟩
    decide (s.node? 0 = some (recordNode 0x8000) ∧ FirstRecord (recordNode 0x8000) 1 record1 [] [] ∧ Unawaited s record1 ∧
      (recordNode 0x8000).fdoms.find? (fun p => p.1 == 1) = some (1, 0x8000) ∧ RingFor s 0 0x8000 record1 g q.2 ∧ poisoned s (ringBytes g) = false) &&
    ((act181 0 0 s.peek g).2 == 0xFFFFFFFF) == (q.1 == 0)) = true := by decide +kernel
/-- A halted stream that waits for the record, which has no ring. -/
def awaitScene : State := { recordScene 0 4 with streams := [⟨ofTeam .copy, 1, [], true, some record1, []⟩] }
theorem meets_record_awaited : awaitScene.node? 0 = some (recordNode 0) ∧ FirstRecord (recordNode 0) 1 record1 [] [] ∧ Awaited awaitScene (ofTeam .copy) record1 ∧
    goesOn (.faultRecord 0 1) { awaitScene with streams := [] } = true ∧
    (afterExec (.faultRecord 0 1) { awaitScene with streams := [] }).nodes ≠ awaitScene.nodes := by decide +kernel

/-! ### Hardware barriers and Geyser -/

/-- Two teams of one launch, of which the second arrives at a cluster's barrier 3. -/
def teamC : Team := { team0 with ref := ⟨1, 1⟩, core := some 1 }
def barrierScene (gen : Nat) : State :=
  { s0 with teams := [team0, teamC], arrivals := [⟨1, 3, barInst s0 team0 1, 1, gen, teamC.ref, 65408, 0⟩]
            barriers := [⟨1, 3, barInst s0 team0 1, 1, 7, [(team0.ref, 65408)], false, [], 0⟩] }
/-- The arrival of its generation, which completes the phase, and a stale one. -/
theorem meets_arrivals : [7, 6].all (fun g => ((barrierScene g).arrivals[0]?).any (fun a => decide ((barrier204 (barrierScene g) a).gen = 7 ∧
    Arrives (barrierScene g) 0 a) && a.gen == g && ((counted204 (barrierScene g) a).any (fun b => b.releasing)))) = true := by decide +kernel
/-- A barrier of whose window generation 7 has gone at time 0. -/
def retiredScene : State := { barrierScene 7 with barriers := [⟨1, 3, barInst s0 team0 1, 1, 7, [(team0.ref, 65408)], false, [(7, 0)], 0⟩] }
theorem meets_arrival_waits : (retiredScene.arrivals[0]?).any (fun a => waits369 retiredScene a) = true := by decide +kernel
/-- Teams of nodes 0 and 1 at a caldera barrier, whose arrivals meet at node 0; the second's is under way, sent at time 0. -/
def farTeam : Team := { teamC with node := 1, core := some 0 }
def calderaScene (time : Nat) (dead : List FabStream) : State :=
  { s0 with teams := [team0, farTeam], arrivals := [⟨4, 3, barInst s0 team0 4, 1, 7, farTeam.ref, 65408, 0⟩], time := time, deadStreams := dead
            barriers := [⟨4, 3, barInst s0 team0 4, 1, 7, [(team0.ref, 65408)], false, [], 0⟩] }
/-- The stream of its requests. -/
def arriving : FabStream := ⟨.request, 1, 0, 0⟩
theorem meets_arrival_stream : let live := calderaScene 5 []
    let dead := calderaScene 5 [arriving]
    let late := calderaScene (lifetime + 1) []
    (live.arrivals[0]?).any (fun a => decide (Arrives live 0 a) && decide (arriving204 live a = some arriving)) = true ∧
    (dead.arrivals[0]?).any (fun a => decide (waits369 dead a = false ∧ arriving204 dead a = some arriving ∧ dead.time ≤ a.time + lifetime ∧
      dead.deadStreams.contains arriving = true)) = true ∧
    (late.arrivals[0]?).any (fun a => decide (waits369 late a = false ∧ arriving204 late a = some arriving ∧ a.time + lifetime < late.time ∧
      LosesResults late arriving)) = true := by decide +kernel
/-- A barrier that releases its first team. -/
def released (level : Nat) (t : Team) : HwBarrier := ⟨level, 3, 0, 1, 7, [(t.ref, 65408)], true, [], 0⟩
/-- The scene in which it does, with the next generation `gen`. -/
def releaseScene (level time gen : Nat) (t : Team) : State :=
  { s0 with teams := [t], time := time, barriers := [released level t, ⟨level, 3, 0, 1, gen, [], false, [], 0⟩] }
theorem meets_release : [8, 9].all (fun gen => let s := releaseScene 1 5 gen team0
    decide (Releases s 0 (released 1 team0) team0 65408 [] false ∧ present (phase201 s team0 65408) = true ∧
      (Current204 s 0 (released 1 team0) [] ↔ gen = 8))) = true := by decide +kernel
theorem meets_late_release : let s := { releaseScene 4 (lifetime + 1) 8 farTeam with waves := [] }
    Releases s 0 (released 4 farTeam) farTeam 65408 [] true ∧
    releasing204 s (released 4 farTeam) farTeam = some ⟨.response, 0, 0, 1⟩ ∧ LosesResults s ⟨.response, 0, 0, 1⟩ := by decide +kernel

/-- A token of some bytes for the ring of node 1. -/
def tokenOf (n : Nat) (more : Bool) : Token := ⟨0x0100000000008000, 1, false, 5, List.replicate n 7, more, 0, 0x1000, 1, 3, 4⟩
/-- A token of 100 bytes. -/
def token0 : Token := tokenOf 100 false
/-- A queue of some tokens. -/
def queueOf (ts : List Token) : SendQ := ⟨0, 1, ts, false, 0⟩
def senderNode (ts : List Token) : Node := { Node.reset 0 with booted := true, sendqs := [queueOf ts] }
/-- A receiver, that holds pieces of a token. -/
def receiverNode (fs : List Fragment) : Node :=
  { Node.reset 1 with booted := true, geners := [⟨1, 5, []⟩], peers := [⟨1, 0x1000, true, 0xFFFF, 0xFFFF⟩], frags := fs }
/-- A dispatch packet of a generation. -/
def dispatch (gen : Nat) (ts : List Token) : Packet :=
  { request (.word 0 0) 0x8000 with stream := ⟨.dispatch, 0, 0, 1⟩, wave := none, pend := gen, op := none, tokens := ts }
/-- Two nodes whose dispatch traffic is one packet. -/
def geyser (p : Packet) (rsv credit : Nat) (fs : List Fragment) : State :=
  { pair p (farRing rsv credit 0) with nodes := [senderNode [token0, token0, token0], receiverNode fs], time := 128, deliveries := [] }
theorem meets_send_queue : IdleQueue (geyser (dispatch 5 [token0]) 0 4 []) 0 0 1 (senderNode [token0, token0, token0]) (queueOf [token0, token0, token0]) ∧
    Packed367 (queueOf [token0, token0, token0]).tokens 2 := by decide +kernel
theorem meets_long_token : let s := { geyser (dispatch 5 [token0]) 0 4 [] with nodes := [senderNode [tokenOf 600 false]] }
    s.node? 0 = some (senderNode [tokenOf 600 false]) ∧ (senderNode [tokenOf 600 false]).sendq 0 1 = queueOf [tokenOf 600 false] ∧
    (queueOf [tokenOf 600 false]).since + 128 ≤ s.time ∧ (pieces367 s 0 (queueOf [tokenOf 600 false]) (tokenOf 600 false)).length = 3 := by decide +kernel
theorem meets_generations : [(65525, -16), (6, 1)].all (fun q =>
    decide (Dispatched (geyser (dispatch q.1 [token0]) 0 4 []) (dispatch q.1 [token0]) (receiverNode []) ∧
      genDelta ((receiverNode []).gener 1).cur q.1 = q.2)) = true := by decide +kernel
/-- A piece behind which another follows, the last piece of a token, and two tokens of one packet. -/
theorem meets_pieces : let p1 := dispatch 5 [tokenOf 256 true]
    let p2 := dispatch 5 [tokenOf 44 false]
    let fs : List Fragment := [⟨0, 0, List.replicate 256 7⟩]
    let p3 := dispatch 5 [token0, tokenOf 8 false]
    let s := geyser p3 0 4 []
    (Dispatched (geyser p1 0 4 []) p1 (receiverNode []) ∧ InWindow p1 (receiverNode [])) ∧
    (Dispatched (geyser p2 0 4 fs) p2 (receiverNode fs) ∧ InWindow p2 (receiverNode fs)) ∧
    Dispatched s p3 (receiverNode []) ∧ InWindow p3 (receiverNode []) ∧ goesOn (.dispatchPacketReceive 30) (withTokens s p3 [token0]) = true ∧
    waiting368 (afterExec (.dispatchPacketReceive 30) (withTokens s p3 [token0])).deliveries = waiting368 s.deliveries := by decide +kernel
/-- A delivery to a ring with a free slot, and to a full one; the oldest generation of the window and the current one. -/
theorem meets_delivery : [(5, 0, 4), (65526, 0, 4), (5, 4, 0)].all (fun q =>
    let p := dispatch q.1 [token0]
    let s := geyser p q.2.1 q.2.2 []
    decide (Dispatched s p (receiverNode []) ∧ InWindow p (receiverNode []) ∧ TokenRing s 1 token0 ring1 (far 0x9000)) &&
    ((delivery368 s.peek ring1 (far 0x9000) token0).2 == 0xFFFFFFFF) == (q.2.2 == 0)) = true := by decide +kernel
/-- A token of a context without a peer entry, and one that is longer than the slots of its ring. -/
theorem meets_token_dropped : let u := { token0 with ccn := 2 }
    let v := tokenOf 200 false
    let p := dispatch 5 [u]
    let q := dispatch 5 [v]
    let s := geyser q 0 4 []
    (Dispatched (geyser p 0 4 []) p (receiverNode []) ∧ InWindow p (receiverNode []) ∧
      (reach368 (geyser p 0 4 []) 1 u u.ring.toNat 256).toOption = none) ∧
    Dispatched s q (receiverNode []) ∧ InWindow q (receiverNode []) ∧ (reach368 s 1 v v.ring.toNat 256).toOption = some (far 0x8000) ∧
    (s.ringAt (reach368 s 1 v) (far 0x8000)).toOption = some ring1 ∧ 2 ^ (s.mem.word (far 0x8000 + 8) 4 % 32) < v.payload.length ∧
    (receiverNode []).peers.find? (fun e => e.ccn == 1) = some ⟨1, 0x1000, true, 0xFFFF, 0xFFFF⟩ ∧ (s.region? 1 0x1000).isSome = true := by decide +kernel
/-- A delivery that is tried again. -/
def retryScene : State :=
  { geyser (dispatch 5 [token0]) 0 4 [] with deliveries := [⟨1, 0, 0, [token0], far 0x8000, true⟩], nodes := [senderNode [], receiverNode []] }
theorem meets_delivery_retry : retryScene.deliveries[0]? = some ⟨1, 0, 0, [token0], far 0x8000, true⟩ ∧ TokenRing retryScene 1 token0 ring1 (far 0x9000) ∧
    ((retryScene.node? 0).all (fun e => (e.sendq 0 1).tokens == [])) = true ∧ (delivery368 retryScene.peek ring1 (far 0x9000) token0).2 ≠ 0xFFFFFFFF := by
  decide +kernel

/-! ### Gangs, management, the debugger, SPDM, reset and the loader -/

/-- A gang schedule of two gangs (R351). -/
def sched0 : GangSched := ⟨100, 10000, 1000, [5, 6]⟩
/-- A node with a gang state. -/
def gangNode (prep : Option (Nat × Nat)) (at_ : Option Nat) : Node := { Node.reset 0 with booted := true, gang := ⟨some sched0, false, some 5, 1, prep, at_⟩ }
/-- The scene with that node; its launch is of gang 5 if `gang`. -/
def gangScene (d : Node) (gang : Bool) (root : Option GangRoot) : State :=
  { s0 with nodes := [d], time := 10100, gangRoot := root, launches := [if gang then { launch0 with flags := 4, gang := 5 } else launch0] }
theorem meets_boundary : [true, false].all (fun g => decide (BoundaryDue (gangScene (gangNode none none) g none) 0 (gangNode none none) sched0 1) &&
    ((gangNode none none).gang.hosted || (gangScene (gangNode none none) g none).launches.any (fun l => l.node == 0 && l.flags.testBit 2)) == g &&
    (gangScene (gangNode none none) g none).waves.all (fun w => !(gangScene (gangNode none none) g none).updating w.ref)) = true := by decide +kernel
theorem meets_gang_arrival : [none, some (⟨1, 10100, 1000, [], none⟩ : GangRoot), some ⟨1, 10100, 1000, [0], some true⟩].all (fun r =>
    decide (Prepared (gangScene (gangNode (some (1, 6)) none) true r) 0 (gangNode (some (1, 6)) none) sched0 1 6) && r.all (fun q => q.gen == 1 % 65536)) = true := by
  decide +kernel
theorem meets_gang_abort : let r : GangRoot := ⟨1, 9100, 1000, [], none⟩
    (gangScene (gangNode (some (1, 6)) none) true (some r)).gangRoot = some r ∧ r.boundary + r.grace ≤ 10100 := by decide +kernel
/-- A committed and an aborted change, with no team of the gang saved, and with one. -/
def decidedScene (b saved : Bool) : State :=
  { gangScene (gangNode (some (1, 5)) (some 1)) true (some ⟨1, 10100, 1000, [0], some b⟩) with teams := [{ team0 with saved := saved }] }
theorem meets_gang_decision : [true, false].all (fun b => let s := decidedScene b false
    decide (s.node? 0 = some (gangNode (some (1, 5)) (some 1)) ∧ s.gangRoot = some ⟨1, 10100, 1000, [0], some b⟩ ∧ NoneSaved s 0 (some 5) ∧
      NoneSaved { s with teams := discarded350 s 0 5 } 0 (gangNode (some (1, 5)) (some 1)).gang.cur)) = true := by decide +kernel
theorem meets_gang_resume : let s := decidedScene true true
    s.node? 0 = some (gangNode (some (1, 5)) (some 1)) ∧ OneSaved s 0 5 { team0 with saved := true } := by decide +kernel

/-- A management request from adapter 192 to node 0, for the region of RCB 0x1000. -/
def mgmt0 : Mgmt := ⟨0, 192, 77, 0x1000⟩
/-- The node that it reaches. -/
def node0 : Node := { Node.reset 0 with booted := true }
theorem meets_reached : Reached s0 mgmt0 node0 := by decide +kernel
/-- A halted COPY stream of the scene's team. -/
theorem meets_queue_reset : HaltedOn { s0 with streams := [⟨.team team0.ref .copy, 1, [], true, none, []⟩] } 0 (.team team0.ref .copy) team0 := by decide +kernel
/-- MEM within its limits, beyond them, and in a secure region or not. -/
theorem meets_mem : [(0x4000, 192), (0x4000, 193), (physBytes - 4, 8)].all (fun q => decide (192 < q.2 ∨ physBytes < q.1 + q.2) == !(q == (0x4000, 192))) = true := by
  decide +kernel

/-- The frame of a descheduled wave. -/
def frame0 : Frame :=
  { k22 := 5, k23 := 6, cause := 4, tpc := 64, resume := 64, tmask := 0xFF, exec := 0xFF, flags := 0, faddr := 0, txs := 0, time := 0, ldet := []
    entries := [⟨0, mkWord 0x68 0 10 4 6, 0, 0xFF, true, List.replicate 32 3, .none, .none, .none, [(10, {})], 0, 60⟩] }
/-- A wave in that state, in a team at work with another wave. -/
def descheduled : Wave := { wave0 with status := .descheduled 7 }
def second : Wave := { wave0 with ref := ⟨⟨1, 0⟩, 1⟩, part := 1 }
def descheduledScene : State := { scene descheduled with waves := [descheduled, second], saves := [⟨7, 0, some (wave0.ref, frame0), none, [], [], []⟩] }
theorem meets_descheduled : Reached descheduledScene mgmt0 node0 ∧ Descheduled descheduledScene 0 wave0.ref descheduled 7 frame0 team0 launch0 ∧
    frame0.resume % 4 = 0 ∧ frame0.entries.all kept337 = true ∧ team0.cut = true ∧
    descheduledScene.waves.any (fun v => v.ref.team == wave0.ref.team && v.ref != wave0.ref) = true ∧ team0.round = none ∧ team0.barriers = [] := by decide +kernel
theorem meets_not_descheduled : s0.wave? wave0.ref = some wave0 ∧ (match wave0.status with
    | .descheduled _ => false
    | _ => true) = true := by decide +kernel
theorem meets_context : (hosted 0 0xF00).ctxs.find? (fun c => c.node == 0 && c.ccn == 1) = some ctx0 ∧ Reached (hosted 0 0xF00) mgmt0 peerNode := by decide +kernel

/-- The scene with its wave stopped by the debugger, in the region of RCB 0x1000. -/
def stoppedWave : Wave := { wave0 with status := .stopped }
def debugScene : State := { scene stoppedWave with launches := [{ launch0 with region := { probeRegion with rcb := 0x1000 } }] }
/-- Items that the debugger reads and writes, with a value; the last is a PROD of BND that would leave the window. -/
def items : List (DebugItem × Nat × Bool) := [(.vreg wave0.ref 87 31, 7, true), (.kreg wave0.ref 23, 7, true), (.xreg wave0.ref 3 0, 7, true), (.preds wave0.ref 0, 7, true),
  (.csr wave0.ref 4 0, 88 * 256, true), (.scratch team0.ref 0, 7, true), (.acm team0.ref 0, 7, true), (.csr wave0.ref 4 0, 89 * 256, false), (.vreg wave0.ref 88 0, 7, false)]
theorem meets_debug_stop : Reached s0 mgmt0 node0 ∧ [wave0.ref].any s0.updating = false := by decide +kernel
/-- The scene while an update of its wave is under way to node 1. -/
def updatingScene : State := { s0 with packets := [request (.atomic 0 4 (mkWord 0x68 0 10 4 6) 0 3 0) 0x5000] }
theorem meets_debug_stop_waits : Reached updatingScene mgmt0 node0 ∧ [wave0.ref].any updatingScene.updating = true := by decide +kernel
theorem meets_debug_resume : Reached debugScene mgmt0 node0 ∧ (debugScene.waves.all (fun w => w.pend.isEmpty)) = true ∧ named354 debugScene mgmt0 [wave0.ref] = true := by
  decide +kernel
theorem meets_debug_items : items.all (fun q => plain354 q.1 && writable355 debugScene q.1 q.2.1 == q.2.2 &&
    (debugScene.launch? (team354 q.1).launch).any (fun l => l.node == mgmt0.node && l.region.rcb == mgmt0.rcb)) = true := by decide +kernel
theorem meets_debug_present : present (debugScene.scrLocs team0 0 65536) = true := by
  show ((List.range 65536).map (fun j => debugScene.scrLoc team0 (0 + j))).all _ = true
  simp only [List.all_map, List.all_eq_true]
  intro j _; rfl

/-- SPDM requests in order, out of order, and too long. -/
def spdmNode (stage : Nat) : Node := { node0 with spdm := ⟨some 192, stage, []⟩ }
theorem meets_spdm : ([Instr.getVersion mgmt0 [1], .getCapabilities mgmt0 [1], .getDigests mgmt0 [1], .unsupportedRequest mgmt0 [1]].all (fun i =>
    (spdm382 i (spdmNode 1)).isSome)) = true := by decide +kernel
theorem meets_spdm_long : (spdm382 (.getVersion mgmt0 (List.replicate 241 0)) (spdmNode 0)).any (fun p => p.2.2.1 == 9) = true := by decide +kernel

/-- A section record of an object (R99). -/
def sectionRec (ty off size al : Nat) : List Byte := toBytes 4 0 ++ toBytes 2 ty ++ toBytes 2 0 ++ toBytes 8 off ++ toBytes 8 size ++ toBytes 1 al ++ toBytes 7 0
/-- An object of one unstaged kernel of 16 bytes of text (R99 to R103): text, kernel records and names. -/
def ezo (magic : Nat) : List Byte :=
  let kin := toBytes 4 1 ++ toBytes 4 0 ++ toBytes 2 48 ++ toBytes 2 32 ++ toBytes 2 1 ++ toBytes 2 1 ++ toBytes 4 128 ++ toBytes 8 0 ++ toBytes 1 2 ++ toBytes 99 0
  toBytes 4 magic ++ toBytes 2 1 ++ toBytes 2 64 ++ toBytes 2 4 ++ toBytes 2 32 ++ toBytes 4 0 ++ toBytes 8 64 ++ toBytes 2 3 ++ toBytes 2 2 ++ toBytes 36 0 ++
    sectionRec 1 192 16 4 ++ sectionRec 5 208 128 7 ++ sectionRec 6 336 0 3 ++ sectionRec 7 336 3 0 ++ toBytes 4 0x9E000000 ++ toBytes 12 0 ++ kin ++ [0, 65, 0]
/-- Its request for context 1, with places. -/
def loadReq (magic : Nat) (places : List (Option Nat)) (ccn : Nat) : LoadReq := ⟨0, 0, ccn, ezo magic, places⟩
def goodPlaces : List (Option Nat) := [some 0x20000, some 0x22000, none, none]
theorem meets_loader : [loadReq 0x004F5A45 goodPlaces 1, loadReq 0x004F5A45 [none, none, none, none] 1, loadReq 0x004F5A46 goodPlaces 1].all (fun q =>
    decide (LoaderPre (hosted 0 0xF00) q ctx0 (segs0 (hosted 0 0xF00)) 8)) = true := by decide +kernel
/-- The checks of an object without placement records do not depend on the base. -/
theorem status_without_placements (node cores base : Nat) (t : SegTable) (q : LoadReq) (h : records101 q.file 9 = []) :
    status108 node cores base t q = status108 node cores 0 t q := by
  simp [status108, checks108, h]
theorem image_without_placements (node base : Nat) (t : SegTable) (d : List Nat) (q : LoadReq) (h : records101 q.file 9 = []) :
    image108 node base t d q = image108 node 0 t d q := by
  simp [image108, content108, h]
/-- Its request, which is loaded. -/
def goodLoad : LoadReq := loadReq 0x004F5A45 goodPlaces 1
theorem meets_load : (∀ base, Base105 goodLoad base → status108 0 8 base (segs0 (hosted 0 0xF00)) goodLoad = none) ∧
    (∀ base, Base105 goodLoad base → loadable108 0 (segs0 (hosted 0 0xF00)) (image108 0 base (segs0 (hosted 0 0xF00)) ((hosted 0 0xF00).disabledOf 0 0) goodLoad) = true) := by
  have h : records101 goodLoad.file 9 = [] := by decide +kernel
  refine ⟨fun base _ => ?_, fun base _ => ?_⟩
  · rw [status_without_placements _ _ _ _ _ h]; decide +kernel
  · rw [image_without_placements _ _ _ _ _ h]; decide +kernel
theorem meets_load_free : (hosted 0 0xF00).imageBusy 0 1 (text108 goodLoad (segs0 (hosted 0 0xF00))) = false := by decide +kernel
/-- The machine while a launch of the image runs. -/
def busyScene : State :=
  let s := hosted 0 0xF00
  { s with launches := [{ launchA 0 s with kernel := { kernel1 with text := text108 goodLoad (segs0 s) } }] }
theorem meets_load_waits : busyScene.imageBusy 0 1 (text108 goodLoad (segs0 (hosted 0 0xF00))) = true := by decide +kernel
/-- Objects that fail a check: no place for the text (7), and another magic (1). -/
theorem meets_load_error : [(loadReq 0x004F5A45 [none, none, none, none] 1, 7), (loadReq 0x004F5A46 goodPlaces 1, 1)].all (fun p =>
    decide (records101 p.1.file 9 = []) && status108 0 8 0 (segs0 (hosted 0 0xF00)) p.1 == some p.2) = true := by decide +kernel
theorem meets_no_context : (hosted 0 0xF00).ctxs.find? (fun c => c.node == 0 && c.ccn == 9) = none := by decide +kernel

/-! ### The step, invariants, spans and MMA -/

/-- A machine whose next step fetches IADD v9, v3, v4 (log 13), and one that fetches it behind an EX. -/
def fetching : State := s0.withFetchWord 32 0x00024184
def fetchingEx : State := s0.withFetchWord 64 (0xFE100000 + 2 ^ 32 * 0x00004105)
theorem meets_step : [(fetching, Instr.iadd none false .s32 9 3 4), (fetchingEx, .iadd (some ⟨false, 0, 0x100000⟩) false .s32 1 2 5)].all (fun p =>
    match p.1.choose with
    | (s1, .issue (.wave r)) => match s1.wave? r, s1.team? r.team, s1.launch? r.team.launch with
      | some w, some t, some l => decide (w.ref = r) && (match s1.resolve t.node t.segs t.world (textAt l w) 4 .fetch with
        | .ok key => if Word.maj (BitVec.ofNat 32 (s1.mem.word key 4)) = 0x7F then
            (match s1.resolve t.node t.segs t.world ((textAt l w + 4) % 2 ^ 64) 4 .fetch with
              | .ok k4 => k4 == key + 4
              | _ => false) && decodeBytes (s1.mem.readN key 8) == some (p.2, 8) && decide (key % 2 ^ 52 + 8 ≤ physBytes)
          else decodeBytes (s1.mem.readN key 4) == some (p.2, 4) && decide (key % 2 ^ 52 + 4 ≤ physBytes)
        | _ => false)
      | _, _, _ => false
    | _ => false) = true := by decide +kernel
theorem meets_step_event : (match ({ s0 with agenda := [.wakeWithoutCause wave0.ref] } : State).choose with
    | (_, .event i) => i == .wakeWithoutCause wave0.ref
    | _ => false) = true := by decide +kernel
theorem meets_step_idle : (match State.reset.choose with
    | (s1, .idle) => s1.stuck.isNone
    | _ => false) = true := by decide +kernel
theorem meets_invariants : decide (Canonical fetching) && decide (Bounded fetching) && (match step fetching with
    | .next _ => true
    | _ => false) = true := by decide +kernel
theorem meets_memory : (Memory.writeN [] 5 [1, 0, 2]).wf = true ∧ Memory.writeN [] 5 [1, 0, 2] = [(5, 1), (7, 2)] := by decide +kernel
theorem meets_round_trip : (Instr.iadd none false .s32 9 3 4).wf = true ∧ encode (.iadd none false .s32 9 3 4) = [0x00024184] ∧
    Word.maj 0x00024184 ≠ 0x7F ∧ Word.maj 0xFE100000 = 0x7F := by decide +kernel
theorem meets_scale : e4m3.decode 0x38 = .fin false 8 (-3) := by decide +kernel

/-- A launch span of 100 items whose v4 grows with the id and whose v6 is one value. -/
def sub0 : Sub := { ids := [(0, 100)], pc := 8, v := setFile {} (List.replicate 88 {}) 4 { form := .a 5 3 .id }, x := List.replicate 4 {}, preds := List.replicate 8 [] }
def spanLaunch : Launch := { launch0 with ext := [100, 1, 1], dealt := false, subs := [sub0] }
def spanScene : State := { s0 with launches := [spanLaunch], teams := [], waves := [], cur := .launch 1 0 }
/-- Instructions that run in the span, and one that deals it or cuts it: a product of two values that vary. -/
def spanOps : List Instr := [.iadd none false .s32 10 4 6, .iadd (exImm 0) false .s32 88 6 5, .imul none false .s32 10 4 4]
theorem meets_launch_span : spanOps.all (fun i => (intRule i).any (fun r => decide (SpanPre r i spanScene spanLaunch spanLaunch.subs 0 sub0) &&
    form272 i r sub0 88 false == (i != .imul none false .s32 10 4 4))) = true := by decide +kernel
/-- Its team 1 as a team span: items 32 to 63. -/
def teamSub : Sub := { sub0 with ids := [(32, 64)] }
def spanTeam : Team := { team0 with ref := ⟨1, 1⟩, cut := false, subs := [teamSub] }
def teamScene : State := { spanScene with launches := [{ spanLaunch with dealt := true, subs := [] }], teams := [spanTeam], cur := .team ⟨1, 1⟩ 0 }
theorem meets_team_span : spanOps.all (fun i => (intRule i).any (fun r => decide (SpanPre r i teamScene { spanLaunch with dealt := true, subs := [] } spanTeam.subs 0 teamSub ∧
    teamScene.team? spanTeam.ref = some spanTeam))) = true := by decide +kernel

/-! ### Engine commands -/

/-- A Bool test on the value of an `Except`, true where there is none. -/
def okOf {α : Type} (r : Except (Nat × Nat) α) (p : α → Bool) : Bool :=
  match r with
  | .ok x => p x
  | .error _ => true
theorem okOf_ok {α : Type} {r : Except (Nat × Nat) α} {p : α → Bool} (h : okOf r p = true) : ∀ x, r = .ok x → p x = true := by
  rintro x rfl; exact h

/-- A command of the scene with its word, its EX, its operands and the lanes that it acts for. -/
def actOf (i : Instr) (x : Option Ex) (ws : List Nat) (mask : Mask) (b0 b1 : List Nat) : Cmd :=
  { cmdOf i x ws .queued none (.flag 3) with mask := mask, b0 := b0.map (BitVec.ofNat 32), b1 := b1.map (BitVec.ofNat 32) }
/-- An EX of member `m` with modifiers (R84). -/
def exMods (m f : Nat) : Ex := ⟨false, 0, BitVec.ofNat 21 (m * 2 ^ 13 + f * 2 ^ 9)⟩

/-- The matrix commands: int8 tiles of 8 by 8 of one slice, with a list at word 200 under `.rank`, and one block (R236 to R240). -/
def matrixCmds : List Cmd := [actOf (.mma none 3 88 92) none [0x402D, 0, 0x400, 0, 0, 0] 1 [] [],
  actOf (.mma (some (exMods 0 1)) 3 88 92) (some (exMods 0 1)) [0x402D, 0, 0x400, 0, 200, 7] 1 [] [],
  actOf (.mmab (exMember 1) 3 88 92) (some (exMember 1)) [0x406D, 0x800] 1 [] [],
  actOf (.mmas (exMember 2) 3 88 92) (some (exMember 2)) [0x402D, 0, 0x400, 0, 0x1000, 0x2000, 0, 0] 1 [] []]
/-- A team whose word 200 configures a list of 4 ranks with signed keys. -/
def rankTeam : Team := { team0 with acm := Memory.writeN [] 800 (toBytes 4 0x1004) }
/-- The scene with a command in a stream of a team. -/
def actScene (q : Queue) (c : Cmd) (t : Team) : State := { cmdScene (ofTeam q) c [] with teams := [t] }
theorem meets_rank : let c := matrixCmds.getD 1 axsyncCmd
    mod220 c 0 = true ∧ list239 launch0.kernel.acm 200 (acmWord (actScene .matrix c rankTeam) team0.ref 200) true = 0 := by decide +kernel
theorem meets_matrix : matrixCmds.all (fun c => decide (MatrixPre (actScene .matrix c rankTeam) (ofTeam .matrix) c rankTeam launch0)) = true := by decide +kernel

/-- The bytes of an axis (R295). -/
def axisBytes (table extent stride count gen flg : Nat) : List Byte := toBytes 8 table ++ toBytes 4 extent ++ toBytes 4 stride ++ toBytes 2 count ++ toBytes 1 gen ++ toBytes 1 flg
/-- A BF16 object of rows of 64 elements, whose rows are paged from 0x6000 (R295). -/
def pagedObject : List Byte := toBytes 8 0 ++ axisBytes 0 64 2 0 0 1 ++ axisBytes 0x5000 16 128 1 3 3 ++ List.replicate 80 0
/-- The entry of the object's rows: rows 0 to 15 from address 0x6000. -/
def pagedEntry : Nat := 16 * 2 ^ 32 + (255 * 2 ^ 40 + 0x6000) * 2 ^ 64
/-- A core with the object under handle 0 in its caches, and its scene. -/
def pagedScene (q : Queue) (c : Cmd) (t : Team) : State :=
  { actScene q c t with cores := [{ probeCore 0 with objs := [(0, 0, pagedObject)], atc := [(0, 0, 1, 3, pagedEntry)] }] }
/-- A COPY of row 2 of the object to scratchpad 256, and a COPYX of row 5 from there: column 0, row 1 (R231, R234). -/
def copyLoad : Cmd := actOf (.copy none 3 88 92 8) none [0x20000, 0x100, 0x101] 1 [0, 2] []
def copyStore : Cmd := actOf (.copyx (exMember 1) 3 88 92 8) (some (exMember 1)) [0x30000, 0x100, 0x101] 1 [5] [0, 0]
theorem meets_copy : CopyPre (pagedScene .copy copyLoad tensorTeam) (ofTeam .copy) copyLoad tensorTeam launch0 false (some pagedObject) := by decide +kernel
theorem meets_copyx : CopyPre (pagedScene .copy copyStore tensorTeam) (ofTeam .copy) copyStore tensorTeam launch0 true (some pagedObject) := by decide +kernel
theorem meets_copy_handle : CopyPre (actScene .copy copyLoad team0) (ofTeam .copy) copyLoad team0 launch0 false none := by decide +kernel
/-- Rows of 128 bytes at 0x5000 + 128 × index, gathered to or scattered from scratchpad 0x800; `cfg` adds to their configuration. -/
def rowCmd (i : Instr) (m cfg : Nat) : Cmd := actOf i (some (exMember m)) [0x5000, 0, 128, 0x800, 0x801 + cfg] 1 [3] []
def gathCmd : Cmd := rowCmd (.gath (exMember 2) 3 88 92 8) 2 0
def scatCmd (cfg : Nat) : Cmd := rowCmd (.scatx (exMember 3) 3 88 92 8) 3 cfg
theorem meets_gath : GathPre (actScene .copy gathCmd team0) (ofTeam .copy) gathCmd team0 launch0 false ∧
    Apart (moves235 (actScene .copy gathCmd team0) team0 launch0 gathCmd false) := by decide +kernel
theorem meets_scatx : GathPre (actScene .copy (scatCmd 0) team0) (ofTeam .copy) (scatCmd 0) team0 launch0 true ∧
    Apart (moves235 (actScene .copy (scatCmd 0) team0) team0 launch0 (scatCmd 0) true) := by decide +kernel
theorem meets_scatx_adds : AddPre (actScene .copy (scatCmd 0x4000) team0) (ofTeam .copy) (scatCmd 0x4000) team0 launch0 := by decide +kernel

/-- An ATTN of one row of BF16 queries over token 0 of the object, which is its K and its V (R243). -/
def attnCmd (st : CmdState) : Cmd := { actOf (.attn none 3 88 92 116) none [0, 0x2581, 0, 0, 1, 0x3F800000, 0, 0] 1 [0, 0, 0] [] with state := st }
/-- Whether what the ATTN reads of a token's units stands in the caches, and exists. -/
def unitsHeld (c : Cmd) (i : Query) : Bool :=
  let s := pagedScene .attn c tensorTeam
  let b := pagedObject
  (List.range (64 * blocks245 (attn243 c))).all (fun k => !needed245 (attn243 c) i ((attn243 c).tlo + k) ||
    (List.range (slice232 (field102 b 0 1 % 16) * 1)).all (fun u =>
      held302 s tensorTeam launch0 0 b (index243 c b ((attn243 c).tlo + k) u) &&
      okOf (reach226 s tensorTeam launch0 (address300 b (fun j => map299 s tensorTeam launch0 0 b j (index243 c b ((attn243 c).tlo + k) u j)))
        (unit232 (field102 b 0 1 % 16)) .read) present))
theorem attn_held (c : Cmd) (hl : [((attn243 c).kh, (attn243 c).dks, some pagedObject), ((attn243 c).vh, (attn243 c).dvs, some pagedObject)] =
      [(0, 1, some pagedObject), (0, 1, some pagedObject)])
    (ho : object302 (pagedScene .attn c tensorTeam) tensorTeam launch0 0 = some pagedObject)
    (hq : okOf (query243 (pagedScene .attn c tensorTeam) tensorTeam launch0 c (some pagedObject) (some pagedObject)) (fun q => unitsHeld c q.1) = true) :
    AttnHeld (pagedScene .attn c tensorTeam) tensorTeam launch0 c (some pagedObject) (some pagedObject) := by
  intro p hp
  rw [hl] at hp
  obtain rfl : p = (0, 1, some pagedObject) := by simpa using hp
  refine ⟨by simp, fun b hb => ?_⟩
  obtain rfl : pagedObject = b := by simpa using hb
  refine ⟨ho, fun _ => ⟨?_, fun i kb vb h k hk hn u hu => ?_⟩⟩
  · intro j hj
    have hr : rank296 pagedObject = 2 := by decide
    have hp : paged295 pagedObject = some 1 := by decide
    rw [hr] at hj
    rw [hp]
    rcases List.mem_range.1 hj with h
    have : j = 0 ∨ j = 1 := by omega
    rcases this with rfl | rfl
    · exact .inr (.inl rfl)
    · exact .inr (.inr rfl)
  · have hh := okOf_ok hq _ h
    simp only [unitsHeld, List.all_eq_true, Bool.or_eq_true, Bool.not_eq_true'] at hh
    rcases hh k hk with h0 | h0
    · rw [hn] at h0; cases h0
    · have h1 := h0 u hu
      rw [Bool.and_eq_true] at h1
      refine ⟨h1.1, ?_⟩
      have h2 := h1.2
      revert h2
      generalize reach226 _ _ _ _ _ _ = r
      cases r <;> simp [okOf]
theorem meets_attn : AttnPre (pagedScene .attn (attnCmd .queued) tensorTeam) (ofTeam .attn) (attnCmd .queued) tensorTeam launch0 (some pagedObject) (some pagedObject) :=
  ⟨by decide +kernel, by decide +kernel, attn_held _ (by decide +kernel) (by decide +kernel) (by decide +kernel)⟩
theorem meets_attn_end : AttnEndPre (pagedScene .attn (attnCmd (.started 0)) tensorTeam) (ofTeam .attn) (attnCmd (.started 0)) tensorTeam launch0
    (some pagedObject) (some pagedObject) :=
  ⟨by decide +kernel, by decide +kernel, by decide +kernel, by decide +kernel, by decide +kernel,
    attn_held _ (by decide +kernel) (by decide +kernel) (by decide +kernel), by decide +kernel⟩
theorem meets_fin : let c := actOf (.attnfin (exMember 1) 3 88 92) (some (exMember 1)) [0, 0x1C81, 0x200] 1 [] []
    FinPre (actScene .attn c team0) (ofTeam .attn) c team0 launch0 := by decide +kernel
theorem meets_fold : let c := actOf (.fold (exMember 2) 3 88 92) (some (exMember 2)) [0, 0x80, 0x481, 0x100, 0] 1 [] []
    FoldPre (actScene .attn c team0) (ofTeam .attn) c team0 launch0 := by decide +kernel

/-- The query of that ATTN can be read. -/
theorem meets_attn_query : (match query243 (pagedScene .attn (attnCmd .queued) tensorTeam) tensorTeam launch0 (attnCmd .queued) (some pagedObject) (some pagedObject) with
    | .ok _ => true
    | .error _ => false) = true := by decide +kernel

/-- An edit of axis 1 of handle 0, whose object is at 0x20000 with its table at 0x5000: it inserts rows 16 to 19 (R305). -/
def editCmd : Cmd := actOf (.axedit (exMember 1) 3 116 92) (some (exMember 1)) [0x10000, 16, 4, 0x7000, 0xFF00] 1 [] []
def editTeam : Team := { team0 with segs := { probeSegs with ttbase := 0x20000, ttcount := 4 } }
def editScene : State :=
  { actScene .axis editCmd editTeam with
    streams := [⟨.ctx 0 0, 1, [editCmd], false, none, []⟩]
    mem := Memory.writeN (Memory.writeN [] 0x20000 pagedObject) 0x5000 (toBytes 16 pagedEntry) }
/-- Whether the object and the tables of an edit exist. -/
def tablesExist (s : State) (c : Cmd) (t : Team) (l : Launch) (x : Nat × List Byte) : Bool :=
  let tbl (n : Nat) : Except (Nat × Nat) Nat := place305 s t l (axis295 x.2 (axis305 c) 0 8) n 0
  present (globBytes x.1 128) && okOf (tbl (16 * axis295 x.2 (axis305 c) 16 2)) (fun k =>
    present (globBytes k (16 * axis295 x.2 (axis305 c) 16 2)) && (result305 s c x.2 k).all (fun r =>
      okOf (tbl (16 * r.1.length)) (fun m => present (globBytes m (16 * r.1.length)))))
theorem meets_edit : EditPre editScene (.ctx 0 0) editCmd editTeam launch0 := by
  refine ⟨by decide +kernel, by decide +kernel, fun x hx => ?_⟩
  have h := okOf_ok (r := object305 editScene editTeam launch0 editCmd) (p := tablesExist editScene editCmd editTeam launch0) (by decide +kernel) x hx
  simp only [tablesExist, Bool.and_eq_true] at h
  refine ⟨h.1, fun k hk => ?_⟩
  have h2 := okOf_ok h.2 k hk
  simp only [Bool.and_eq_true] at h2
  refine ⟨h2.1, fun r hr m hm => ?_⟩
  have h3 := h2.2
  rw [hr, Option.all_some] at h3
  exact okOf_ok h3 m hm
theorem meets_edit_inserts : (match object305 editScene editTeam launch0 editCmd with
    | .ok x => (match place305 editScene editTeam launch0 (axis295 x.2 1 0 8) 16 0 with
      | .ok k => (result305 editScene editCmd x.2 k).any (fun r => r.1.length == 2)
      | .error _ => false)
    | .error _ => false) = true := by decide +kernel

/-- A LAUNCH of the record at 0x4000, whose NEXT is not 0, to the queue of the region of RCB 0x1000 (R257). -/
def launchCmd : Cmd := actOf (.launch (exMember 3) 3 116 92) (some (exMember 3)) [0x4000, 0] 1 [] []
def launching : Launch := { launch0 with region := { probeRegion with rcb := 0x1000, ctxRcb := 0x1000 } }
def launchScene : State :=
  { actScene .disp launchCmd team0 with
    launches := [launching]
    mem := put [] (rcbAt 0x1000 0 ++ segAt 0x2000 ++ record0 0xF00 ++ [(0x4000, 8, 0x4400)]) }
/-- Whether a record lies apart from what a LAUNCH reads of the context that it names. -/
def recordApart (s : State) (t : Team) (l : Launch) (ls : List Loc) : Bool :=
  let r := launchRecOf (ls.map s.peek)
  let ctx := ctx257 s t.node r
  let apart (k n : Nat) : Bool := (globBytes (physKey t.node (k % 2 ^ 52)) n).all (fun o => !ls.contains o)
  present ls && apart ctx 128 && apart (s.rcbWord t.node ctx 0x30 8) 272 &&
    okOf (reach226 s { t with segs := s.segTable t.node (s.rcbWord t.node ctx 0x30 8) } l ((s.rcbWord t.node ctx 0x38 8 + 8) % 2 ^ 64) 8 .rmw)
      (fun m => m.all (fun o => !ls.contains o))
theorem meets_launch : LaunchPre launchScene (ofTeam .disp) launchCmd team0 launching := by
  refine ⟨by decide +kernel, by decide +kernel, by decide +kernel, fun ls hls => ?_⟩
  have h := okOf_ok (r := reach226 launchScene team0 launching (addr257 launchCmd) 128 .read) (p := recordApart launchScene team0 launching) (by decide +kernel) ls hls
  simp only [recordApart, Bool.and_eq_true] at h
  refine ⟨h.1.1.1, .inr ⟨h.1.1.2, h.1.2, fun m hm o ho => ?_⟩⟩
  have h2 := okOf_ok h.2 m hm
  have h3 := List.all_eq_true.1 h2 o ho
  simpa using h3
theorem meets_launch_appends : (launch257 launchScene team0 launching launchCmd).2.1 = 0 ∧ (launch257 launchScene team0 launching launchCmd).1.length = 3 := by
  decide +kernel

/-- A DISP of one token of 64 bytes for the routing entry at 0x6000, which names the ring of node 1 (R254, R365). -/
def tokenCmd : Cmd := actOf (.disp none 3 116 92 8) none [0, 64, 5] 1 [0] [0]
def routeNode : Node := { Node.reset 0 with booted := true, routes := [⟨0, 0, 0, 0x6000, 1⟩] }
def routeScene : State :=
  { actScene .disp tokenCmd team0 with nodes := [routeNode], mem := put [] [(0x6000, 8, 2 ^ 63 + 2 ^ 55 + 0x100)] }
theorem meets_disp : DispPre routeScene (ofTeam .disp) tokenCmd team0 launch0 routeNode := by
  refine ⟨by decide +kernel, by decide +kernel, by decide +kernel, by decide +kernel, fun i hi r hr ls hls => ?_⟩
  have h : (maskLanes tokenCmd.mask).all (fun i => routeNode.routes.all (fun r =>
      okOf (reach226 routeScene team0 launch0 ((r.addr + 8 * (tokenCmd.b0.getD i 0).toNat) % 2 ^ 64) 8 .read) present)) = true := by decide +kernel
  exact okOf_ok (List.all_eq_true.1 (List.all_eq_true.1 h i hi) r hr) ls hls


/-! ### Words and forms -/

/-- A word of each family, written bit by bit from its format (R61 to R67, R84, R85): major, fn, d, a, b; and its instruction. -/
def bitWords : List (Word × Instr) := [
  (0b0000100_0000_0001010_0000100_0000110, .imad none false .s32 10 4 6),
  (0b0010010_0001_0001100_0000101_0000111, .rol none false .n32 12 5 7),
  (0b0100011_0001_0000100_0000101_0000110, .ffma none false .rz 4 5 6),
  (0b0100110_0010_0001000_0001001_1110100, .frcp none 2 8 9),
  (0b0110001_1000_0000100_0000101_0000110, .hmul2 none true false .rn 4 5 6),
  (0b0111000_0010_0000011_0000100_0000101, .icmp none .lt 3 4 5),
  (0b0111100_1001_0001010_0000100_0000110, .sel none true 1 10 4 6),
  (0b1000000_0000_0001010_0000100_0000110, .shfl none 0 10 4 6),
  (0b1001000_0001_0001010_0000100_1110100, .sortk none 1 10 4),
  (0b1001110_0001_1110100_1110011_1110100, .ret none 115),
  (0b1010000_0010_1011000_0000100_1110100, .unif none 88 4),
  (0b1100001_0000_0001010_0000100_0000110, .lda none 0 10 4 6),
  (0b1100011_0000_0000011_1011000_1011010, .stw none 0 3 88 90),
  (0b1101001_0011_0001010_0000100_0000110, .atoms none 3 10 4 6),
  (0b1101110_0000_0001010_0000100_1110100, .rgtake none 0 10 4),
  (0b1110011_0001_0001010_1011000_1110100, .rel none 10 88),
  (0b1110100_0010_1110100_1011000_1011010, .rgdef none 88 90),
  (0b1110101_0010_0000010_0000110_0000001, .pthr none 2 6 1),
  (0b1111001_0011_1011000_1011100_1110100, .mma none 3 88 92),
  (0b1111100_0001_0000011_1110100_0000111, .qfence none 3 7),
  (0b1111101_0101_1110100_1110100_0001001, .halt none 9)]
theorem test_bit_words_decode : bitWords.all (fun p => decodeWord none p.1 == p.2) = true := by decide
/-- Instructions that no word encodes: one of each check of `Instr.wf`. -/
def illFormed : List Instr := [.imulh none false .s16 4 5 6, .iaddc none false .n8 4 5 6, .isubb none false .s8 4 5 6, .and none true .s32 4 5 6, .or none false .n16 4 5 6,
  .xor none true .n64 4 5 6, .andn none false .n8 4 5 6, .shl none true .s32 4 5 6, .shr none false .s16 4 5 6, .sar none true .s32 4 5 6, .rol none false .n16 4 5 6,
  .popc none true .s32 4 5, .clz none false .s8 4 5, .brev none true .n32 4 5, .bfx none false .n16 4 5 6, .bfi none true .s32 4 5 6, .lea none false .s64 4 5 6,
  .bpick none false .n32 4 5 6, .copy (some ⟨false, 0, 0x2000⟩) 0 88 92 116, .copyx ⟨false, 0, 0⟩ 0 88 92 8, .gath ⟨false, 0, 0x2000⟩ 0 88 92 8, .scatx ⟨false, 0, 0x4000⟩ 0 88 92 8,
  .mma (some ⟨false, 0, 0x4000⟩) 0 88 92, .mmab ⟨false, 0, 0x4000⟩ 0 88 92, .mmas ⟨false, 0, 0⟩ 0 88 92, .attn (some ⟨false, 0, 0x100000⟩) 0 88 92 116, .attnfin ⟨false, 0, 0⟩ 0 88 92,
  .fold ⟨false, 0, 0x102000⟩ 0 88 92, .disp (some ⟨false, 0, 0x6000⟩) 0 88 92 8, .axedit ⟨false, 0, 0⟩ 0 88 92, .axsync ⟨false, 0, 0⟩ 0 88 92, .launch ⟨false, 0, 0⟩ 0 88 92,
  .csrw none 88 3, .unassignedMajor 0, .reservedFnValue none 0, .reservedOperandValue none 0, .exMisuse 0 0, .swcUnknownService none 92 7]
theorem test_ill_formed_terms_are_refused : illFormed.all (fun i => !i.wf) = true := by decide
/-- R86: a word of zeros is IADD v0, v0, v0, and 0xFC000000 is illegal for good; R87: `iadd v0, v0` with register code 124 (R63). -/
theorem test_zero_word : decodeWord none 0 = .iadd none false .s32 0 0 0 := by decide
theorem test_illegal_words : decodeWord none 0xFC000000 = .unassignedMajor 0xFC000000 ∧
    (waveCheck wave0 none 0x0000407C) = some (2, 3) := by decide +kernel
/-- The host's question: bits in the table's numbering. -/
theorem test_table_words : decodeTableWord 32 0x00024184 = some (.iadd none false .s32 9 3 4) ∧
    decodeTableWord 64 (0xFE100000 + 2 ^ 32 * 0x00004105) = some (.iadd (some ⟨false, 0, 0x100000⟩) false .s32 1 2 5) := by decide +kernel

/-! ### The spec's worked cases -/

/-- What a lane of a vector register of the scene's wave holds. -/
def laneOf (s : State) (n lane : Nat) : Nat := ((s.wave? wave0.ref).map (fun w => laneVal s w 1 n lane)).getD 0
/-- The state after an LX instruction and its completion. -/
def afterLx (i : Instr) (s : State) : State := afterExec (.lxComplete wave0.ref s.nextNum) (afterExec i s)
/-- A register that holds a list of lanes. -/
def lanesOf (vs : List Nat) : Reg := { form := .m ((List.range 32).map (fun l => BitVec.ofNat 32 (vs.getD l 0))) }
/-- The scene with some vector registers. -/
def withV (rs : List (Nat × Reg)) : Wave := { wave0 with v := rs.foldl (fun v p => setFile {} v p.1 p.2) wave0.v }
/-- The wave with predicate 1 in some lanes. -/
def withP1 (w : Wave) (m : Mask) : Wave := { w with preds := setFile 0 w.preds 1 m }

/-- R116: 0xFFFFFFFF + 0 with a carry in gives 0 and a carry out. -/
theorem test_iaddc_carries : let w := { withV [(6, { form := .u 0xFFFFFFFF })] with preds := setFile 0 wave0.preds 7 1 }
    let s := afterExec (.iaddc none false .n32 4 6 8) (scene w)
    laneOf s 4 0 = 0 ∧ ((s.wave? wave0.ref).map (fun v => v.pred 7)) = some 1 := by decide +kernel
/-- R21 (worked case): a MOV under p1 makes v4 M; the other lanes keep 100 + 4 × id. -/
theorem test_masked_mov : let l := { launch0 with ext := [96, 1, 1], kernel := { launch0.kernel with shape := [96, 1, 1] } }
    let w := { withP1 (withV [(4, { form := .a 100 4 .id }), (5, { form := .u 7 })]) 0xFFFF with ref := ⟨⟨1, 0⟩, 2⟩ }
    let s := afterExec (.mov (some ⟨false, 1, 0⟩) 4 5) { scene w with launches := [l], cur := .wave ⟨⟨1, 0⟩, 2⟩ }
    (s.wave? ⟨⟨1, 0⟩, 2⟩).any (fun w => laneVal s w 1 4 15 == 7 && laneVal s w 1 4 16 == 420 && laneVal s w 1 4 31 == 480 &&
      (w.v.getD 4 {}).form.tag == 3) = true := by decide +kernel
/-- R51, R126 (worked case): `cvtq.esc.xb4 v4, v5`. -/
theorem test_cvtq_esc : let xs := [0x3F000000, 0xBF800000, 0x3E800000, 0x40400000, 0x40200000, 0, 0xBE000000, 0x3F800000, 0x3FC00000, 0xC0000000, 0x42D00000,
      0x3F400000, 0xC0400000, 0x40000000, 0x3E99999A, 0x3FA00000]
    let i := decodeWord none 0x6B010280
    let s := afterExec i (scene (withV [(5, lanesOf xs)]))
    i = .cvtq none true false .rn 4 5 0 ∧ laneOf s 4 0 = 0x400671C2 ∧ laneOf s 4 1 = 0x416F38E5 ∧ laneOf s 4 2 = 0x0000757E ∧ laneOf s 4 3 = 0 := by decide +kernel
/-- R143 (worked case): `rbal v10, v4, k2` with k2 = 0 and 32. -/
theorem test_rbal : let w (k : Word) := { withV [(4, lanesOf [20, 0, 30, 5])] with k := [0, 0, k] ++ List.replicate 21 0 }
    let a := afterLx (decodeWord none 0x8A02825A) (scene (w 0))
    let b := afterLx (decodeWord none 0x8A02825A) (scene (w 32))
    [0, 19, 20, 31].map (fun l => (laneOf a 10 l, laneOf a 11 l)) = [(0, 0), (0, 19), (2, 0), (2, 11)] ∧
    [0, 17, 18, 22, 23].map (fun l => (laneOf b 10 l, laneOf b 11 l)) = [(2, 12), (2, 29), (3, 0), (3, 4), (0xFFFFFFFF, 0)] := by decide +kernel
/-- R145 (worked case): `mrg.n32.p1 v10, v4, v6`. -/
theorem test_mrg : let s := afterLx (decodeWord (some (Ex.ofWord 0xFE202000)) 0x8E028206) (scene (withP1 (withV [(4, lanesOf [1, 4, 9, 9]), (6, lanesOf [2, 3, 10, 6])]) 0xF))
    [0, 1, 2, 3, 4, 5, 6, 31].map (laneOf s 10) = [1, 2, 3, 4, 9, 10, 0xFFFFFFFF, 0xFFFFFFFF] ∧ laneOf s 11 0 = 0xFFFFFFFF ∧
    (s.wave? wave0.ref).any (fun w => w.ord) = true := by decide +kernel
/-- R176, R177 (worked case): `atoms.maxpk v10, [v4], v6` of four lanes at 0x200. -/
theorem test_maxpk : let w := withP1 (withV [(4, { form := .u 0x200 }), (6, lanesOf [0x3F000000, 0x3F400000, 0x3F400000, 0xBF800000]),
      (7, lanesOf [7, 5, 2, 0])]) 0xF
    let s := afterLx (.atoms (some ⟨false, 1, BitVec.ofNat 21 (3 * 2 ^ 13 + 9 * 2 ^ 9)⟩) 0 10 4 6) (scene w)
    (List.range 4).map (fun l => (laneOf s 11 l, laneOf s 10 l)) =
      [(0, 0), (0xBF000000, 0xFFFFFFF8), (0xBF400000, 0xFFFFFFFA), (0xBF400000, 0xFFFFFFFD)] ∧
    (s.team? team0.ref).any (fun t => ofBytes (t.scratch.readN 0x200 8) == 0xBF400000FFFFFFFD) = true := by decide +kernel
/-- RSV, FREE, RELD, PUB and TAKE of the ring at 0x1000. -/
def ringCounters (s : State) : List Nat := [0x1010, 0x1014, 0x1018, 0x1080, 0x1084].map (fun a => s.mem.word a 4)
/-- One ring instruction of lane 0, with a slot number in v6: what it returns, and the state. -/
def ringStep (op : Nat) (slot : Nat) (s0 : State) : Nat × State :=
  let w := withP1 (withV [(4, { form := .u 0x1000 }), (6, { form := .u (BitVec.ofNat 32 slot) })]) 1
  let s : State := { s0 with waves := [w], cur := .wave w.ref }
  let x : Option Ex := some ⟨false, 1, 0⟩
  let s' := afterLx (match op with
    | 0 => .rgrsv x 0 10 4
    | 1 => .rgpub x 0 10 4 6
    | 2 => .rgtake x 0 10 4
    | _ => .rgfree x 0 10 4 6) s
  (laneOf s' 10 0, s')
/-- The operations of the trace of R182, in its order. -/
def ringTrace : List (Nat × Nat) := [(0, 0), (0, 0), (1, 1), (2, 0), (1, 0), (2, 0), (2, 0), (3, 1), (3, 0)]
/-- R180 to R182 (worked trace). -/
theorem test_ring_trace : (ringTrace.foldl (fun (q : List (Nat × List Nat) × State) p => let r := ringStep p.1 p.2 q.2
      (q.1 ++ [(r.1, ringCounters r.2)], r.2)) ([], withMem wave0 ringMem)).1 =
    [(0, [1, 3, 0, 0, 0]), (1, [2, 2, 0, 0, 0]), (0, [2, 2, 0, 0, 0]), (0xFFFFFFFF, [2, 2, 0, 0, 0]), (0, [2, 2, 0, 2, 0]), (0, [2, 2, 0, 2, 1]),
      (1, [2, 2, 0, 2, 2]), (0, [2, 2, 0, 2, 2]), (0, [2, 4, 2, 2, 2])] := by decide +kernel
/-- R208 to R216 (worked case): `rkpush k2, v4, v5` of six lanes into a list bound to slot 1. -/
theorem test_rkpush : let w := { withP1 (withV [(4, lanesOf [40, 55, 40, 70, 40, 55]), (5, lanesOf [12, 3, 7, 9, 5, 8])]) 0x3F with k := [0, 0, 0x100] ++ List.replicate 21 0 }
    let t := { team0 with acm := Memory.writeN [] 0x400 (toBytes 4 0x52004), thr := [none, some 0x100, none, none] }
    let s := afterExec (.rkpush (some ⟨false, 1, 0⟩) 0 90 4 5) { scene w with teams := [t] }
    (s.team? team0.ref).any (fun t => (List.range 12).map (fun j => t.acm.word (0x400 + 4 * j) 4) == [0x00052004, 4, 40, 0, 70, 9, 55, 3, 55, 8, 40, 5]) = true := by
  decide +kernel
/-- R299, R300 (worked address): element (5, 37) of handle 3 is at offset 0x205A of segment 1. -/
theorem test_axis_address : let entry (lo target : Nat) : List Byte := toBytes 4 lo ++ toBytes 4 16 ++ toBytes 8 target
    let axis (table extent stride count gen flg : Nat) : List Byte := toBytes 8 table ++ toBytes 4 extent ++ toBytes 4 stride ++ toBytes 2 count ++ toBytes 1 gen ++ toBytes 1 flg
    let object := toBytes 8 10 ++ axis 0 8 2 0 0 1 ++ axis 0x6000 48 16 3 3 3 ++ List.replicate 80 0
    let table := entry 0 0xFF1000001000 ++ entry 16 0xFF1000003000 ++ entry 32 0xFF1000002000
    let segs : SegTable := { probeSegs with ttbase := 0x5000, ttcount := 4 }
    let s : State := { s0 with mem := Memory.writeN (Memory.writeN [] 0x5180 object) 0x6000 table }
    ((xlatOf { team0 with segs := segs } { launch0 with segs := segs }).element s 3 (fun j => if j == 0 then 5 else 37) false).2.toOption =
      some 0xFF1000000000205A := by decide +kernel
/-- R335 (worked trap): the wave's frame slot, of core 7, partition 1, slot 3. -/
theorem test_frame_slot : slot333 { launch0 with kernel := { launch0.kernel with hParam := 0x0120000000000000 } } { team0 with core := some 7 }
    { wave0 with part := 1, slot := 3 } = 0x01200000007C0C00 := by decide +kernel
/-- R59: a wave whose program counter lies beyond its code traps at the fetch; R88: cause 1 for an illegal word, here to the host. -/
theorem test_illegal_word_is_recorded : let s := afterExec (.unassignedMajor 0xFC000000) s0
    (s.node? 0).any (fun d => d.records.any (fun r => r.2.kind == 1 && r.2.code == 1 + 256 * 4)) = true := by decide +kernel

/-! ### States that meet the hypotheses: traps of items and of values -/

/-- A wave whose v6 is poisoned in lane 3 and bears the mark of a failed world check in lane 5. -/
def markedWave : Wave := withV [(6, { form := .u 0, poison := 8, world := 32 })]
theorem meets_marked_integer : [Instr.iadd none false .s32 4 6 8, .popc none false .n64 4 6, .iabs none false .s32 4 6].all (fun i =>
    (intRule i).any (fun r => decide (r.TrapPre i (scene markedWave) markedWave team0 launch0))) = true := by decide +kernel
theorem meets_marked_float : [Instr.fadd none true .rn 4 5 6, .ffma none false .rd 4 5 6, .hmax2 none true 4 5 6].all (fun i =>
    (floatRule i).any (fun r => decide (r.TrapPre i (scene markedWave) markedWave team0 launch0))) = true := by decide +kernel
/-- A register array whose computed index is beyond the quota (R111): v[x0 + 2] with x0 = 87. -/
def arrayWave : Wave := { wave0 with x := [{ form := .u 87 }, {}, {}, {}] }
theorem meets_array_index : let i : Instr := .iadd (some ⟨false, 0, BitVec.ofNat 21 (2 * 2 ^ 7)⟩) false .s32 4 2 8
    (intRule i).any (fun r => i.wf && decide (r.TrapPre i (scene arrayWave) arrayWave team0 launch0)) = true := by decide +kernel
/-- A wave of eight registers. -/
def smallWave : Wave := { wave0 with quota := 8, v := List.replicate 8 {}, rowBudget := 8 }
theorem meets_overflow_integer : let i : Instr := .iadd none false .s32 4 6 8
    i.wf = true ∧ Issues (scene smallWave) none (wordOf i) smallWave team0 launch0 ∧ smallWave.active none ≠ 0 ∧ isK (wordOf i).d7 = false ∧
    (intRule i).any (fun r => ((Field.d, r.n) :: r.srcs.map (fun f => (f.1, f.2.1))).any (fun f => isV (f.1.of (wordOf i)) &&
      decide (smallWave.quota < smallWave.wb + f.1.of (wordOf i) + f.2))) = true ∧ Takeable (scene smallWave) smallWave team0 launch0 3 := by decide +kernel
theorem meets_overflow_float : let i : Instr := .fadd none true .rn 4 5 8
    i.wf = true ∧ Issues (scene smallWave) none (wordOf i) smallWave team0 launch0 ∧
    (floatRule i).any (fun r => ((Field.d, r.n) :: r.srcs.map (fun f => (f.1, f.2.1))).any (fun f => isV (f.1.of (wordOf i)) &&
      decide (smallWave.quota < smallWave.wb + f.1.of (wordOf i) + f.2))) = true := by decide +kernel
/-- A wave whose v4 holds 2^16, whose v7 differs between lanes, and whose k-registers hold values that no rule accepts. -/
def valueWave : Wave := { withV [(7, lanesOf [1, 2])] with k := [0, 0, 7, 0x10000, 0x10000, 0xFFFFFFFF] ++ List.replicate 18 0 }
/-- Instructions whose operand values raise a trap, with its cause and DETAIL. -/
def valueTraps : List (Instr × Nat × Nat) := [(.mrg (exFxed 0 1) 0 4 6 8, 0x0D, 3), (.rbal none 0 4 5 7, 2, 3), (.work none 0 4 91 92, 2, 8), (.work none 0 4 7 92, 2, 2),
  (.wquota none 88 90, 2, 8), (.wquota none 88 7, 2, 3), (.csrwSstat none 7, 2, 2), (.csrwBnd none 93, 2, 8)]
theorem meets_value_traps : valueTraps.all (fun p => (valueRule p.1).any (fun q => decide (ValuePre q.1 p.1 p.2.1 p.2.2 (scene valueWave) valueWave team0 launch0))) = true := by
  decide +kernel
/-- WQUOTA that names a wave that is not there. -/
def quotaWave : Wave := { wave0 with k := [1, 0, 8] ++ List.replicate 21 0 }
theorem meets_quota_violation : (valueRule (.wquota none 88 90)).any (fun q => (q.2 (scene quotaWave) quotaWave team0).any (fun c =>
    c.1 == 0x0C && decide (ValuePre q.1 (.wquota none 88 90) c.1 c.2 (scene quotaWave) quotaWave team0 launch0))) = true := by decide +kernel

/-! ### The end of a wave, a team and a launch -/

theorem meets_exit_of_a_wave : let s := { s0 with waves := [wave0, second] }
    EndPre none s wave0 team0 launch0 ∧ ¬ LastWave s wave0 := by decide +kernel
theorem meets_exit_of_a_team : let s := { s0 with teams := [team0, teamC] }
    EndPre none s wave0 team0 launch0 ∧ LastWave s wave0 ∧ Settled s team0 ∧ (∃ u ∈ s.teams, u.ref ≠ team0.ref ∧ u.ref.launch = launch0.num) := by decide +kernel
/-- A launch under the region of RCB 0x1000 whose record is at 0x4000, with a place for DONEVAL or none. -/
def finishing (done : Nat) : Launch := { launch0 with region := { probeRegion with rcb := 0x1000, ctxRcb := 0x1000 }, record := 0x4000, doneVal := 7, doneAddr := done }
def finishScene (done : Nat) : State := { s0 with launches := [finishing done], mem := put [] (rcbAt 0x1000 0 ++ segAt 0x2000) }
theorem meets_exit_of_a_launch : [0x6000, 0x00F0000000006000].all (fun done => let s := finishScene done
    let l := finishing done
    decide (EndPre none s wave0 team0 l ∧ LastWave s wave0 ∧ Settled s team0 ∧ (∀ u ∈ s.teams, u.ref.launch = l.num → u.ref = team0.ref) ∧ l.running = true ∧ l.subs = []) &&
    (match stateKey s l with
      | .ok state => decide (state % 2 ^ 52 + 4 ≤ physBytes) && (match valueKey s l state with
        | .ok k => done == 0x6000 && decide (k % 2 ^ 52 + 4 ≤ physBytes)
        | .error e => done != 0x6000 && e.1 != 7)
      | .error _ => false)) = true := by decide +kernel

/-! ### Accesses of other nodes, in transactions, and items that trap -/

/-- Two nodes, and a wave whose v5:v4 names 0x5000 of node 1 in lane 0 and of its own node elsewhere. -/
def twoNodes (w : Wave) : State := { scene w with nodes := [{ Node.reset 0 with booted := true }, { Node.reset 1 with booted := true }] }
def awayWave : Wave := withV [(4, { form := .u 0x5000 }), (5, lanesOf [0x01000000])]
theorem meets_load_away : let i : Instr := .ldg none 0 10 4 6
    LoadStart none .global i (twoNodes awayWave) awayWave team0 launch0 ∧ once166 (wordOf i) = false ∧
    AwayPre (twoNodes awayWave) awayWave team0 launch0 (awayWave.active none) .read 4 (addr161 (twoNodes awayWave) none (wordOf i) awayWave .global) := by decide +kernel
theorem meets_store_away : StorePre none .global (.stg none 0 10 4 6) (twoNodes awayWave) awayWave team0 launch0 := by decide +kernel
theorem meets_atomic_away : AtomAwayPre none (.atomg none 0 10 4 6) (twoNodes awayWave) awayWave team0 launch0 := by decide +kernel
/-- A wave whose v5:v4 names 0x5000 of node 1 in every lane. -/
def farWave : Wave := withV [(4, { form := .u 0x5000 }), (5, { form := .u 0x01000000 })]
theorem meets_ring_away : RingAwayPre none (.rgtake none 0 10 4) (twoNodes farWave) farWave team0 launch0 := by decide +kernel

/-- A wave in a transaction; one whose transaction has no room for another line. -/
def openTx (r : List Loc) : Tx := ⟨64, 0, 5, 1, [], r, [], [], 0, []⟩
def inTx (r : List Loc) : Wave := { wave0 with tx := some (openTx r) }
/-- An older wave whose transaction has written the line of address 0. -/
def elder : Wave := { second with tx := some { openTx [] with begun := 0, wlines := [.glob 0] } }
def fullLines : List Loc := (List.range 256).map (fun j => .glob (2 ^ 20 + 128 * j))
theorem meets_transactional_load : let i : Instr := .ldg none 0 10 4 6
    (TxLoadPre none .global i (scene (inTx [])) (inTx []) team0 launch0 (openTx []) ∧
      admitted185 (scene (inTx [])) (inTx []) (openTx []) false (lines185 none .global i (scene (inTx [])) (inTx []) team0 launch0 (openTx []) false) = true ∧
      elder188 (scene (inTx [])) (inTx []) false (lines185 none .global i (scene (inTx [])) (inTx []) team0 launch0 (openTx []) false) = false) ∧
    let s := { scene (inTx []) with waves := [inTx [], elder] }
    TxLoadPre none .global i s (inTx []) team0 launch0 (openTx []) ∧ elder188 s (inTx []) false (lines185 none .global i s (inTx []) team0 launch0 (openTx []) false) = true := by
  decide +kernel
theorem meets_full_load : let i : Instr := .ldg none 0 10 4 6
    let w := inTx fullLines
    TxLoadPre none .global i (scene w) w team0 launch0 (openTx fullLines) ∧
    admitted185 (scene w) w (openTx fullLines) false (lines185 none .global i (scene w) w team0 launch0 (openTx fullLines) false) = false ∧
    (scene w).waves.any (hits188 w false (lines185 none .global i (scene w) w team0 launch0 (openTx fullLines) false)) = false := by decide +kernel
theorem meets_transactional_store : let i : Instr := .stg none 0 10 4 6
    (TxStorePre none .global i (scene (inTx [])) (inTx []) team0 launch0 (openTx []) ∧
      admitted185 (scene (inTx [])) (inTx []) (openTx []) true (lines185 none .global i (scene (inTx [])) (inTx []) team0 launch0 (openTx []) true) = true ∧
      elder188 (scene (inTx [])) (inTx []) true (lines185 none .global i (scene (inTx [])) (inTx []) team0 launch0 (openTx []) true) = false) ∧
    let s := { scene (inTx []) with waves := [inTx [], elder] }
    TxStorePre none .global i s (inTx []) team0 launch0 (openTx []) ∧ elder188 s (inTx []) true (lines185 none .global i s (inTx []) team0 launch0 (openTx []) true) = true := by
  decide +kernel
/-- A transaction whose write set is full. -/
def fullTx : Tx := { openTx [] with wlines := (List.range 128).map (fun j => .glob (2 ^ 20 + 128 * j)) }
theorem meets_full_store : let i : Instr := .stg none 0 10 4 6
    let w := { wave0 with tx := some fullTx }
    TxStorePre none .global i (scene w) w team0 launch0 fullTx ∧
    admitted185 (scene w) w fullTx true (lines185 none .global i (scene w) w team0 launch0 fullTx true) = false ∧
    (scene w).waves.any (hits188 w true (lines185 none .global i (scene w) w team0 launch0 fullTx true)) = false := by decide +kernel
theorem meets_transactional_bin : let w := { inTx [] with k := [0, 4] ++ List.replicate 22 0 }
    TxBinPre none (.bin none 0 10 4 88) (scene w) w team0 launch0 (openTx []) := by decide +kernel
/-- A wave whose v4 names scratchpad byte 65,536 in lane 2, beyond the team's allocation, and byte 0 elsewhere. -/
def beyondWave : Wave := withV [(4, lanesOf [0, 0, 0x10000])]
theorem meets_access_traps : let s := scene beyondWave
    (LoadStart none .scratch (.lds none 0 10 4 6) s beyondWave team0 launch0 ∧ homeWindows s = true ∧
      AccessTraps s beyondWave team0 launch0 (beyondWave.active none) .scratch .read false 4 (addr161 s none (wordOf (.lds none 0 10 4 6)) beyondWave .scratch)) ∧
    (StoreStart none (.sts none 0 10 4 6) s beyondWave team0 launch0 ∧
      AccessTraps s beyondWave team0 launch0 (beyondWave.active none) .scratch .write true 4 (addr161 s none (wordOf (.sts none 0 10 4 6)) beyondWave .scratch)) ∧
    AtomTraps none .scratch (.atoms none 0 10 4 6) s beyondWave team0 launch0 := by decide +kernel
theorem meets_ring_traps : RingTraps none (.rgtake none 0 10 4) (scene wave0) wave0 team0 launch0 := by decide +kernel
/-- BIN into four counts of which the first is poisoned in a stash window, and BIN beyond its allocation. -/
def binScene : State := { scene binWave with teams := [{ team0 with windows := [some ⟨0x7000, 0, 128⟩, none, none, none, none, none, none, none] }], poison := [0x7000] }
def binTeam : Team := { team0 with windows := [some ⟨0x7000, 0, 128⟩, none, none, none, none, none, none, none] }
theorem meets_bin_traps : BinTraps none (.bin none 0 10 4 88) binScene binWave binTeam launch0 := by decide +kernel
def wideWave : Wave := { wave0 with k := [65408, 4] ++ List.replicate 22 0 }
theorem meets_bin_beyond : BinStart none (.bin none 0 10 4 88) (scene wideWave) wideWave team0 launch0 ∧ Takeable (scene wideWave) wideWave team0 launch0 4 ∧
    (let kb := operand (scene wideWave) none (wordOf (.bin none 0 10 4 88)) wideWave .b 2 64 0
     decide (launch0.kernel.scr < kb % 2 ^ 32 + 4 * (kb >>> 32))) = true := by decide +kernel
theorem meets_held_reduction : RoundPre (exFxed 0 8) (.redux (exFxed 0 8) 0 10 4 88) (scene (inTx [])) (inTx []) team0 launch0 ∧ (openTx []).redux = [] := by decide +kernel
/-- A wave whose transaction holds a contribution of its own. -/
def heldPart : Round := ⟨0, 0, 0, 0, false, [(0, 5)], []⟩
def heldTx : Tx := { openTx [] with redux := [heldPart] }
theorem meets_txend_round : let w := { wave0 with tx := some heldTx }
    TxendPre none (.txend none) (scene w) w team0 launch0 heldTx ∧ HeldRound (scene w) w team0 launch0 heldPart := by decide +kernel
theorem meets_txend_inner : let w := { wave0 with tx := some { openTx [] with depth := 2 } }
    TxendPre none (.txend none) (scene w) w team0 launch0 { openTx [] with depth := 2 } := by decide +kernel

/-- An index beyond the object's rows in lane 2, and rows of another node. -/
def rowsWave : Wave := withV [(7, lanesOf [0, 1, 99])]
theorem meets_tensor_traps : [false, true].all (fun b => let s := { pagedScene .copy copyLoad tensorTeam with waves := [rowsWave], streams := [] }
    decide (TensorTraps (exTyped 2) b (if b then .stt (exTyped 2) 0 10 88 6 else .ldt (exTyped 2) 0 10 88 6) s rowsWave tensorTeam launch0)) = true := by decide +kernel
/-- The object's entry at node 1. -/
def farEntry : Nat := 16 * 2 ^ 32 + (2 ^ 40 + 0x6000) * 2 ^ 64
def farRows : State :=
  { twoNodes wave0 with teams := [tensorTeam], mem := Memory.writeN [] 0x5000 (toBytes 16 farEntry), cores := [{ probeCore 0 with objs := [(0, 0, pagedObject)], atc := [(0, 0, 1, 3, farEntry)] }] }
theorem meets_ldt_away : LdtAwayPre (exTyped 2) (.ldt (exTyped 2) 0 10 88 6) farRows wave0 tensorTeam launch0 := by decide +kernel
theorem meets_translates : Translates farRows tensorTeam launch0 0 pagedObject := by decide +kernel

/-! ### Handlers: a load that is made again, and EXIT -/

/-- A frame whose one entry is an LDG of all lanes at 0x7000 that is not performed (R335, R336). -/
def reloadScene : State := withMem handlerWave [(0x8028, 4, 1), (0x8200, 4, (mkWord 0x58 0 10 4 6).toNat), (0x8208, 4, 0xFFFFFFFF), (0x820C, 4, 1)]
def handler0 : Handler := ⟨0x8000, 0xFFFFFFFF, 0xFFFFFFFF, false⟩
def reloaded : Pend := reloadScene.frameEntry 0x8000 0 (reloadScene.handleRank team0 launch0) (Bytes.num reloadScene.peek (globBytes 0x800C 4))
theorem meets_reload : ReloadPre none 0 reloadScene handlerWave team0 launch0 handler0 0x8000 reloaded := by decide +kernel
/-- A wave whose lower half runs the handler. -/
def halfHandler : Wave := { wave0 with handler := some ⟨0x8000, 0xFFFF, 0xFFFF, false⟩ }
theorem meets_handler_exit : let w := { halfHandler with preds := setFile 0 wave0.preds 1 0xFFFF }
    HandlerEndPre (some ⟨false, 1, 0⟩) (withMem w []) w team0 launch0 ⟨0x8000, 0xFFFF, 0xFFFF, false⟩ 0x8000 := by decide +kernel

end Sys2Proof.Tests
end

/-! ## Family 00: the memory as data (log 1) -/

section
namespace Sys2Proof.Proofs.MemoryData
open Sys2Proof Sys2Proof.Machine Sys2Proof.Laws

/-! ### Memory is its bytes (R6) -/

/-- Behind the first cell of a canonical memory, the addresses are higher and the form is canonical. -/
theorem wf_tail {c : Host.Cell} {t : Memory} (h : Memory.wf (c :: t) = true) : t.above c.1 = true ∧ t.wf = true := by
  simp only [Memory.wf, Bool.and_eq_true] at h
  exact ⟨h.1.2, h.2⟩

/-- A canonical memory reads as unlisted at and below a bound that all its addresses exceed. -/
theorem read_of_above : ∀ {m : Memory} {lo a : Nat}, m.wf = true → m.above lo = true → a ≤ lo → m.read a = unlisted
  | [], _, _, _, _, _ => rfl
  | c :: t, lo, a, hw, hlo, ha => by
    obtain ⟨habove, hwf⟩ := wf_tail hw
    have hc : lo < c.1 := by simpa [Memory.above] using hlo
    rw [read_cons, if_neg (by omega)]
    exact read_of_above hwf habove (by omega)

/-- The first cell of a canonical memory is read back, and its byte is listed. -/
theorem read_head {c : Host.Cell} {t : Memory} (h : Memory.wf (c :: t) = true) :
    Memory.read (c :: t) c.1 = c.2 ∧ c.2 ≠ unlisted := by
  simp only [Memory.wf, Bool.and_eq_true, bne_iff_ne] at h
  exact ⟨by rw [read_cons, if_pos rfl], h.1.1⟩

/-- Where two canonical memories read the same, the second lists no address below the first of the first. -/
theorem head_le {c : Host.Cell} {t n : Memory} (hm : Memory.wf (c :: t) = true) (hn : n.wf = true)
    (hr : ∀ a, Memory.read (c :: t) a = n.read a) : n.above c.1 = false := by
  obtain ⟨hc, hu⟩ := read_head hm
  refine Bool.eq_false_iff.mpr fun ha => hu ?_
  rw [← hc, hr, read_of_above hn ha (Nat.le_refl _)]

/-- Behind cells of one address, two canonical memories that read the same still do. -/
theorem read_tail {c d : Host.Cell} {t u : Memory} (hm : Memory.wf (c :: t) = true) (hn : Memory.wf (d :: u) = true) (he : c.1 = d.1)
    (hr : ∀ a, Memory.read (c :: t) a = Memory.read (d :: u) a) (a : Nat) : Memory.read t a = Memory.read u a := by
  obtain ⟨habove, hwf⟩ := wf_tail hm
  obtain ⟨habove', hwf'⟩ := wf_tail hn
  by_cases ha : a ≤ c.1
  · rw [read_of_above hwf habove ha, read_of_above hwf' habove' (he ▸ ha)]
  · have := hr a
    rwa [read_cons, read_cons, if_neg (by omega), if_neg (by omega)] at this

/-- Canonical memories that read the same at every address are equal. -/
theorem eq_of_read : ∀ {m n : Memory}, m.wf = true → n.wf = true → (∀ a, m.read a = n.read a) → m = n
  | [], [], _, _, _ => rfl
  | c :: t, [], hm, hn, hr => absurd (head_le hm hn hr) (by simp [Memory.above])
  | [], d :: u, hm, hn, hr => absurd (head_le hn hm fun a => (hr a).symm) (by simp [Memory.above])
  | c :: t, d :: u, hm, hn, hr => by
    have h1 := head_le hm hn hr
    have h2 := head_le hn hm fun a => (hr a).symm
    simp only [Memory.above, decide_eq_false_iff_not] at h1 h2
    have he : c.1 = d.1 := by omega
    have hb : c.2 = d.2 := by rw [← (read_head hm).1, ← (read_head hn).1, hr, he]
    have ht : t = u := eq_of_read (wf_tail hm).2 (wf_tail hn).2 (read_tail hm hn he hr)
    rw [Prod.ext he hb, ht]

/-- An address above a run that is written reads as before. -/
theorem read_writeN_above : ∀ (bs : List Byte) (m : Memory) {a c : Nat}, a + bs.length ≤ c → (m.writeN a bs).read c = m.read c
  | [], _, _, _, _ => rfl
  | b :: t, m, a, c, hc => by
    simp only [List.length_cons] at hc
    rw [Memory.writeN, read_writeN_above t _ (by omega), read_write, if_neg (by omega)]

/-- A run that is written is read back. -/
theorem readN_writeN : ∀ (bs : List Byte) (m : Memory) (a : Nat), (m.writeN a bs).readN a bs.length = bs
  | [], _, _ => rfl
  | b :: t, m, a => by
    rw [List.length_cons, Memory.readN, Memory.writeN, readN_writeN t, read_writeN_below t _ (by omega), read_write, if_pos rfl]

/-- Settles O54: canonical memories are determined by their reads, by induction on their cells; a run of bytes is written byte by byte,
each read back and none other changed. -/
theorem memoryIsItsBytes : Obligations.MemoryIsItsBytes :=
  ⟨fun _ _ hm hn hr => eq_of_read hm hn hr,
    fun m a bs hm => ⟨writeN_wf bs hm a, readN_writeN bs m a, fun _ hc => hc.elim (read_writeN_below bs m) (read_writeN_above bs m)⟩⟩

end Sys2Proof.Proofs.MemoryData
end

/-! ## Every step keeps the canonical form of memory (log 1) -/

section
namespace Sys2Proof.Proofs.MemoryData
open Sys2Proof Sys2Proof.Machine Sys2Proof.Laws Sys2Proof.Safety

/-! ### What the parts of an instruction answer

A part of the machine keeps the form when each state that it answers is canonical. -/

/-- The state that a wave's body leaves is canonical, if it leaves one. -/
def EffectCanonical : Effect → Prop
  | .done s _ _ _ => Canonical s
  | _ => True

/-- The state that a span's body leaves is canonical, if it leaves one. -/
def SpanCanonical : SpanRes → Prop
  | .ok s _ _ => Canonical s
  | .all s _ => Canonical s
  | .mat => True

/-- The state that an LX instruction leaves is canonical, if it leaves one. -/
def LxCanonical : LxOut → Prop
  | .done s _ _ _ _ _ => Canonical s
  | .abort s _ _ => Canonical s
  | _ => True

/-- A wave's body keeps the form. -/
def BodyKeeps (body : Env → Effect) : Prop := ∀ e, Canonical e.s → EffectCanonical (body e)

/-- A span's body keeps the form. -/
def SpanKeeps (body : SpanEnv → SpanRes) : Prop := ∀ e, Canonical e.s → SpanCanonical (body e)

/-- An LX instruction keeps the form. -/
def LxKeeps (f : LxIn → LxOut) : Prop := ∀ i, Canonical i.s → LxCanonical (f i)

theorem BodyKeeps.done {body : Env → Effect} (hb : BodyKeeps body) {e : Env} (h : Canonical e.s) {s : State} {w : Wave} {ts : List ItemTrap}
    {j : Bool} (he : body e = .done s w ts j) : Canonical s := by
  have := hb e h
  rwa [he] at this

theorem SpanKeeps.ok {body : SpanEnv → SpanRes} (hb : SpanKeeps body) {e : SpanEnv} (h : Canonical e.s) {s : State} {k : List Word}
    {subs : List Machine.Sub} (he : body e = .ok s k subs) : Canonical s := by
  have := hb e h
  rwa [he] at this

theorem SpanKeeps.all {body : SpanEnv → SpanRes} (hb : SpanKeeps body) {e : SpanEnv} (h : Canonical e.s) {s : State}
    {subs : List Machine.Sub} (he : body e = .all s subs) : Canonical s := by
  have := hb e h
  rwa [he] at this

/-! ### Folds -/

/-- What each round of a fold keeps holds of its result. -/
theorem foldl_keeps {α β : Type} {P : β → Prop} {f : β → α → β} (hf : ∀ b a, P b → P (f b a)) :
    ∀ (l : List α) {b : β}, P b → P (l.foldl f b)
  | [], _, h => h
  | a :: l, b, h => foldl_keeps hf l (hf b a h)

/-- A fold over the state keeps the form when each round does. -/
theorem canonical_foldl {α : Type} {f : State → α → State} (hf : ∀ s a, Canonical s → Canonical (f s a)) (l : List α) {s : State}
    (h : Canonical s) : Canonical (l.foldl f s) := foldl_keeps (P := Canonical) hf l h

/-- A choice keeps the form when both of its sides do. -/
theorem canonical_ite {c : Prop} [Decidable c] {s t : State} (hs : Canonical s) (ht : Canonical t) :
    Canonical (if c then s else t) := by
  split
  · exact hs
  · exact ht

/-! ### Teams -/

/-- A team of a canonical state holds its bytes in canonical form. -/
theorem team?_wf {s : State} (h : Canonical s) {r : TeamRef} {t : Team} (ht : s.team? r = some t) :
    t.scratch.wf = true ∧ t.acm.wf = true := h.2 t (List.mem_of_find?_eq_some ht)

theorem canonical_setTeam {s : State} (h : Canonical s) {t : Team} (ht : t.scratch.wf = true ∧ t.acm.wf = true) :
    Canonical (s.setTeam t) := by
  refine ⟨h.1, fun m hm => ?_⟩
  obtain ⟨u, hu, rfl⟩ := List.mem_map.mp hm
  split
  · exact ht
  · exact h.2 u hu

theorem canonical_modTeam {s : State} (h : Canonical s) (t : TeamRef) {f : Team → Team}
    (hf : ∀ m : Team, m.scratch.wf = true ∧ m.acm.wf = true → (f m).scratch.wf = true ∧ (f m).acm.wf = true) : Canonical (s.modTeam t f) := by
  refine ⟨h.1, fun m hm => ?_⟩
  obtain ⟨u, hu, rfl⟩ := List.mem_map.mp hm
  split
  · exact hf u (h.2 u hu)
  · exact h.2 u hu

/-- Teams that go take their bytes with them. -/
theorem canonical_filterTeams {s t : State} (h : Canonical s) (hm : t.mem = s.mem) {p : Team → Bool} (ht : t.teams = s.teams.filter p) :
    Canonical t := by
  refine ⟨hm ▸ h.1, fun m hmem => ?_⟩
  rw [ht] at hmem
  exact h.2 m (List.mem_filter.mp hmem).1

/-! ### Updates of everything else -/

theorem canonical_setLaunch {s : State} (h : Canonical s) (l : Launch) : Canonical (s.setLaunch l) := canonical_same h rfl rfl
theorem canonical_modCore {s : State} (h : Canonical s) (n d c : Nat) (f : Core → Core) :
    Canonical (s.modCore n d c f) := canonical_same h rfl rfl
theorem canonical_modWave {s : State} (h : Canonical s) (r : WaveRef) (f : Wave → Wave) :
    Canonical (s.modWave r f) := canonical_same h rfl rfl
theorem canonical_modCtx {s : State} (h : Canonical s) (n c : Nat) (f : Ctx → Ctx) :
    Canonical (s.modCtx n c f) := canonical_same h rfl rfl
theorem canonical_modSave {s : State} (h : Canonical s) (n : Nat) (f : Save → Save) :
    Canonical (s.modSave n f) := canonical_same h rfl rfl
theorem canonical_bump {s : State} (h : Canonical s) (n i : Nat) : Canonical (s.bump n i) := canonical_same h rfl rfl
theorem canonical_send {s : State} (h : Canonical s) (p : Packet) : Canonical (s.send p) := canonical_same h rfl rfl
theorem canonical_dropPacket {s : State} (h : Canonical s) (n : Nat) : Canonical (s.dropPacket n) := canonical_same h rfl rfl

theorem canonical_putStream {s : State} (h : Canonical s) (q : Stream) : Canonical (s.putStream q) := by
  unfold State.putStream
  split
  · exact canonical_same h rfl rfl
  · exact canonical_same h rfl rfl

theorem canonical_guardLocs (ls : List Loc) {s : State} (h : Canonical s) : Canonical (s.guardLocs ls) :=
  canonical_foldl (fun s l h => by
    cases l with
    | glob a => exact canonical_guardPhys h a 1
    | scr t o => exact h) ls h

theorem canonical_awayNotice {s : State} (h : Canonical s) (t : Team) (w : Wave) (l : Launch) (n c d : Nat) :
    Canonical (s.awayNotice t w l n c d) := canonical_ite (canonical_worldNotice h ..) h

theorem canonical_trapAll {s : State} (h : Canonical s) (w : Wave) (x : Option Ex) (c d a : Nat) (g : Mask) (ads : List (Nat × Nat)) :
    Canonical (trapAll s w x c d a g ads) := canonical_takeTrap h ..

/-! ### Issue in a span (R272 to R285) -/

/-- Dealing a launch adds teams without a byte (R276). -/
theorem canonical_deal {s : State} (h : Canonical s) (l : Launch) : Canonical (s.deal l) := by
  refine ⟨h.1, fun t ht => ?_⟩
  obtain ht | ht := List.mem_append.mp ht
  · exact h.2 t ht
  · obtain ⟨tm, _, hmk⟩ := List.mem_filterMap.mp ht
    dsimp only at hmk
    split at hmk
    · cases hmk
    · cases hmk
      exact ⟨rfl, rfl⟩

/-- Cutting a team leaves its bytes (R281). -/
theorem canonical_cut {s : State} (h : Canonical s) (l : Launch) {t : Team} (ht : t.scratch.wf = true ∧ t.acm.wf = true) :
    Canonical (s.cut l t) := canonical_setTeam (canonical_same h rfl rfl) ht

theorem canonical_materialise {s : State} (h : Canonical s) (l : Launch) {t : Option Team}
    (ht : ∀ m ∈ t, m.scratch.wf = true ∧ m.acm.wf = true) : Canonical (materialise s l t) := by
  cases t with
  | none => exact canonical_deal h l
  | some m => exact canonical_cut h l (ht m rfl)

/-- A span with its uniform registers and sub-spans replaced, as an issue in it leaves it. -/
def withSpan (s : State) (l : Launch) (t : Option Team) (k : List Word) (subs : List Machine.Sub) : State :=
  match t with
  | none => match s.launch? l.num with
    | none => s
    | some l' => s.setLaunch { l' with k := k, subs := subs }
  | some t => match s.team? t.ref with
    | none => s
    | some t' => s.setTeam { t' with k := k, subs := subs }

theorem canonical_withSpan {s : State} (h : Canonical s) (l : Launch) (t : Option Team) (k : List Word) (subs : List Machine.Sub) :
    Canonical (withSpan s l t k subs) := by
  unfold withSpan
  split
  · split
    · exact h
    · exact canonical_setLaunch h _
  · split
    · exact h
    · next ht' =>
      have hw := team?_wf h ht'
      exact canonical_setTeam h hw

/-- An instruction in a span keeps the form when its body there does. -/
theorem canonical_issueSpan {body : SpanEnv → SpanRes} (hb : SpanKeeps body) {s : State} (h : Canonical s) (x : Option Ex) (word : Word)
    (l : Launch) {t : Option Team} (ht : ∀ m ∈ t, m.scratch.wf = true ∧ m.acm.wf = true) (i : Nat) :
    Canonical (issueSpan body x word s l t i) := by
  unfold issueSpan
  dsimp only
  split
  · exact h
  · split
    · exact canonical_materialise h l ht
    · split
      · split
        · next he => exact canonical_withSpan (hb.ok h he) l t ..
        · next he => exact canonical_withSpan (hb.all h he) l t ..
        · exact canonical_materialise h l ht
      · exact canonical_withSpan h l t ..

/-- An instruction keeps the form when its bodies in a wave and in a span do. -/
theorem canonical_issue {wave : Env → Effect} {span : SpanEnv → SpanRes} (hw : BodyKeeps wave) (hs : SpanKeeps span) {s : State}
    (h : Canonical s) (x : Option Ex) (word : Word) : Canonical (issue wave span x word s) := by
  unfold issue
  split
  · exact h
  · exact canonical_issueWave h x word _ fun _ _ _ _ _ he hd => hw.done he hd
  · split
    · exact h
    · exact canonical_issueSpan hs h x word _ (by simp) _
  · split
    · next htm _ =>
      exact canonical_issueSpan hs h x word _ (fun m hm => by cases hm; exact team?_wf h htm) _
    · exact h

/-- A word that fails its check takes its trap, or the span is dealt or cut first (R88, R285). -/
theorem canonical_raiseWord {s : State} (h : Canonical s) (c d : Nat) (x : Option Ex) : Canonical (raiseWord c d x s) := by
  unfold raiseWord
  split
  · exact h
  · split
    · exact h
    · exact canonical_ite h (canonical_trapAll h ..)
  · split
    · exact h
    · exact canonical_deal h _
  · split
    · exact canonical_cut h _ (team?_wf h ‹_›)
    · exact h

/-- A fetch that fails takes its trap, or the span is dealt or cut first (R285). -/
theorem canonical_fetchTrap {s : State} (h : Canonical s) (p : Party) (c d : Nat) : Canonical (s.fetchTrap p c d) := by
  unfold State.fetchTrap
  split
  · exact h
  · split
    · exact canonical_ite h (canonical_takeTrap (canonical_worldTrapNotice h ..) ..)
    · exact h
  · split
    · exact canonical_cut h _ (team?_wf h ‹_›)
    · exact h
  · split
    · exact canonical_deal h _
    · exact h

end Sys2Proof.Proofs.MemoryData
end

section
namespace Sys2Proof.Proofs.MemoryData
open Sys2Proof Sys2Proof.Machine Sys2Proof.Laws Sys2Proof.Safety

/-! ### Bodies that leave the state: they change their wave, or their sub-span, alone -/

theorem keeps_waveOnly : SpanKeeps waveOnly := fun _ _ => trivial
theorem keeps_nopWave : BodyKeeps nopWave := fun _ h => h
theorem keeps_nopSpan : SpanKeeps nopSpan := fun _ h => h

theorem keeps_aluWave (al : Alu) : BodyKeeps (aluWave al) := by
  intro e h
  unfold aluWave
  extract_lets
  split
  · trivial
  · split
    · exact h
    · exact h

theorem keeps_aluSpan (al : Alu) : SpanKeeps (aluSpan al) := by
  intro e h
  unfold aluSpan
  dsimp only
  split
  · trivial
  · split
    · trivial
    · split
      · trivial
      · split
        · exact h
        · exact h
        · trivial

theorem keeps_cvtqWave (t : Nat) (esc : Bool) (r : Rm) : BodyKeeps (cvtqWave t esc r) := by
  intro e h
  unfold cvtqWave
  dsimp only
  split
  · exact h
  · split
    · exact h
    · exact h

theorem keeps_cmpWave (c : Cmp) : BodyKeeps (cmpWave c) := fun _ h => h
theorem keeps_psetWave (q : POp) : BodyKeeps (psetWave q) := fun _ h => h
theorem keeps_pmovGetWave : BodyKeeps pmovGetWave := fun _ h => h
theorem keeps_pmovSetWave : BodyKeeps pmovSetWave := fun _ h => h

theorem spanCanonical_putRuns {e : SpanEnv} (h : Canonical e.s) (p : Nat) (r : Runs) : SpanCanonical (e.putRuns p r) := by
  unfold SpanEnv.putRuns
  split
  · trivial
  · exact h

theorem keeps_cmpSpan (c : Cmp) : SpanKeeps (cmpSpan c) := by
  intro e h
  unfold cmpSpan
  dsimp only
  split
  · trivial
  · exact spanCanonical_putRuns h ..

theorem keeps_psetSpan (q : POp) : SpanKeeps (psetSpan q) := fun _ h => spanCanonical_putRuns h ..

theorem keeps_movWave : BodyKeeps movWave := by
  intro e h
  unfold movWave
  extract_lets
  split
  · trivial
  · exact h

theorem keeps_movSpan : SpanKeeps movSpan := by
  intro e h
  unfold movSpan
  dsimp only
  split
  · trivial
  · split
    · trivial
    · exact h

theorem keeps_movkWave : BodyKeeps movkWave := by
  intro e h
  unfold movkWave
  dsimp only
  split
  · trivial
  · exact h

theorem keeps_workSpan : SpanKeeps workSpan := by
  intro e h
  unfold workSpan
  dsimp only
  split
  · trivial
  · exact h

theorem effectCanonical_jumped {e : Env} (h : Canonical e.s) (w : Wave) (ts : List ItemTrap) : EffectCanonical (e.jumped w ts) := by
  unfold Env.jumped
  split
  · exact h
  · exact h

theorem keeps_braWave (link : Bool) : BodyKeeps (braWave link) := fun _ h => effectCanonical_jumped h ..
theorem keeps_brxWave : BodyKeeps brxWave := fun _ h => effectCanonical_jumped h ..
theorem keeps_braSpan (link : Bool) : SpanKeeps (braSpan link) := fun _ h => h

theorem keeps_brxSpan : SpanKeeps brxSpan := by
  intro e h
  unfold brxSpan
  dsimp only
  split
  · trivial
  · exact h

theorem keeps_joinWave : BodyKeeps joinWave := by
  intro e h
  unfold joinWave
  split
  · exact h
  · exact h

theorem keeps_joinSpan : SpanKeeps joinSpan := by
  intro e h
  unfold joinSpan
  dsimp only
  split
  · trivial
  · exact h

theorem keeps_yieldWave : BodyKeeps yieldWave := fun _ h => h
theorem keeps_codeTrap (c : Nat) : BodyKeeps (codeTrap c) := fun _ h => h

theorem keeps_formWave : BodyKeeps formWave := by
  intro e h
  unfold formWave
  dsimp only
  split
  · trivial
  · exact h

theorem keeps_formSpan : SpanKeeps formSpan := by
  intro e h
  unfold formSpan
  dsimp only
  split
  · trivial
  · exact h

theorem keeps_matlWave : BodyKeeps matlWave := fun _ h => h

theorem keeps_unifWave : BodyKeeps unifWave := by
  intro e h
  unfold unifWave
  dsimp only
  split
  · trivial
  · exact h

theorem keeps_unifSpan : SpanKeeps unifSpan := by
  intro e h
  unfold unifSpan
  dsimp only
  split
  · trivial
  · exact h

theorem keeps_wbaseWave : BodyKeeps wbaseWave := by
  intro e h
  unfold wbaseWave
  dsimp only
  split
  · trivial
  · exact h

theorem keeps_idxWave : BodyKeeps idxWave := fun _ h => h

/-- WQUOTA changes two waves (R154, R156). -/
theorem keeps_wquotaWave : BodyKeeps wquotaWave := by
  intro e h
  unfold wquotaWave
  dsimp only
  split
  · trivial
  · split
    · trivial
    · split
      · trivial
      · split
        · trivial
        · trivial
        · exact canonical_setWave h _

theorem keeps_csrrWave : BodyKeeps csrrWave := fun _ h => h

theorem keeps_csrrSpan : SpanKeeps csrrSpan := by
  intro e h
  unfold csrrSpan
  dsimp only
  split
  · trivial
  · split
    · trivial
    · exact h

theorem keeps_sstatWave : BodyKeeps sstatWave := by
  intro e h
  unfold sstatWave
  dsimp only
  split
  · trivial
  · exact h

theorem keeps_bndWave : BodyKeeps bndWave := by
  intro e h
  unfold bndWave
  dsimp only
  split
  · trivial
  · split
    · trivial
    · exact h

theorem keeps_timeWave : BodyKeeps timeWave := fun _ h => h

theorem keeps_timeSpan : SpanKeeps timeSpan := by
  intro e h
  unfold timeSpan
  dsimp only
  split
  · trivial
  · exact h

theorem keeps_waitfWave : BodyKeeps waitfWave := by
  intro e h
  unfold waitfWave
  split
  · exact h
  · trivial

theorem keeps_fenceWave : BodyKeeps fenceWave := by
  intro e h
  unfold fenceWave
  split
  · trivial
  · exact h

theorem keeps_haltWave : BodyKeeps haltWave := by
  intro e h
  unfold haltWave
  split
  · exact h
  · trivial

theorem keeps_exitWave : BodyKeeps exitWave := fun _ h => h
theorem keeps_exitSpan : SpanKeeps exitSpan := fun _ h => h

theorem keeps_tretWave : BodyKeeps tretWave := by
  intro e h
  unfold tretWave
  split
  · trivial
  · exact h

/-! ### Transactions (R182 to R195) -/

theorem keeps_txbeginWave : BodyKeeps txbeginWave := by
  intro e h
  unfold txbeginWave
  dsimp only
  split
  · trivial
  · split
    · trivial
    · split
      · exact h
      · split
        · exact h
        · exact h

theorem keeps_orelseWave : BodyKeeps orelseWave := by
  intro e h
  unfold orelseWave
  split
  · trivial
  · split
    · exact h
    · exact h

theorem keeps_retryWave : BodyKeeps retryWave := by
  intro e h
  unfold retryWave
  split
  · trivial
  · split
    · exact h
    · split
      · trivial
      · exact h

theorem keeps_orendWave : BodyKeeps orendWave := by
  intro e h
  unfold orendWave
  split
  · trivial
  · split
    · trivial
    · exact h

theorem keeps_txabortWave : BodyKeeps txabortWave := by
  intro e h
  unfold txabortWave
  split
  · trivial
  · exact h

theorem keeps_txstatWave : BodyKeeps txstatWave := fun _ h => h

end Sys2Proof.Proofs.MemoryData
end

section
namespace Sys2Proof.Proofs.MemoryData
open Sys2Proof Sys2Proof.Machine Sys2Proof.Laws Sys2Proof.Safety

/-! ### Accesses of a wave (R185, R188) -/

/-- Adding a line to a transaction's set changes waves alone. -/
theorem canonical_txLine {s : State} (h : Canonical s) {w : Wave} {line : Loc} {write : Bool} {q : State × Wave} :
    s.txLine w line write = .ok q → Canonical q.1 := by
  unfold State.txLine
  split
  · rintro ⟨⟩; exact h
  · extract_lets
    split
    · rintro ⟨⟩; exact h
    · split
      · rintro ⟨⟩
      · split
        · rintro ⟨⟩
        · rintro ⟨⟩; exact canonical_same h rfl rfl

theorem canonical_txLines {write : Bool} : ∀ (ls : List Loc) {s : State} {w : Wave} {q : State × Wave}, Canonical s →
    s.txLines w write ls = .ok q → Canonical q.1
  | [], _, _, _, h => by rintro ⟨⟩; exact h
  | l :: ls, s, w, q, h => by
    unfold State.txLines
    split
    · rintro ⟨⟩
    · next he => exact canonical_txLines ls (canonical_txLine h he)

theorem canonical_waveWrite {s : State} (h : Canonical s) (w : Wave) (ls : List Loc) (bs : List Byte) :
    Canonical (s.waveWrite w ls bs).1 := by
  unfold State.waveWrite
  split
  · exact canonical_writeAt h ..
  · exact h

/-! ### The issue and the completion of an LX instruction (R68, R69) -/

theorem LxKeeps.done {f : LxIn → LxOut} (hf : LxKeeps f) {i : LxIn} (h : Canonical i.s) {s : State} {w : Wave} {ws : List (Nat × Reg)} {p : Bool}
    {n : Nat} {ts : List ItemTrap} (he : f i = .done s w ws p n ts) : Canonical s := by
  have := hf i h
  rwa [he] at this

theorem LxKeeps.abort {f : LxIn → LxOut} (hf : LxKeeps f) {i : LxIn} (h : Canonical i.s) {s : State} {w : Wave} {c : Nat}
    (he : f i = .abort s w c) : Canonical s := by
  have := hf i h
  rwa [he] at this

/-- An LX instruction keeps the form when its function does. -/
theorem keeps_lxWave (rank : Env → Nat) {f : LxIn → LxOut} (hf : LxKeeps f) : BodyKeeps (lxWave rank f) := by
  intro e h
  have hn : Canonical { e.s with nextNum := e.s.nextNum + 1 } := canonical_same h rfl rfl
  unfold lxWave
  extract_lets
  split
  · trivial
  · trivial
  · next he => exact hf.abort hn he
  · next he =>
    have hd := hf.done hn he
    extract_lets
    split
    · split
      · exact hd
      · exact hd
    · split
      · exact hd
      · exact hd

theorem canonical_lxComplete {s : State} (h : Canonical s) (r : WaveRef) (key : Nat) : Canonical (s.lxComplete r key) := by
  unfold State.lxComplete
  split
  · exact h
  · split
    · exact h
    · exact canonical_ite h (canonical_setWave h _)

/-! ### Cross-lane instructions and special functions -/

theorem keeps_sfuLx (f : Nat → Nat) : LxKeeps (sfuLx f) := fun _ h => h
theorem keeps_shflLx : LxKeeps shflLx := fun _ h => h
theorem keeps_shflxLx : LxKeeps shflxLx := fun _ h => h
theorem keeps_voteLx : LxKeeps voteLx := fun _ h => h
theorem keeps_scanLx : LxKeeps scanLx := fun _ h => h
theorem keeps_sortkLx : LxKeeps sortkLx := fun _ h => h
theorem keeps_prefLx : LxKeeps prefLx := fun _ h => h

theorem keeps_rbalLx : LxKeeps rbalLx := by
  intro i h
  unfold rbalLx
  split
  · trivial
  · exact h

theorem keeps_mrgLx : LxKeeps mrgLx := by
  intro i h
  unfold mrgLx
  extract_lets
  split
  · trivial
  · exact h

theorem keeps_workLx : LxKeeps workLx := by
  intro i h
  unfold workLx
  split
  · trivial
  · exact h

/-! ### Rounds of a team's reduction (R135 to R137) -/

theorem canonical_finishRound {s : State} (h : Canonical s) (t : Team) (r : Round) : Canonical (s.finishRound t r) :=
  canonical_modTeam (canonical_ite (canonical_writeAt (canonical_writeAt h ..) ..) h) _ fun _ hm => hm

theorem canonical_checkRound {s : State} (h : Canonical s) (t : TeamRef) : Canonical (s.checkRound t) := by
  unfold State.checkRound
  split
  · exact h
  · split
    · exact h
    · exact canonical_ite h (canonical_finishRound h ..)

theorem canonical_contribute {s : State} (h : Canonical s) (t : TeamRef) (n off : Nat) (o : ReduxOp) (part : Option Word) :
    Canonical (s.contribute t n off o part) := by
  refine canonical_checkRound (canonical_modTeam h t ?_) t
  exact fun _ hm => hm

theorem keeps_reduxLx : LxKeeps reduxLx := by
  intro i h
  unfold reduxLx
  extract_lets
  split
  · exact h
  · split
    · split
      · exact canonical_contribute h ..
      · exact h
    · split
      · trivial
      · split
        · trivial
        · split
          · trivial
          · split
            · trivial
            · split
              · exact canonical_contribute h ..
              · exact h

/-- The state that the counts of BIN have reached is canonical, unless the transaction is to abort (R144, R187). -/
def BinCanonical (acc : Except Nat (State × Wave × List (Nat × Nat))) : Prop := ∀ q, acc = .ok q → Canonical q.1

theorem binCanonical_binStep {lsOf : Nat → List Loc} {n : Nat → Nat} {acc : Except Nat (State × Wave × List (Nat × Nat))}
    (h : BinCanonical acc) (key : Nat) : BinCanonical (binStep lsOf n acc key) := by
  intro q
  unfold binStep
  split
  · rintro ⟨⟩
  · dsimp only
    split
    · rintro ⟨⟩
    · next he1 =>
      split
      · rintro ⟨⟩
      · next he2 =>
        rintro ⟨⟩
        exact canonical_waveWrite (canonical_txLines _ (canonical_txLines _ (h _ rfl) he1) he2) ..

theorem keeps_binLx : LxKeeps binLx := by
  intro i h
  unfold binLx
  extract_lets
  split
  · trivial
  · split
    · trivial
    · split
      · exact h
      · next he =>
        refine foldl_keeps (P := BinCanonical) (fun _ key hb => binCanonical_binStep hb key) _ ?_ _ he
        rintro _ ⟨⟩
        exact canonical_foldl (fun s u hs => canonical_worldTrapNotice hs ..) _ h

/-! ### Loads and stores (R159 to R166) -/

theorem canonical_accTrap {c : Acc} (h : Canonical c.s) (i : LxIn) (l cs d a : Nat) : Canonical (c.trap i l cs d a).s :=
  canonical_worldTrapNotice h ..

theorem canonical_accVal {c : Acc} (h : Canonical c.s) (l v : Nat) (p w : Bool) : Canonical (c.val l v p w).s := h

theorem canonical_accLines {c : Acc} (h : Canonical c.s) (ls : List Loc) (write : Bool) : Canonical (c.lines ls write).s := by
  unfold Acc.lines
  split
  · exact h
  · next he => exact canonical_txLines _ h he

theorem canonical_accLoad {c : Acc} (h : Canonical c.s) (ty l : Nat) (ls : List Loc) : Canonical (c.load ty l ls).s := by
  have h1 : Canonical ({ c with s := c.s.guardLocs ls }.lines ls false).s := canonical_accLines (canonical_guardLocs ls h) ls false
  unfold Acc.load
  dsimp only
  split
  · exact h1
  · exact h1

theorem canonical_loadItem (i : LxIn) (sp : Space) (ty : Nat) {c : Acc} (h : Canonical c.s) (l tag addr : Nat) :
    Canonical (loadItem i sp ty c l tag addr).s := by
  unfold loadItem
  split
  · exact h
  · split
    · exact canonical_accTrap h ..
    · split
      · exact h
      · exact canonical_accTrap h ..
      · exact h
      · exact canonical_accLoad h ..
      · split
        · split
          · exact canonical_accLoad h ..
          · exact canonical_awayNotice h ..
        · exact canonical_send h _

theorem lxCanonical_out {c : Acc} (h : Canonical c.s) {i : LxIn} (hi : Canonical i.s) (ws : List (Nat × Reg)) (p : Bool) (ts : List ItemTrap) :
    LxCanonical (c.out i ws p ts) := by
  unfold Acc.out
  split
  · exact hi
  · exact h

/-- An access of each lane in turn keeps the form when the access of one lane does. -/
theorem canonical_accFoldl {α : Type} {f : Acc → α → Acc} (hf : ∀ c a, Canonical c.s → Canonical (f c a).s) (l : List α) {c : Acc}
    (h : Canonical c.s) : Canonical (l.foldl f c).s := foldl_keeps (P := fun c : Acc => Canonical c.s) hf l h

theorem keeps_loadLx (sp : Space) : LxKeeps (loadLx sp) := by
  intro i h
  unfold loadLx
  dsimp only
  split
  · exact lxCanonical_out (canonical_loadItem i sp _ h ..) h ..
  · exact lxCanonical_out (canonical_accFoldl (fun _ _ hc => canonical_loadItem i sp _ hc ..) _ h) h ..

theorem keeps_lduLx : LxKeeps lduLx := by
  intro i h
  unfold lduLx
  split
  · trivial
  · split
    · exact keeps_loadLx _ i h
    · dsimp only
      split
      · trivial
      · split
        · trivial
        · exact keeps_loadLx _ i h

theorem keeps_loadSpan (sp : Space) : SpanKeeps (loadSpan sp) := by
  intro e h
  unfold loadSpan
  extract_lets
  split
  · trivial
  · split
    · exact h
    · split
      · trivial
      · split
        · trivial
        · exact h
      · split
        · trivial
        · exact canonical_guardLocs _ h
      · split
        · trivial
        · split
          · trivial
          · exact canonical_guardPhys h ..

theorem keeps_storeSpan (sp : Space) : SpanKeeps (storeSpan sp) := by
  intro e h
  unfold storeSpan
  extract_lets
  split
  · trivial
  · split
    · exact canonical_writeAt h ..
    · split
      · trivial
      · exact canonical_acmWrite h ..
    · trivial

/-- A store of a wave to bytes of its node: the lines join its transaction, then the bytes are written. -/
theorem canonical_storeLines {c : Acc} (h : Canonical c.s) (ls : List Loc) (bs : List Byte) :
    Canonical (if (c.lines ls true).abort.isSome then c.lines ls true else
      { c.lines ls true with s := ((c.lines ls true).s.waveWrite (c.lines ls true).w ls bs).1,
                             w := ((c.lines ls true).s.waveWrite (c.lines ls true).w ls bs).2 }).s := by
  have h1 := canonical_accLines h ls true
  split
  · exact h1
  · exact canonical_waveWrite h1 ..

theorem canonical_storeItem (i : LxIn) (sp : Space) (ty : Nat) {c : Acc} (h : Canonical c.s) (l addr v : Nat) :
    Canonical (storeItem i sp ty c l addr v).s := by
  unfold storeItem
  dsimp only
  split
  · exact h
  · split
    · exact canonical_accTrap h ..
    · split
      · exact h
      · exact canonical_accTrap h ..
      · exact canonical_acmWrite h ..
      · exact canonical_storeLines (c := { c with s := c.s.guardLocs _ }) (canonical_guardLocs _ h) ..
      · split
        · split
          · exact h
          · exact canonical_publish (canonical_awayNotice h ..) ..
          · exact canonical_storeLines h ..
        · exact canonical_send h _

theorem keeps_storeLx (sp : Space) : LxKeeps (storeLx sp) := fun i h =>
  lxCanonical_out (canonical_accFoldl (fun _ _ hc => canonical_storeItem i sp _ hc ..) _ h) h ..

/-! ### Windows (R171 to R173) -/

theorem keeps_stwLx : LxKeeps stwLx := by
  intro i h
  unfold stwLx
  extract_lets
  split
  · trivial
  · split
    · trivial
    · split
      · trivial
      · exact canonical_modTeam h _ fun _ hm => hm

/-- A window that is given up leaves its bytes in the scratchpad. -/
theorem canonical_releaseWindow {s : State} (h : Canonical s) (t : Team) (slot : Nat) (w : Window) :
    Canonical (s.releaseWindow t slot w) :=
  canonical_modTeam h _ fun _ hm => ⟨writeN_wf _ hm.1 _, hm.2⟩

theorem keeps_stwbLx : LxKeeps stwbLx := by
  intro i h
  unfold stwbLx
  extract_lets
  split
  · trivial
  · split
    · trivial
    · exact canonical_releaseWindow h ..

/-! ### Translation and tensors (R295 to R301) -/

theorem canonical_object (c : Xlat) {s : State} (h : Canonical s) (a : Nat) : Canonical (c.object s a).1 := by
  unfold Xlat.object
  split
  · exact h
  · split
    · exact h
    · dsimp only
      split
      · exact h
      · exact canonical_modNode (canonical_modCore h ..) ..

theorem canonical_entry (c : Xlat) {s : State} (h : Canonical s) (a j : Nat) (x : Axis) (i : Nat) :
    Canonical (c.entry s a j x i).1 := by
  unfold Xlat.entry
  dsimp only
  split
  · exact h
  · split
    · exact h
    · split
      · exact h
      · exact h
      · exact canonical_modCore h ..

theorem canonical_axis (c : Xlat) {s : State} (h : Canonical s) (a j : Nat) (x : Axis) (i : Nat) :
    Canonical (c.axis s a j x i).1 := by
  unfold Xlat.axis
  extract_lets i r
  have hr : Canonical r.1 := canonical_entry c h ..
  split
  · exact h
  · split
    · exact h
    · split
      · exact hr
      · exact hr
      · split
        · exact hr
        · exact hr

theorem canonical_axes (c : Xlat) (a : Nat) (t : Tensor) (idx : Nat → Nat) : ∀ (js : List Nat) {s : State}, Canonical s →
    Canonical (c.axes s a t idx js).1
  | [], _, h => h
  | j :: js, s, h => by
    unfold Xlat.axes
    extract_lets r q
    have hr : Canonical r.1 := canonical_axis c h ..
    have hq : Canonical q.1 := canonical_axes c a t idx js hr
    split
    · exact hr
    · split
      · exact hq
      · exact hq

theorem canonical_element (c : Xlat) {s : State} (h : Canonical s) (a : Nat) (idx : Nat → Nat) (write : Bool) :
    Canonical (c.element s a idx write).1 := by
  unfold Xlat.element
  dsimp only
  have ho := canonical_object c h a
  split
  · exact ho
  · next t _ =>
    have hr := canonical_axes c a t idx (List.range t.rank) ho
    split
    · exact ho
    · split
      · exact hr
      · split
        · exact hr
        · exact hr

theorem canonical_tensorItem (i : LxIn) (write : Bool) {access : Acc → Nat → Nat → Acc}
    (ha : ∀ c l a, Canonical c.s → Canonical (access c l a).s) {c : Acc} (h : Canonical c.s) (l : Nat) :
    Canonical (tensorItem i write access c l).s := by
  unfold tensorItem
  split
  · exact canonical_accTrap h ..
  · have hr := canonical_element (xlatOf i.t i.l) h (i.a.at i.ix 0) (fun j => (i.idx.getD j (.uni 0)).at i.ix l) write
    dsimp only
    split
    · exact canonical_accTrap (c := { c with s := _ }) hr ..
    · exact ha _ _ _ hr

theorem keeps_ldtLx : LxKeeps ldtLx := by
  intro i h
  unfold ldtLx
  dsimp only
  split
  · split
    · trivial
    · trivial
  · split
    · exact lxCanonical_out (canonical_tensorItem i false (fun _ _ _ hc => canonical_loadItem i _ _ hc ..) h _) h ..
    · exact lxCanonical_out (canonical_accFoldl
        (fun _ _ hc => canonical_tensorItem i false (fun _ _ _ hc => canonical_loadItem i _ _ hc ..) hc _) _ h) h ..

theorem keeps_sttLx : LxKeeps sttLx := by
  intro i h
  unfold sttLx
  split
  · split
    · trivial
    · trivial
  · exact lxCanonical_out (canonical_accFoldl
      (fun _ _ hc => canonical_tensorItem i true (fun _ _ _ hc => canonical_storeItem i _ _ hc ..) hc _) _ h) h ..

/-! ### Atomics and rings (R175 to R181) -/

theorem canonical_atomAt {s : State} (h : Canonical s) (f : Atom) (ls : List Loc) (y c : Nat) (b : Option WaveRef) :
    Canonical (s.atomAt f ls y c b).1 := canonical_writeAt (canonical_guardLocs ls h) ..

theorem canonical_atomItem (i : LxIn) (sp : Space) (ret : Bool) {c : Acc} (h : Canonical c.s) (l : Nat) :
    Canonical (atomItem i sp ret c l).s := by
  unfold atomItem
  dsimp only
  split
  · exact canonical_accTrap h ..
  · split
    · exact h
    · exact canonical_accTrap h ..
    · exact h
    · split
      · exact canonical_accTrap h ..
      · exact canonical_atomAt h ..
    · split
      · exact canonical_accTrap h ..
      · exact canonical_send h _

theorem canonical_saddGroup (i : LxIn) (sp : Space) {c : Acc} (h : Canonical c.s) (addr : Nat) :
    Canonical (saddGroup i sp c addr).s := by
  have ht (ls : List Nat) (cs d : Nat) : Canonical (ls.foldl (fun c l => c.trap i l cs d addr) c).s :=
    canonical_accFoldl (fun _ _ hc => canonical_accTrap hc ..) ls h
  unfold saddGroup
  dsimp only
  split
  · exact ht ..
  · split
    · exact canonical_accFoldl (fun _ _ hc => canonical_accVal hc ..) _ h
    · exact ht ..
    · split
      · exact ht ..
      · exact canonical_accFoldl (c := { c with s := _ }) (fun _ _ hc => canonical_accVal hc ..) _ (canonical_atomAt h ..)
    · exact h

theorem keeps_atomLx (sp : Space) (ret : Bool) : LxKeeps (atomLx sp ret) := by
  intro i h
  unfold atomLx
  dsimp only
  refine lxCanonical_out ?_ h ..
  split
  · exact canonical_accFoldl (fun _ _ hc => canonical_saddGroup i sp hc _) _ h
  · exact canonical_accFoldl (fun _ _ hc => canonical_atomItem i sp ret hc _) _ h

theorem canonical_setRing {s : State} (h : Canonical s) (r : RingAt) (off v : Nat) : Canonical (s.setRing r off v) :=
  canonical_store (canonical_guardPhys h ..) ..

theorem canonical_setSlot {s : State} (h : Canonical s) (r : RingAt) (q v : Nat) : Canonical (s.setSlot r q v) :=
  canonical_store (canonical_guardPhys h ..) ..

theorem canonical_advancePub (r : RingAt) : ∀ (fuel : Nat) {s : State}, Canonical s → Canonical (s.advancePub r fuel)
  | 0, _, h => h
  | fuel + 1, _, h => canonical_ite (canonical_advancePub r fuel (canonical_setRing h ..)) h

theorem canonical_advanceReld (r : RingAt) : ∀ (fuel : Nat) {s : State}, Canonical s → Canonical (s.advanceReld r fuel)
  | 0, _, h => h
  | fuel + 1, _, h => canonical_ite (canonical_advanceReld r fuel (canonical_setRing (canonical_setRing h ..) ..)) h

theorem canonical_ringTouch {s : State} (h : Canonical s) (r : RingAt) (line : Nat) (b : Option WaveRef) :
    Canonical (s.ringTouch r line b) :=
  canonical_touchAll b _ h

theorem canonical_ringRsv {s : State} (h : Canonical s) (r : RingAt) (b : Option WaveRef) : Canonical (s.ringRsv r b).1 := by
  unfold State.ringRsv
  dsimp only
  split
  · exact h
  · exact canonical_ringTouch (canonical_setRing (canonical_setRing (canonical_setSlot h ..) ..) ..) ..

theorem canonical_ringPub {s : State} (h : Canonical s) (r : RingAt) (q : Nat) (b : Option WaveRef) :
    Canonical (s.ringPub r q b).1 := by
  unfold State.ringPub
  split
  · exact canonical_ringTouch (canonical_advancePub r _ (canonical_setSlot h ..)) ..
  · exact h

theorem canonical_ringTake {s : State} (h : Canonical s) (r : RingAt) (b : Option WaveRef) : Canonical (s.ringTake r b).1 := by
  unfold State.ringTake
  dsimp only
  split
  · exact h
  · exact canonical_ringTouch (canonical_setRing (canonical_setSlot h ..) ..) ..

theorem canonical_ringFree {s : State} (h : Canonical s) (r : RingAt) (q : Nat) (b : Option WaveRef) :
    Canonical (s.ringFree r q b).1 := by
  unfold State.ringFree
  split
  · exact canonical_ringTouch (canonical_advanceReld r _ (canonical_setSlot h ..)) ..
  · exact h

theorem canonical_ringOp {s : State} (h : Canonical s) (r : RingAt) (op q : Nat) (b : Option WaveRef) :
    Canonical (s.ringOp r op q b).1 := by
  unfold State.ringOp
  split
  · exact canonical_ringRsv h ..
  · exact canonical_ringPub h ..
  · exact canonical_ringTake h ..
  · exact canonical_ringFree h ..

theorem canonical_ringItem (i : LxIn) (op : Nat) {c : Acc} (h : Canonical c.s) (l : Nat) : Canonical (ringItem i op c l).s := by
  unfold ringItem
  extract_lets
  split
  · exact canonical_accTrap h ..
  · split
    · exact canonical_accTrap h ..
    · exact h
    · split
      · exact canonical_accTrap h ..
      · extract_lets
        split
        · exact h
        · exact canonical_accTrap h ..
        · split
          · exact canonical_accTrap h ..
          · exact canonical_ringOp h ..
    · split
      · exact canonical_accTrap h ..
      · exact canonical_send h _

theorem keeps_ringLx (op : Nat) : LxKeeps (ringLx op) := fun i h =>
  lxCanonical_out (canonical_accFoldl (fun _ _ hc => canonical_ringItem i op hc _) _ h) h ..

end Sys2Proof.Proofs.MemoryData
end

section
namespace Sys2Proof.Proofs.MemoryData
open Sys2Proof Sys2Proof.Machine Sys2Proof.Laws Sys2Proof.Safety

/-! ### Lists (R208 to R216) -/

theorem canonical_putList {s : State} (h : Canonical s) (t : TeamRef) (l : Nat) (r : Ranked) : Canonical (s.putList t l r) :=
  canonical_acmWrite h ..

theorem canonical_unbindSlot {s : State} (h : Canonical s) (t : TeamRef) (slot : Nat) : Canonical (s.unbindSlot t slot) := by
  unfold State.unbindSlot
  split
  · exact h
  · exact canonical_modTeam (canonical_acmWrite h ..) t fun _ hm => hm

theorem canonical_unbindList {s : State} (h : Canonical s) (t : TeamRef) (l : Nat) : Canonical (s.unbindList t l) :=
  canonical_foldl (fun _ _ hs => canonical_ite (canonical_unbindSlot hs ..) hs) _ h

theorem keeps_rkinitWave : BodyKeeps rkinitWave := by
  intro e h
  unfold rkinitWave
  extract_lets
  split
  · trivial
  · split
    · trivial
    · split
      · trivial
      · exact canonical_putList (canonical_acmWrite (canonical_unbindList h ..) ..) ..

theorem keeps_rkthrWave : BodyKeeps rkthrWave := by
  intro e h
  unfold rkthrWave
  dsimp only
  split
  · exact canonical_unbindSlot h ..
  · split
    · trivial
    · split
      · trivial
      · refine canonical_modTeam (canonical_acmWrite (canonical_unbindSlot (canonical_unbindList h ..) ..) ..) _ ?_
        exact fun _ hm => hm

theorem keeps_pthrWave : BodyKeeps pthrWave := by
  intro e h
  unfold pthrWave
  extract_lets
  split
  · exact h
  · exact h

theorem keeps_rkpushLx : LxKeeps rkpushLx := by
  intro i h
  unfold rkpushLx
  extract_lets
  split
  · trivial
  · split
    · trivial
    · exact canonical_putList h ..

theorem keeps_rkmergeWave : BodyKeeps rkmergeWave := by
  intro e h
  unfold rkmergeWave
  extract_lets
  split
  · trivial
  · split
    · trivial
    · split
      · trivial
      · split
        · trivial
        · split
          · trivial
          · extract_lets
            split
            · trivial
            · exact canonical_putList h ..

theorem keeps_rkreadWave : BodyKeeps rkreadWave := by
  intro e h
  unfold rkreadWave
  extract_lets
  split
  · trivial
  · split
    · trivial
    · exact h

/-! ### Barriers, sequences, windows and rings of objects (R197 to R206) -/

theorem canonical_setBarWord {s : State} (h : Canonical s) (t : Team) (off i v : Nat) : Canonical (s.setBarWord t off i v) :=
  canonical_writeAt h ..

theorem canonical_testBarrier {s : State} (h : Canonical s) (tr : TeamRef) (off : Nat) : Canonical (s.testBarrier tr off) := by
  have hm (b : Barrier) : Canonical (s.modTeam tr (fun m => m.setBarrier b)) := canonical_modTeam h tr fun _ hm => hm
  unfold State.testBarrier
  split
  · exact h
  · extract_lets b w n s1
    have h1 : Canonical s1 := canonical_setBarWord (hm _) ..
    split
    · exact canonical_setBarWord h ..
    · split
      · exact canonical_setBarWord h1 ..
      · exact canonical_same h1 rfl rfl

theorem canonical_testBarriers {s : State} (h : Canonical s) (t : TeamRef) : Canonical (s.testBarriers t) := by
  unfold State.testBarriers
  split
  · exact h
  · exact canonical_foldl (fun _ _ hs => canonical_testBarrier hs ..) _ h

theorem keeps_barinitWave : BodyKeeps barinitWave := by
  intro e h
  unfold barinitWave
  extract_lets
  split
  · trivial
  · refine canonical_setBarWord (canonical_modTeam h _ ?_) ..
    exact fun _ hm => hm

theorem keeps_arriveWave : BodyKeeps arriveWave := by
  intro e h
  unfold arriveWave
  extract_lets
  split
  · trivial
  · split
    · trivial
    · split
      · trivial
      · split
        · trivial
        · refine canonical_testBarrier (canonical_modTeam h _ ?_) ..
          exact fun _ hm => hm

theorem effectCanonical_putRefused {e : Env} (h : Canonical e.s) (addr cause : Nat) :
    EffectCanonical (e.putRefused addr cause) := by
  have hn := canonical_awayNotice h e.t e.w e.l (gNode addr) cause 0
  unfold Env.putRefused
  extract_lets
  split
  · split
    · trivial
    · trivial
  · split
    · exact hn
    · exact hn

theorem keeps_seqWave (rel : Bool) : BodyKeeps (seqWave rel) := by
  intro e h
  unfold seqWave
  dsimp only
  split
  · trivial
  · split
    · trivial
    · split
      · trivial
      · exact effectCanonical_putRefused h ..
      · split
        · split
          · trivial
          · exact effectCanonical_putRefused h ..
        · exact canonical_ite (canonical_wrPhys h ..) h

theorem keeps_bindWave : BodyKeeps bindWave := by
  intro e h
  unfold bindWave
  extract_lets
  split
  · trivial
  · split
    · trivial
    · exact canonical_awayNotice h ..
    · exact canonical_wrPhys h ..

theorem canonical_defineRing {s : State} (h : Canonical s) (key states dbase cfg : Nat) :
    Canonical (s.defineRing key states dbase cfg) := by
  unfold State.defineRing
  dsimp only
  refine canonical_touchAll _ _ (canonical_unpoison (canonical_unpoison (canonical_unpoison ?_ ..) ..) ..)
  exact canonical_store (canonical_store (canonical_guardPhys (canonical_wipe h ..) ..) ..) ..

theorem keeps_rgdefWave : BodyKeeps rgdefWave := by
  intro e h
  unfold rgdefWave
  extract_lets
  split
  · trivial
  · split
    · trivial
    · trivial
    · trivial
    · exact canonical_defineRing h ..
    · exact canonical_awayNotice h ..
    · exact canonical_awayNotice h ..
    · exact canonical_awayNotice h ..

/-! ### Commit (R188 to R190) -/

theorem canonical_commitTx {s : State} (h : Canonical s) (w : Wave) (t : Tx) : Canonical (commitTx s w t).1 :=
  canonical_foldl (fun _ _ hs => canonical_contribute hs ..) _ (canonical_writeAt h ..)

theorem keeps_txendWave : BodyKeeps txendWave := by
  intro e h
  unfold txendWave
  split
  · trivial
  · split
    · exact h
    · exact canonical_commitTx h ..

/-! ### The end of waves, teams and launches (R286, R289, R341) -/

theorem canonical_seqWrite {s : State} (h : Canonical s) {l : Launch} {a v : Nat} {s' : State} :
    s.seqWrite l a v = .ok s' → Canonical s' := by
  unfold State.seqWrite
  split
  · rintro ⟨⟩; exact canonical_wrPhys h ..
  · rintro ⟨⟩

theorem canonical_launchNotice {s : State} (h : Canonical s) (l : Launch) (c d : Nat) : Canonical (s.launchNotice l c d) :=
  canonical_ite (canonical_worldNotice h ..) h

theorem canonical_orKeep {s : State} (h : Canonical s) (l : Launch) {r : Except (Nat × Nat) State} (hr : ∀ s', r = .ok s' → Canonical s') :
    Canonical (orKeep s l r) := by
  unfold orKeep
  split
  · exact hr _ rfl
  · exact canonical_launchNotice h ..

theorem canonical_orKeep_seqWrite {s : State} (h : Canonical s) (l : Launch) (a v : Nat) :
    Canonical (orKeep s l (s.seqWrite l a v)) := canonical_orKeep h l fun _ => canonical_seqWrite h

theorem canonical_finishLaunch {s : State} (h : Canonical s) (l : Launch) : Canonical (s.finishLaunch l) := by
  have h1 (p : Launch → Bool) : Canonical { s with launches := s.launches.filter p } := canonical_same h rfl rfl
  unfold State.finishLaunch
  dsimp only
  split
  · exact canonical_orKeep_seqWrite (h1 _) ..
  · split
    · next he => exact canonical_seqWrite (canonical_orKeep_seqWrite (h1 _) ..) he
    · exact canonical_launchNotice (canonical_publish (canonical_orKeep_seqWrite (h1 _) ..) ..) ..

theorem canonical_checkLaunch {s : State} (h : Canonical s) (n : Nat) : Canonical (s.checkLaunch n) := by
  unfold State.checkLaunch
  split
  · exact h
  · exact canonical_ite (canonical_finishLaunch h _) h

theorem canonical_checkRetire {s : State} (h : Canonical s) (t : TeamRef) : Canonical (s.checkRetire t) := by
  unfold State.checkRetire
  split
  · exact h
  · extract_lets ended s1
    split
    · exact h
    · exact canonical_checkLaunch (s := s1) (canonical_filterTeams h rfl rfl) _

theorem canonical_endWave {s : State} (h : Canonical s) (r : WaveRef) : Canonical (s.endWave r) := by
  unfold State.endWave
  split
  · exact h
  · next w _ =>
    have h1 : Canonical { s with waves := giveRows r.team w.part w.rowBudget (s.waves.filter (fun v => v.ref != r)) } :=
      canonical_same h rfl rfl
    refine canonical_checkRetire (canonical_checkRound (canonical_testBarriers (canonical_modTeam h1 _ ?_) _) _) _
    exact fun _ hm => hm

theorem canonical_endIfDone {s : State} (h : Canonical s) (r : WaveRef) : Canonical (s.endIfDone r) := by
  unfold State.endIfDone
  split
  · exact h
  · exact canonical_ite (canonical_endWave h r) h

/-! ### Replay, and the handler's end (R336, R337) -/

theorem keeps_lxFn (maj : Nat) (x : Option Ex) : LxKeeps (lxFn maj x) := by
  unfold lxFn
  split
  · exact keeps_shflLx
  · exact keeps_shflxLx
  · exact keeps_voteLx
  · exact keeps_reduxLx
  · exact keeps_scanLx
  · exact keeps_rbalLx
  · exact keeps_binLx
  · exact keeps_mrgLx
  · exact keeps_sortkLx
  · exact keeps_workLx
  · exact keeps_loadLx _
  · exact keeps_storeLx _
  · exact keeps_loadLx _
  · exact keeps_storeLx _
  · exact keeps_loadLx _
  · exact keeps_storeLx _
  · exact keeps_ldtLx
  · exact keeps_sttLx
  · exact keeps_lduLx
  · exact keeps_loadLx _
  · exact keeps_storeLx _
  · exact keeps_stwLx
  · exact keeps_stwbLx
  · exact keeps_prefLx
  · exact keeps_atomLx _ _
  · exact keeps_atomLx _ _
  · exact keeps_atomLx _ _
  · exact keeps_atomLx _ _
  · exact keeps_ringLx _
  · exact keeps_ringLx _
  · exact keeps_ringLx _
  · exact keeps_ringLx _
  · exact keeps_rkpushLx
  · exact keeps_sfuLx _

theorem canonical_rerun {p : Pend} {s : State} (h : Canonical s) {w : Wave} {t : Team} {l : Launch} {q : State × Wave × Pend} :
    p.rerun s w t l = some q → Canonical q.1 := by
  have hn : Canonical { s with nextNum := s.nextNum + 1 } := canonical_same h rfl rfl
  unfold Pend.rerun
  dsimp only
  split
  · rintro ⟨⟩
  · split
    · rintro ⟨⟩; exact hn
    · split
      · next he =>
        split
        · rintro ⟨⟩; exact (keeps_lxFn _ _).done hn he
        · rintro ⟨⟩
      · rintro ⟨⟩

theorem canonical_reinject {t : Team} {l : Launch} : ∀ (ps : List Pend) {s : State} {w : Wave} {q : State × Wave}, Canonical s →
    s.reinject w t l ps = some q → Canonical q.1
  | [], _, _, _, h => by rintro ⟨⟩; exact h
  | p :: ps, s, w, q, h => by
    unfold State.reinject
    split
    · rintro ⟨⟩
    · next he => exact canonical_reinject ps (canonical_rerun h he)

theorem canonical_resumeGroup {s : State} (h : Canonical s) {w : Wave} {t : Team} {l : Launch} {g : Mask} {k22 k23 : Word} {pc : Nat}
    {es : List Pend} {q : State × Wave} (he : s.resumeGroup w t l g k22 k23 pc es = some q) : Canonical q.1 := canonical_reinject es h he

theorem canonical_dropEntry {s : State} (h : Canonical s) (k e : Nat) : Canonical (s.dropEntry k e) :=
  canonical_wrPhys (canonical_wrPhys (canonical_wrPhys h ..) ..) ..

theorem canonical_closeHandler {s : State} (h : Canonical s) (r : WaveRef) (g : Mask) (pc : Nat) :
    Canonical (s.closeHandler r g pc) := by
  unfold State.closeHandler
  split
  · split
    · exact h
    · split
      · exact h
      · dsimp only
        split
        · exact canonical_takeTrap (canonical_setWave h _) ..
        · split
          · exact canonical_takeTrap (canonical_setWave h _) ..
          · split
            · exact canonical_takeTrap (canonical_setWave h _) ..
            · next he => exact canonical_setWave (canonical_resumeGroup h he) _
  · exact h

theorem keeps_replayWave : BodyKeeps replayWave := by
  intro e h
  unfold replayWave
  split
  · trivial
  · split
    · trivial
    · extract_lets
      split
      · trivial
      · split
        · trivial
        · next he =>
          have hd := canonical_dropEntry (canonical_rerun h he)
          extract_lets
          split
          · exact hd ..
          · exact hd ..

theorem keeps_rqdropWave : BodyKeeps rqdropWave := by
  intro e h
  unfold rqdropWave
  split
  · trivial
  · split
    · trivial
    · extract_lets
      split
      · exact canonical_wrPhys h ..
      · split
        · trivial
        · exact canonical_dropEntry h ..

/-- After EXIT and TRET: the handler closes, and a party without items ends. -/
theorem canonical_afterExit {s : State} (h : Canonical s) (p : Party) (g : Mask) (pc : Nat) : Canonical (s.afterExit p g pc) := by
  unfold State.afterExit
  split
  · exact h
  · exact canonical_endIfDone (canonical_closeHandler h ..) _
  · exact canonical_checkLaunch h _
  · exact canonical_checkRetire h _

/-! ### Pre-emption (R347 to R352) -/

theorem canonical_saveTeam {s : State} (h : Canonical s) (t : TeamRef) : Canonical (s.saveTeam t) := by
  have h1 := canonical_foldl (fun s (w : Wave) hs => canonical_dropLoads hs w.ref) (s.waves.filter (fun w => w.ref.team == t)) h
  refine canonical_modTeam (canonical_same h1 rfl rfl) t ?_
  exact fun _ hm => hm

theorem canonical_newImage {s : State} (h : Canonical s) (n r c : Nat) : Canonical (s.newImage n r c).1 := canonical_same h rfl rfl

theorem canonical_saveLaunches {s : State} (h : Canonical s) (p : Launch → Bool) : Canonical (s.saveLaunches p) := by
  have h1 := canonical_foldl (fun s (t : Team) hs => canonical_saveTeam hs t.ref) (s.placedOf p) h
  exact canonical_same h1 rfl rfl

theorem canonical_preemptCtx {s : State} (h : Canonical s) (n c r : Nat) : Canonical (s.preemptCtx n c r).1 := by
  unfold State.preemptCtx
  extract_lets rcb q
  have hq : Canonical q.1 := canonical_newImage (canonical_saveLaunches h _) ..
  exact canonical_same hq rfl rfl

theorem canonical_haltCtx {s : State} (h : Canonical s) (r : WaveRef) (c : Nat) : Canonical (s.haltCtx r c) := by
  unfold State.haltCtx
  split
  · exact canonical_publish (canonical_preemptCtx h ..) ..
  · exact h

theorem canonical_resumeWave {s : State} (h : Canonical s) (t : Team) (l : Launch) (r : WaveRef) :
    Canonical (s.resumeWave t l r) := by
  unfold State.resumeWave
  split
  · exact h
  · dsimp only
    split
    · exact h
    · split
      · next he => exact canonical_setWave (canonical_reinject _ h he) _
      · exact canonical_takeTrap (canonical_setWave h _) ..

theorem canonical_resumeTeam {s : State} (h : Canonical s) (t : TeamRef) : Canonical (s.resumeTeam t) := by
  unfold State.resumeTeam
  split
  · exact canonical_foldl (fun _ _ hs => canonical_resumeWave hs ..) _ h
  · exact h

/-! ### The secure world's services (R371 to R374) -/

/-- A service keeps the form. -/
def ServiceKeeps (f : State → Team → Nat → Nat → Nat → State × SwcReply) :
    Prop := ∀ s t a b c, Canonical s → Canonical (f s t a b c).1

theorem keeps_swcWave {f : State → Team → Nat → Nat → Nat → State × SwcReply} (hf : ServiceKeeps f) : BodyKeeps (swcWave f) :=
  fun _ h => hf _ _ _ _ _ h

theorem canonical_setRegion {s : State} (h : Canonical s) (n r : Nat) (secure : Bool) : Canonical (s.setRegion n r secure) :=
  canonical_modNode (canonical_touchAll none _ (canonical_ite h (canonical_unpoison (canonical_wipe h ..) ..))) ..

theorem keeps_svcRegionSet : ServiceKeeps svcRegionSet := by
  intro s t r w c h
  unfold svcRegionSet
  split
  · exact h
  · split
    · exact h
    · split
      · exact h
      · exact canonical_setRegion h ..

theorem keeps_svcRegionGet : ServiceKeeps svcRegionGet := by
  intro s t r w c h
  unfold svcRegionGet
  split
  · exact h
  · exact h

theorem keeps_svcSfdomSet : ServiceKeeps svcSfdomSet := by
  intro s t f w c h
  unfold svcSfdomSet
  split
  · exact h
  · split
    · exact h
    · exact canonical_modNode h ..

theorem keeps_svcMeasure : ServiceKeeps svcMeasure := by
  intro s t m c d h
  unfold svcMeasure
  split
  · exact h
  · exact h

theorem keeps_svcExtend : ServiceKeeps svcExtend := by
  intro s t m lo hi h
  unfold svcExtend
  split
  · exact h
  · split
    · exact h
    · split
      · exact h
      · exact canonical_modNode (canonical_guardPhys h ..) ..

theorem keeps_svcRandom : ServiceKeeps svcRandom := fun _ _ _ _ _ h => canonical_same h rfl rfl

theorem keeps_svcPower : ServiceKeeps svcPower := by
  intro s t b c d h
  unfold svcPower
  split
  · exact h
  · exact canonical_same h rfl rfl

/-! ### Engine commands join their streams (R217 to R229) -/

theorem keeps_cxWave : BodyKeeps cxWave := by
  intro e h
  unfold cxWave
  extract_lets
  split
  · trivial
  · split
    · trivial
    · split
      · trivial
      · split
        · trivial
        · split
          · trivial
          · split
            · trivial
            · split
              · exact h
              · exact canonical_putStream h _

theorem keeps_qfenceWave : BodyKeeps qfenceWave := by
  intro e h
  unfold qfenceWave
  dsimp only
  split
  · trivial
  · split
    · exact h
    · exact canonical_foldl (fun _ _ hs => canonical_putStream hs _) _ (canonical_same h rfl rfl)

end Sys2Proof.Proofs.MemoryData
end

section
namespace Sys2Proof.Proofs.MemoryData
open Sys2Proof Sys2Proof.Machine Sys2Proof.Laws Sys2Proof.Safety

/-! ### The engines' accesses (R217 to R229)

An engine keeps the form when its state is canonical behind each access. -/

/-- The engine's state is canonical. -/
def EngCanonical (g : Eng) : Prop := Canonical g.s

/-- A fold over the engine keeps the form when each round does. -/
theorem engCanonical_foldl {α : Type} {f : Eng → α → Eng} (hf : ∀ g a, EngCanonical g → EngCanonical (f g a)) (l : List α) {g : Eng}
    (h : EngCanonical g) : EngCanonical (l.foldl f g) := foldl_keeps (P := EngCanonical) hf l h

/-- The same for a fold that collects something beside the engine. -/
theorem engCanonical_pairFoldl {α β : Type} {f : Eng × β → α → Eng × β} (hf : ∀ q a, EngCanonical q.1 → EngCanonical (f q a).1) (l : List α)
    {q : Eng × β} (h : EngCanonical q.1) : EngCanonical (l.foldl f q).1 := foldl_keeps (P := fun q : Eng × β => EngCanonical q.1) hf l h

theorem engCanonical_fail {g : Eng} (h : EngCanonical g) (st : Nat) : EngCanonical (g.fail st) := by
  unfold Eng.fail
  split
  · exact h
  · exact h

theorem engCanonical_go {g : Eng} (h : EngCanonical g) {f : Eng → Eng} (hf : ∀ g, EngCanonical g → EngCanonical (f g)) :
    EngCanonical (g.go f) := by
  unfold Eng.go
  split
  · exact hf g h
  · exact h

theorem engCanonical_failAccess {g : Eng} (h : EngCanonical g) (c d : Nat) (r : Bool) : EngCanonical (g.failAccess c d r) :=
  engCanonical_fail (g := { g with s := _ }) (canonical_ite (canonical_worldNotice h ..) h) _

theorem engCanonical_failWalk {g : Eng} (h : EngCanonical g) (e : WalkErr) : EngCanonical (g.failWalk e) := by
  unfold Eng.failWalk
  split
  · exact engCanonical_fail h _
  · exact engCanonical_failAccess h ..

theorem engCanonical_readMem {g : Eng} (h : EngCanonical g) (a n : Nat) : EngCanonical (g.readMem a n).1 := by
  unfold Eng.readMem
  split
  · exact h
  · split
    · exact engCanonical_failAccess h ..
    · dsimp only
      split
      · exact engCanonical_fail h _
      · exact canonical_guardPhys h ..

theorem engCanonical_writeMem {g : Eng} (h : EngCanonical g) (a : Nat) (bs : List Byte) : EngCanonical (g.writeMem a bs) := by
  unfold Eng.writeMem
  split
  · exact h
  · split
    · exact engCanonical_failAccess h ..
    · exact canonical_wrPhys h ..

theorem engCanonical_readScr {g : Eng} (h : EngCanonical g) (a n : Nat) : EngCanonical (g.readScr a n).1 := by
  unfold Eng.readScr
  extract_lets
  split
  · exact h
  · split
    · exact engCanonical_failAccess h ..
    · split
      · exact engCanonical_fail h _
      · exact h

theorem engCanonical_writeScr {g : Eng} (h : EngCanonical g) (a : Nat) (bs : List Byte) : EngCanonical (g.writeScr a bs) := by
  unfold Eng.writeScr
  extract_lets
  split
  · exact h
  · split
    · exact engCanonical_failAccess h ..
    · exact canonical_writeAt h ..

theorem engCanonical_setAcm {g : Eng} (h : EngCanonical g) (w v : Nat) : EngCanonical (g.setAcm w v) :=
  engCanonical_go h fun _ hg => canonical_acmWrite hg ..

theorem engCanonical_incAcm {g : Eng} (h : EngCanonical g) (w : Nat) : EngCanonical (g.incAcm w) := engCanonical_setAcm h ..

theorem engCanonical_object {g : Eng} (h : EngCanonical g) (a : Nat) : EngCanonical (g.object a).1 := by
  unfold Eng.object
  split
  · exact h
  · have hr := canonical_object (xlatOf g.t g.l) h a
    dsimp only
    split
    · exact engCanonical_failWalk (g := { g with s := _ }) hr _
    · split
      · exact hr
      · exact engCanonical_fail (g := { g with s := _ }) hr _

theorem engCanonical_map {g : Eng} (h : EngCanonical g) (a : Nat) (t : Tensor) (pin : Bool) (idx : Nat → Nat) :
    EngCanonical (g.map a t pin idx).1 := by
  unfold Eng.map
  split
  · exact h
  · have hr := canonical_axes (xlatOf g.t g.l) a t idx (List.range t.rank) h
    dsimp only
    split
    · exact engCanonical_failWalk (g := { g with s := _ }) hr _
    · split
      · exact hr
      · exact hr

theorem engCanonical_unitAddr {g : Eng} (h : EngCanonical g) (a : Nat) (t : Tensor) (write : Bool) (idx : Nat → Nat) :
    EngCanonical (g.unitAddr a t write idx).1 := by
  have hr := engCanonical_map h a t true idx
  unfold Eng.unitAddr
  dsimp only
  split
  · exact hr
  · split
    · exact engCanonical_fail hr _
    · split
      · exact engCanonical_fail hr _
      · exact hr

theorem engCanonical_putUnit {g : Eng} (h : EngCanonical g) (base c rows s r j : Nat) (u : Unit_) :
    EngCanonical (g.putUnit base c rows s r j u) :=
  engCanonical_writeScr (engCanonical_writeScr (engCanonical_writeScr h ..) ..) ..

theorem engCanonical_getUnit {g : Eng} (h : EngCanonical g) (base f rows s r j : Nat) :
    EngCanonical (g.getUnit base f rows s r j).1 :=
  engCanonical_readScr (engCanonical_readScr (engCanonical_readScr h ..) ..) ..

/-! ### Moves (R230 to R235) -/

theorem engCanonical_moveUnit (o : CopyOp) (t : Tensor) (idx : Nat → Nat) (q s j : Nat) {g : Eng} (h : EngCanonical g) :
    EngCanonical (Eng.moveUnit o t idx q s j g) := by
  unfold Eng.moveUnit
  extract_lets r
  have hr : EngCanonical r.1 := engCanonical_unitAddr h ..
  split
  · exact hr
  · split
    · split
      · exact hr
      · exact engCanonical_writeMem (engCanonical_getUnit hr ..) ..
    · split
      · exact engCanonical_putUnit hr ..
      · exact engCanonical_go (engCanonical_readMem hr ..) fun _ hg => engCanonical_putUnit hg ..

theorem engCanonical_moveRow (o : CopyOp) (t : Tensor) (idx : Nat → Nat) (q : Nat) {g : Eng} (h : EngCanonical g) :
    EngCanonical (Eng.moveRow o t idx q g) :=
  engCanonical_foldl (fun _ _ hg => engCanonical_foldl (fun _ _ hg => engCanonical_go hg fun _ hg => engCanonical_moveUnit o t idx q _ _ hg) _ hg) _ h

theorem engCanonical_copyTensor {g : Eng} (h : EngCanonical g) (o : CopyOp) : EngCanonical (g.copyTensor o).1 := by
  have hr := engCanonical_object h o.h
  unfold Eng.copyTensor
  dsimp only
  split
  · exact engCanonical_fail hr _
  · exact hr

theorem engCanonical_copy {g : Eng} (h : EngCanonical g) : EngCanonical g.copy :=
  engCanonical_foldl (fun _ _ hg => engCanonical_go hg fun _ hg => engCanonical_moveRow _ _ _ _ hg) _ (engCanonical_copyTensor h _)

theorem engCanonical_copyx {g : Eng} (h : EngCanonical g) : EngCanonical g.copyx := by
  have hr := engCanonical_copyTensor h g.copyOp
  unfold Eng.copyx
  dsimp only
  split
  · exact engCanonical_fail hr _
  · exact engCanonical_foldl (fun _ _ hg => engCanonical_go hg fun _ hg => engCanonical_moveRow _ _ _ _ hg) _ hr

theorem engCanonical_gath {g : Eng} (h : EngCanonical g) : EngCanonical g.gath := by
  unfold Eng.gath
  dsimp only
  split
  · exact engCanonical_fail h _
  · exact engCanonical_foldl (fun _ _ hg => engCanonical_go (engCanonical_readMem hg ..) fun _ hg => engCanonical_writeScr hg ..) _ h

theorem engCanonical_addWord (op addr v : Nat) {g : Eng} (h : EngCanonical g) : EngCanonical (Eng.addWord op addr v g) := by
  unfold Eng.addWord
  split
  · exact engCanonical_failAccess h ..
  · dsimp only
    split
    · exact engCanonical_fail h _
    · exact canonical_atomAt h ..

theorem engCanonical_scatx {g : Eng} (h : EngCanonical g) : EngCanonical g.scatx := by
  unfold Eng.scatx
  extract_lets rb op
  split
  · exact engCanonical_fail h _
  · refine engCanonical_foldl (fun g l hg => ?_) _ h
    extract_lets r a
    have hr : EngCanonical r.1 := engCanonical_readScr hg ..
    split
    · exact engCanonical_writeMem hr ..
    · refine engCanonical_foldl (fun g i hg => ?_) _ hr
      exact engCanonical_go hg fun _ hg => engCanonical_addWord _ _ _ hg

/-! ### The matrix family (R236 to R242) -/

/-- A source of rows keeps the form. -/
def RowsKeep (ra : RowSource) : Prop := ∀ r s g, EngCanonical g → EngCanonical (ra r s g).1

theorem engCanonical_row (base c rows s r : Nat) {g : Eng} (h : EngCanonical g) : EngCanonical (Eng.row base c rows s r g).1 :=
  engCanonical_readScr (engCanonical_readScr h ..) ..

theorem engCanonical_virtRow (u : Unfold) (c m s : Nat) {g : Eng} (h : EngCanonical g) :
    EngCanonical (Eng.virtRow u c m s g).1 := by
  unfold Eng.virtRow
  split
  · exact h
  · dsimp only
    split
    · exact engCanonical_row _ _ _ _ _ h
    · exact engCanonical_fail h _

theorem engCanonical_maskedRow (base bm c rows s r : Nat) {g : Eng} (h : EngCanonical g) :
    EngCanonical (Eng.maskedRow base bm c rows s r g).1 :=
  engCanonical_readScr (engCanonical_row _ _ _ _ _ h) ..

section
variable {ra rb : RowSource} (ha : RowsKeep ra) (hb : RowsKeep rb)
include ha hb

theorem engCanonical_output (p : Product) (r c : Nat) {g : Eng} (h : EngCanonical g) :
    EngCanonical (Eng.output p ra rb r c g).1 := by
  refine engCanonical_pairFoldl (fun q s hq => ?_) _ h
  exact hb _ _ _ (ha _ _ _ hq)

theorem engCanonical_outputs (p : Product) :
    ∀ (ps : List (Nat × Nat)) {g : Eng}, EngCanonical g → EngCanonical (Eng.outputs p ra rb g ps).1
  | [], _, h => h
  | (r, c) :: ps, _, h => engCanonical_outputs p ps (engCanonical_output ha hb p r c h)

theorem engCanonical_tile (p : Product) (list : Option (Nat × Nat)) (j : Nat) (ps : List (Nat × Nat)) {g : Eng} (h : EngCanonical g) :
    EngCanonical (Eng.tile p ra rb list j ps g) := by
  unfold Eng.tile
  refine engCanonical_go (engCanonical_outputs ha hb p ps h) fun g hg => ?_
  have h1 := engCanonical_foldl (fun g (q : Nat × Nat) hg => engCanonical_setAcm hg q.1 q.2) (g.outputs p ra rb ps).2 hg
  refine canonical_modCore ?_ ..
  split
  · exact engCanonical_foldl (fun _ _ hg => engCanonical_setAcm hg ..) _ hg
  · exact canonical_putList (engCanonical_foldl (fun _ _ hg => engCanonical_setAcm hg ..) _ hg) ..

theorem engCanonical_tiles (p : Product) (m : Nat) (list : Option (Nat × Nat)) {g : Eng} (h : EngCanonical g) :
    EngCanonical (Eng.tiles p m ra rb list g) :=
  engCanonical_foldl (fun _ _ hg => engCanonical_go hg fun _ hg => engCanonical_tile ha hb p list _ _ hg) _ h

end

theorem engCanonical_startMt {g : Eng} (h : EngCanonical g) : EngCanonical g.startMt := canonical_modCore h ..

theorem engCanonical_checkList {list : Option (Nat × Nat)} {int8 : Bool} {g : Eng} (h : EngCanonical g) :
    EngCanonical (Eng.checkList list int8 g) := by
  unfold Eng.checkList
  split
  · exact h
  · split
    · exact engCanonical_fail h _
    · exact engCanonical_fail h _
    · generalize (if int8 then 1 else 0 : Nat) = kt
      split
      · exact h
      · exact engCanonical_fail h _

theorem engCanonical_mma {g : Eng} (h : EngCanonical g) : EngCanonical g.mma := by
  unfold Eng.mma
  extract_lets c ta tb p list rb g0 u un
  have h0 : EngCanonical g0 := engCanonical_checkList (engCanonical_startMt h)
  have hb : RowsKeep rb := fun _ _ _ hg => engCanonical_row _ _ _ _ _ hg
  split
  · refine engCanonical_go (engCanonical_readScr h0 ..) fun _ hg => ?_
    split
    · exact engCanonical_tiles (fun _ _ _ hg => engCanonical_virtRow _ _ _ _ hg) hb _ _ _ hg
    · exact engCanonical_fail hg _
  · exact engCanonical_go h0 fun _ hg => engCanonical_tiles (fun _ _ _ hg => engCanonical_row _ _ _ _ _ hg) hb _ _ _ hg

theorem engCanonical_block (ta tb ks : Nat) (w : Nat → Nat) (j : Nat) {g : Eng} (h : EngCanonical g) :
    EngCanonical (Eng.block ta tb ks w j g) := by
  unfold Eng.block
  extract_lets
  split
  · exact engCanonical_fail h _
  · split
    · exact engCanonical_fail h _
    · exact engCanonical_tile (fun _ _ _ hg => engCanonical_row _ _ _ _ _ hg) (fun _ _ _ hg => engCanonical_row _ _ _ _ _ hg) _ _ _ _ h

theorem engCanonical_mmab {g : Eng} (h : EngCanonical g) : EngCanonical g.mmab :=
  engCanonical_foldl (fun _ _ hg => engCanonical_go hg fun _ hg => engCanonical_block _ _ _ _ _ hg) _ (engCanonical_readScr (engCanonical_startMt h) ..)

theorem engCanonical_mmas {g : Eng} (h : EngCanonical g) : EngCanonical g.mmas :=
  engCanonical_go (engCanonical_checkList (engCanonical_startMt h)) fun _ hg =>
    engCanonical_tiles (fun _ _ _ hg => engCanonical_maskedRow _ _ _ _ _ _ hg) (fun _ _ _ hg => engCanonical_maskedRow _ _ _ _ _ _ hg) _ _ _ hg

/-! ### Attention (R243 to R253) -/

theorem engCanonical_slabRows (base c rows ns : Nat) {g : Eng} (h : EngCanonical g) :
    EngCanonical (Eng.slabRows base c rows ns g).1 := by
  refine engCanonical_pairFoldl (fun q r hq => ?_) _ h
  refine engCanonical_pairFoldl (q := (q.1, [])) (fun q s hq => ?_) _ hq
  exact engCanonical_row _ _ _ _ _ hq

theorem engCanonical_attnTensor (a : Nat) (types : List Nat) {g : Eng} (h : EngCanonical g) :
    EngCanonical (Eng.attnTensor a types g).1 := by
  have hr := engCanonical_object h a
  unfold Eng.attnTensor
  extract_lets
  split
  · exact engCanonical_fail hr _
  · exact hr

theorem engCanonical_otherAxes (a : Nat) (t : Tensor) {g : Eng} (h : EngCanonical g) : EngCanonical (Eng.otherAxes a t g) := by
  refine engCanonical_go h fun g hg => ?_
  extract_lets js r g1
  have h1 : EngCanonical g1 := canonical_axes _ _ _ _ _ hg
  split
  · exact engCanonical_failWalk h1 _
  · split
    · exact engCanonical_fail h1 _
    · exact h1

theorem engCanonical_attnIn (o : AttnOp) {g : Eng} (h : EngCanonical g) : EngCanonical (Eng.attnIn o g).1 := by
  unfold Eng.attnIn
  extract_lets k v q p
  have hq : EngCanonical q.1 := engCanonical_slabRows _ _ _ _ (engCanonical_otherAxes _ _ (engCanonical_otherAxes _ _
    (engCanonical_attnTensor _ _ (engCanonical_attnTensor _ _ h))))
  show EngCanonical p.1
  dsimp only [p]
  split
  · exact hq
  · exact engCanonical_readScr hq ..

theorem engCanonical_tokenUnit (a : Nat) (t : Tensor) (tok u : Nat) {g : Eng} (h : EngCanonical g) :
    EngCanonical (Eng.tokenUnit a t tok u g).1 := by
  unfold Eng.tokenUnit
  extract_lets pg r
  have hr : EngCanonical r.1 := engCanonical_map h ..
  split
  · exact hr
  · split
    · exact engCanonical_fail hr _
    · split
      · exact hr
      · split
        · exact hr
        · exact engCanonical_readMem hr ..

theorem engCanonical_tokenRow (a : Nat) (t : Tensor) (ns tok : Nat) {g : Eng} (h : EngCanonical g) :
    EngCanonical (Eng.tokenRow a t ns tok g).1 := by
  refine engCanonical_pairFoldl (fun q s hq => ?_) _ h
  split
  · exact hq
  · refine engCanonical_pairFoldl (q := (q.1, some ([], []))) (fun q j hq => ?_) _ hq
    split
    · exact hq
    · exact engCanonical_tokenUnit _ _ _ _ hq

theorem engCanonical_blockRows (o : AttnOp) (i : AttnIn) (a : Nat) (t : Tensor) (ns lo : Nat) {g : Eng} (h : EngCanonical g) :
    EngCanonical (Eng.blockRows o i a t ns lo g).1 := by
  refine engCanonical_pairFoldl (fun q k hq => ?_) _ h
  split
  · exact hq
  · split
    · exact engCanonical_tokenRow _ _ _ _ hq
    · exact hq

theorem engCanonical_updateRow (o : AttnOp) (r : Nat) (ss : List Nat) (vs : List (List (List FVal))) {g : Eng} (h : EngCanonical g) :
    EngCanonical (Eng.updateRow o r ss vs g) := by
  unfold Eng.updateRow
  extract_lets m m2 al ps l pv g1
  have h1 : EngCanonical g1 := engCanonical_foldl (fun _ _ hg => engCanonical_setAcm hg ..) _ h
  split
  · exact h
  · exact engCanonical_setAcm (engCanonical_setAcm h1 ..) ..

theorem engCanonical_block64 (o : AttnOp) (i : AttnIn) (b : Nat) {g : Eng} (h : EngCanonical g) :
    EngCanonical (Eng.block64 o i b g).1 := by
  unfold Eng.block64
  extract_lets lo k v
  have hv : EngCanonical v.1 := engCanonical_blockRows _ _ _ _ _ _ (engCanonical_blockRows _ _ _ _ _ _ h)
  split
  · exact hv
  · split
    · exact engCanonical_incAcm (engCanonical_foldl (fun _ _ hg => engCanonical_updateRow _ _ _ _ hg) _ hv) _
    · exact hv

theorem engCanonical_takeBlocks (o : AttnOp) (i : AttnIn) (bs : List Nat) {g : Eng} (h : EngCanonical g) :
    EngCanonical (Eng.takeBlocks o i bs g).1 := by
  refine engCanonical_pairFoldl (fun q b hq => ?_) _ h
  split
  · exact hq
  · exact engCanonical_block64 _ _ _ hq

theorem engCanonical_clearStatus (a : Nat) {g : Eng} (h : EngCanonical g) : EngCanonical (Eng.clearStatus a g) := by
  unfold Eng.clearStatus
  refine engCanonical_foldl (fun g j hg => ?_) _ h
  exact engCanonical_setAcm hg ..

theorem engCanonical_attnMain {g : Eng} (h : EngCanonical g) : EngCanonical g.attnMain := by
  unfold Eng.attnMain
  extract_lets o g0 i r
  have h0 : EngCanonical g0 := engCanonical_clearStatus o.acmb h
  clear_value g0
  split
  · exact h0
  · exact engCanonical_takeBlocks _ _ _ (engCanonical_attnIn _ h0)

theorem engCanonical_sinRow (o : AttnOp) (sa c : Nat) (w : List (List (List FVal))) (i : AttnIn) (r : Nat) {g : Eng} (h : EngCanonical g) :
    EngCanonical (Eng.sinRow o sa c w i r g) :=
  engCanonical_setAcm (engCanonical_foldl (fun _ _ hg => engCanonical_setAcm hg ..) _ (engCanonical_setAcm h ..)) ..

theorem engCanonical_sinter (o : AttnOp) (i : AttnIn) {g : Eng} (h : EngCanonical g) : EngCanonical (Eng.sinter o i g) := by
  unfold Eng.sinter
  extract_lets
  split
  · exact engCanonical_fail h _
  · split
    · exact engCanonical_fail h _
    · exact engCanonical_go (engCanonical_slabRows _ _ _ _ h) fun _ hg =>
        engCanonical_foldl (fun _ _ hg => engCanonical_sinRow _ _ _ _ _ _ hg) _ hg

theorem engCanonical_csBlock (o : AttnOp) (i : AttnIn) (ca b : Nat) {g : Eng} (h : EngCanonical g) :
    EngCanonical (Eng.csBlock o i ca b g) := by
  unfold Eng.csBlock
  extract_lets lo k
  have hk : EngCanonical k.1 := engCanonical_blockRows _ _ _ _ _ _ h
  split
  · exact hk
  · refine engCanonical_incAcm (engCanonical_foldl (fun g j hg => ?_) _ hk) _
    split
    · exact engCanonical_setAcm hg ..
    · exact hg

theorem engCanonical_scoreTable (o : AttnOp) (i : AttnIn) (ab : Nat) {g : Eng} (h : EngCanonical g) :
    EngCanonical (Eng.scoreTable o i ab g) := by
  unfold Eng.scoreTable
  extract_lets
  split
  · exact engCanonical_fail h _
  · refine engCanonical_foldl (fun g b hg => ?_) _ h
    split
    · exact hg
    · exact engCanonical_go hg fun _ hg => engCanonical_csBlock _ _ _ _ hg

theorem engCanonical_attnEnd {g : Eng} (h : EngCanonical g) : EngCanonical g.attnEnd := by
  unfold Eng.attnEnd
  extract_lets o i r ab n
  have hr : EngCanonical r.1 := engCanonical_takeBlocks _ _ _ (engCanonical_attnIn _ h)
  split
  · exact h
  · refine engCanonical_go hr fun g hg => ?_
    extract_lets g1 g2 g3 g4
    have h1 : EngCanonical g1 := by
      refine engCanonical_foldl (fun g j hg => ?_) _ hg
      exact engCanonical_setAcm hg ..
    clear_value g1
    have h2 : EngCanonical g2 := engCanonical_setAcm (engCanonical_setAcm h1 ..) ..
    have h4 : EngCanonical g4 := by
      dsimp only [g4, g3]
      split
      · exact engCanonical_setAcm (engCanonical_sinter _ _ h2) ..
      · exact h2
    refine engCanonical_go h4 fun g hg => ?_
    split
    · exact engCanonical_scoreTable _ _ _ hg
    · exact hg

theorem engCanonical_attnfin {g : Eng} (h : EngCanonical g) : EngCanonical g.attnfin := by
  unfold Eng.attnfin
  extract_lets base rows dvs dest dst zero out g1 z
  refine engCanonical_setAcm (engCanonical_setAcm (engCanonical_foldl (fun g r hg => ?_) _ h) ..) ..
  split
  · exact engCanonical_foldl (fun _ _ hg => engCanonical_writeScr hg ..) _ hg
  · exact engCanonical_foldl (fun _ _ hg => engCanonical_setAcm hg ..) _ hg

theorem engCanonical_foldRow (dks dvs sa : Nat) (w : List (List (List FVal))) (x : List (List FVal)) (v : List Nat) {g : Eng} (h : EngCanonical g) :
    EngCanonical (Eng.foldRow dks dvs sa w x v g) := by
  unfold Eng.foldRow
  refine engCanonical_foldl (fun g i hg => ?_) _ (engCanonical_foldl (fun g i hg => ?_) _ h)
  · exact engCanonical_setAcm hg ..
  · exact engCanonical_foldl (fun _ _ hg => engCanonical_setAcm hg ..) _ hg

theorem engCanonical_fold {g : Eng} (h : EngCanonical g) : EngCanonical g.fold := by
  unfold Eng.fold
  extract_lets n dks dvs w k
  have hk : EngCanonical k.1 := engCanonical_slabRows _ _ _ _ (engCanonical_slabRows _ _ _ _ h)
  refine engCanonical_foldl (fun g t hg => engCanonical_go hg fun g hg => ?_) _ hk
  refine engCanonical_go (engCanonical_pairFoldl (q := (g, [])) (fun q s hq => ?_) _ hg) fun _ hg => engCanonical_foldRow _ _ _ _ _ _ hg
  exact engCanonical_readScr hq ..

end Sys2Proof.Proofs.MemoryData
end

section
namespace Sys2Proof.Proofs.MemoryData
open Sys2Proof Sys2Proof.Machine Sys2Proof.Laws Sys2Proof.Safety

/-! ### Axis edits, launches and dispatch by an engine (R254 to R257, R365 to R367) -/

theorem engCanonical_editKey {g : Eng} (h : EngCanonical g) (a n rd : Nat) : EngCanonical (g.editKey a n rd).1 := by
  unfold Eng.editKey
  split
  · exact h
  · split
    · exact engCanonical_failAccess h ..
    · split
      · exact engCanonical_fail h _
      · exact canonical_guardPhys h ..

theorem canonical_shootAll {s : State} (h : Canonical s) (k n c a x : Nat) :
    Canonical (s.shootAll k n c a x) := canonical_same h rfl rfl

theorem engCanonical_axedit {g : Eng} (h : EngCanonical g) : EngCanonical g.axedit := by
  unfold Eng.axedit
  extract_lets hnd j op new o t
  have ho : EngCanonical o.1 := engCanonical_editKey h ..
  split
  · exact engCanonical_fail h _
  · refine engCanonical_go ho fun g hg => ?_
    split
    · exact engCanonical_fail hg _
    · extract_lets r es
      have hr : EngCanonical r.1 := by
        dsimp only [r]
        split
        · exact hg
        · exact engCanonical_editKey hg ..
      refine engCanonical_go hr fun g hg => ?_
      split
      · exact engCanonical_fail hg _
      · extract_lets w
        have hw : EngCanonical w.1 := by
          dsimp only [w]
          split
          · exact hg
          · exact engCanonical_editKey hg ..
        refine engCanonical_go hw fun g hg => ?_
        exact canonical_shootAll (canonical_wrPhys (canonical_wrPhys (canonical_ite hg (canonical_wrPhys hg ..)) ..) ..) ..

theorem canonical_lqAppend {s : State} (h : Canonical s) {n d c : Nat} {segs : SegTable} {w : Bool} {lq r : Nat} {s' : State} :
    s.lqAppend n d c segs w lq r = .ok s' → Canonical s' := by
  unfold State.lqAppend
  split
  · rintro ⟨⟩
  · dsimp only
    split
    · rintro ⟨⟩
    · rintro ⟨⟩
      exact canonical_wrPhys (canonical_wrPhys h ..) ..

theorem engCanonical_engLaunch {g : Eng} (h : EngCanonical g) : EngCanonical g.launch := by
  unfold Eng.launch
  refine engCanonical_go (engCanonical_readMem h ..) fun g hg => ?_
  extract_lets rec_ chain ctx hosted g1 segs
  have h1 : EngCanonical g1 := by
    dsimp only [g1]
    split
    · exact hg
    · exact engCanonical_writeMem hg ..
  split
  · exact engCanonical_fail hg _
  · refine engCanonical_go h1 fun g hg => ?_
    split
    · exact engCanonical_failAccess hg ..
    · next he => exact canonical_lqAppend hg he

theorem engCanonical_route {g : Eng} (h : EngCanonical g) (t x : Nat) : EngCanonical (g.route t x).1 := by
  unfold Eng.route
  extract_lets
  split
  · exact h
  · split
    · exact h
    · split
      · exact h
      · exact engCanonical_readMem h ..

theorem canonical_sendFront {s : State} (h : Canonical s) (n : Nat) (q : SendQ) : Canonical (s.sendFront n q).1 := by
  unfold State.sendFront
  split
  · exact h
  · split
    · exact canonical_foldl (fun _ _ hs => canonical_send hs _) _ h
    · exact canonical_send h _

theorem canonical_sendReadyAll (n : Nat) :
    ∀ (fuel : Nat) (q : SendQ) {s : State}, Canonical s → Canonical (s.sendReadyAll n fuel q).1
  | 0, _, _, h => h
  | fuel + 1, q, s, h => by
    unfold State.sendReadyAll
    split
    · exact canonical_sendReadyAll n fuel _ (canonical_sendFront h ..)
    · exact h

theorem canonical_pumpQueue {s : State} (h : Canonical s) (n d x : Nat) : Canonical (s.pumpQueue n d x) := by
  unfold State.pumpQueue
  split
  · exact h
  · exact canonical_modNode (canonical_sendReadyAll _ _ _ h) ..

theorem canonical_handToken {s : State} (h : Canonical s) (n d x : Nat) (t : Token) : Canonical (s.handToken n d x t) :=
  canonical_pumpQueue (canonical_modNode h ..) ..

theorem engCanonical_dispLane {g : Eng} (h : EngCanonical g) (l : Nat) : EngCanonical (g.dispLane l) := by
  unfold Eng.dispLane
  refine engCanonical_go (engCanonical_route h ..) fun g hg => ?_
  split
  · exact engCanonical_fail hg _
  · split
    · exact engCanonical_fail hg _
    · split
      · exact engCanonical_fail hg _
      · exact engCanonical_go (engCanonical_readScr hg ..) fun _ hg => canonical_handToken hg ..

theorem engCanonical_disp {g : Eng} (h : EngCanonical g) : EngCanonical g.disp := by
  unfold Eng.disp
  extract_lets gen x dl s1
  split
  · exact engCanonical_fail h _
  · refine engCanonical_foldl (fun g l hg => ?_) _ (canonical_ite (canonical_modNode h ..) h : Canonical s1)
    exact engCanonical_go hg fun _ hg => engCanonical_dispLane hg _

/-- The payload of every engine command keeps the form. -/
theorem engCanonical_payload {g : Eng} (h : EngCanonical g) : EngCanonical g.payload := by
  unfold Eng.payload
  split
  · exact engCanonical_copy h
  · exact engCanonical_copyx h
  · exact engCanonical_gath h
  · exact engCanonical_scatx h
  · exact engCanonical_mma h
  · exact engCanonical_mmab h
  · exact engCanonical_mmas h
  · exact engCanonical_attnMain h
  · exact engCanonical_attnfin h
  · exact engCanonical_fold h
  · exact engCanonical_disp h
  · exact engCanonical_axedit h
  · exact h
  · exact engCanonical_engLaunch h

/-! ### Streams: start, completion, failure (R217 to R229, R341) -/

theorem canonical_lowerOf {s : State} (h : Canonical s) (c : Cmd) : Canonical (s.lowerOf c) := by
  unfold State.lowerOf
  split
  · exact canonical_same h rfl rfl
  · exact h

theorem canonical_mapJoin {s : State} (h : Canonical s) (n : Nat) (f : Cmd → Option Cmd) :
    Canonical (s.mapJoin n f) := canonical_same h rfl rfl

theorem canonical_settleJoin {s : State} (h : Canonical s) {q : StreamRef} {s' : State} (he : s.settleJoin q = some s') :
    Canonical s' := by
  obtain ⟨c, -, rfl⟩ := Option.map_eq_some_iff.mp he
  exact canonical_mapJoin (canonical_lowerOf h c) ..

theorem canonical_haltJoins {s : State} (h : Canonical s) (cs : List Cmd) : Canonical (s.haltJoins cs) := by
  refine canonical_foldl (fun s c hs => ?_) cs h
  split
  · exact hs
  · exact canonical_mapJoin (canonical_lowerOf hs c) ..

theorem canonical_retireAll (ts : List TeamRef) {s : State} (h : Canonical s) :
    Canonical (ts.foldl (fun s t => s.checkRetire t) s) :=
  canonical_foldl (fun _ _ hs => canonical_checkRetire hs _) ts h

theorem canonical_resetStream {s : State} (h : Canonical s) (q : StreamRef) : Canonical (s.resetStream q) := by
  unfold State.resetStream
  extract_lets st s1 s2 s3
  have h1 : Canonical s1 := canonical_foldl (fun _ _ hs => canonical_lowerOf hs _) _ h
  have h2 : Canonical s2 := canonical_foldl (fun _ _ hs => canonical_mapJoin hs ..) _ h1
  exact canonical_retireAll _ (canonical_putStream h2 _)

theorem canonical_failCmd {s : State} (h : Canonical s) (q : StreamRef) (g : Eng) (st : Nat) : Canonical (s.failCmd q g st) :=
  canonical_checkRetire (canonical_haltJoins (canonical_putStream (canonical_lowerOf (canonical_publish h ..) _) _) _) _

theorem canonical_resetPublished {s : State} (h : Canonical s) (r : Record) : Canonical (s.resetPublished r) :=
  canonical_foldl (fun _ _ hs => canonical_resetStream hs _) _ h

theorem canonical_droppedWord {s : State} (h : Canonical s) (g : Eng) (c d : Nat) : Canonical (s.droppedWord g c d) :=
  canonical_ite (canonical_worldNotice (canonical_publish h ..) ..) (canonical_publish h ..)

theorem canonical_scrWord {s : State} (h : Canonical s) (g : Eng) (t : Team) (off v : Nat) : Canonical (s.scrWord g t off v) := by
  unfold State.scrWord
  split
  · exact canonical_droppedWord h ..
  · exact canonical_writeAt h ..

theorem canonical_signal {s : State} (h : Canonical s) (g : Eng) : Canonical (s.signal g) := by
  unfold State.signal
  extract_lets
  split
  · split
    · exact canonical_same h rfl rfl
    · exact h
  · exact canonical_scrWord h ..
  · exact canonical_scrWord h ..
  · split
    · exact canonical_scrWord h ..
    · exact h
  · split
    · exact canonical_wrPhys h ..
    · exact canonical_droppedWord h ..
    · exact canonical_send h _
  · exact h

theorem canonical_putCmd {s : State} (h : Canonical s) (q : StreamRef) (c : Cmd) :
    Canonical (s.putCmd q c) := canonical_putStream h _

/-- The engine of a command works on the state as it stands. -/
theorem engOf_state {s : State} {c : Cmd} {g : Eng} : s.engOf c = some g → g.s = s := by
  unfold State.engOf
  split
  · rintro ⟨⟩; rfl
  · rintro ⟨⟩

theorem startable_state {s : State} {q : StreamRef} {g : Eng} : s.startable q = some g → g.s = s := by
  unfold State.startable
  extract_lets
  split
  · rintro ⟨⟩
  · split
    · rintro ⟨⟩
    · split
      · rintro ⟨⟩
      · split
        · rintro ⟨⟩
        · next he =>
          split
          · rintro ⟨⟩
          · rintro ⟨⟩; exact engOf_state he

theorem canonical_engineStart {s : State} (h : Canonical s) (q : StreamRef) : Canonical (s.engineStart q) := by
  unfold State.engineStart
  split
  · exact h
  · next g hg =>
    have hp : EngCanonical g.payload := engCanonical_payload (show Canonical g.s from startable_state hg ▸ h)
    split
    · exact canonical_putCmd h ..
    · split
      · exact h
      · exact canonical_putCmd hp ..

theorem canonical_passPins {s : State} (h : Canonical s) (g : Eng) : Canonical (s.passPins g) := by
  unfold State.passPins
  split
  · exact h
  · exact canonical_same h rfl rfl

theorem canonical_finishCmd {s : State} (h : Canonical s) (q : StreamRef) (g : Eng) : Canonical (s.finishCmd q g) :=
  canonical_checkRetire (canonical_passPins (canonical_putStream (canonical_signal h g) _) g) _

theorem canonical_engineComplete {s : State} (h : Canonical s) (q : StreamRef) : Canonical (s.engineComplete q) := by
  unfold State.engineComplete
  split
  · next he => exact canonical_retireAll _ (canonical_settleJoin h he)
  · extract_lets
    split
    · exact h
    · split
      · exact h
      · split
        · next g _ hg =>
          have he : EngCanonical g.attnEnd := engCanonical_attnEnd (show Canonical g.s from engOf_state hg ▸ h)
          split
          · exact h
          · split
            · exact h
            · split
              · exact canonical_ite (canonical_finishCmd he ..) (canonical_failCmd he ..)
              · exact canonical_finishCmd h ..
        · exact canonical_failCmd h ..
        · exact h

theorem canonical_shootArrive {s : State} (h : Canonical s) (i : Nat) : Canonical (s.shootArrive i) := by
  unfold State.shootArrive
  split
  · exact h
  · exact canonical_same h rfl rfl

theorem canonical_shootAck {s : State} (h : Canonical s) (i : Nat) : Canonical (s.shootAck i) := by
  unfold State.shootAck
  split
  · exact h
  · split
    · exact canonical_same h rfl rfl
    · exact h

theorem canonical_retireWait {s : State} (h : Canonical s) (q : StreamRef) : Canonical (s.retireWait q) := by
  unfold State.retireWait
  split
  · exact h
  · exact canonical_ite (canonical_modNode h ..) h

/-! ### Placement (R277 to R292) -/

theorem canonical_claimCore {s : State} (h : Canonical s) (n d c sp : Nat) (w : Bool) (mt : Nat × Nat) :
    Canonical (s.claimCore n d c sp w mt) := by
  unfold State.claimCore
  split
  · exact canonical_same h rfl rfl
  · exact canonical_ite (canonical_modCore h ..) h

theorem canonical_spreadRegion {s : State} (h : Canonical s) (n : Nat) (r : Region) :
    Canonical (s.spreadRegion n r) := canonical_same h rfl rfl

/-- A team is loaded with the bytes that it holds. -/
theorem canonical_loadAt {s : State} (h : Canonical s) {t : Team} (ht : t.scratch.wf = true ∧ t.acm.wf = true) (l : Launch) (c : Nat)
    (p : List (Nat × Nat × Nat)) : Canonical (s.loadAt t l c p) := by
  unfold State.loadAt
  extract_lets region segs n s1 s2
  have hc := canonical_claimCore h l.node l.die c l.kernel.split t.world t.mt
  have h1 : Canonical s1 := canonical_spreadRegion (canonical_setLaunch hc { l with region := region }) l.node region
  clear_value s1 segs n
  have h2 : Canonical s2 := canonical_setTeam (s := s1) h1 ht
  clear_value s2
  exact canonical_same h2 rfl rfl

theorem canonical_startTeam {s : State} (h : Canonical s) (t : Team) : Canonical (s.startTeam t) := by
  refine canonical_ite (canonical_resumeTeam (canonical_modTeam h _ ?_) _) h
  exact fun _ hm => hm

theorem canonical_placeAt {s : State} (h : Canonical s) {t : Team} (ht : t.scratch.wf = true ∧ t.acm.wf = true) (l : Launch) (c : Nat)
    (p : List (Nat × Nat × Nat)) : Canonical (s.placeAt t l c p) := canonical_startTeam (canonical_loadAt h ht l c p) t

theorem canonical_placeAll (n : Nat) (hold : Bool) : ∀ (rs : List TeamRef) {s s' : State}, Canonical s →
    s.placeAll n hold rs = some s' → Canonical s'
  | [], _, _, h => by rintro ⟨⟩; exact h
  | r :: rs, s, s', h => by
    unfold State.placeAll
    split
    · next ht _ =>
      have h0 := team?_wf h ht
      extract_lets l t
      have hw : t.scratch.wf = true ∧ t.acm.wf = true := h0
      clear_value t
      split
      · rintro ⟨⟩
      · exact canonical_placeAll n hold rs (canonical_ite (canonical_loadAt h hw ..) (canonical_placeAt h hw ..))
    · rintro ⟨⟩

theorem canonical_tryPlace {s : State} (h : Canonical s) {t : TeamRef} {s' : State} : s.tryPlace t = some s' → Canonical s' := by
  unfold State.tryPlace
  split
  · split
    · exact canonical_placeAll _ _ _ h
    · rintro ⟨⟩
  · rintro ⟨⟩

theorem canonical_preemptUnit {s : State} (h : Canonical s) (r : Nat) (t : TeamRef) : Canonical (s.preemptUnit r t) := by
  unfold State.preemptUnit
  split
  · refine canonical_ite h (canonical_newImage (canonical_foldl (fun s (u : Team) hs => ?_) _ h) ..)
    exact canonical_saveTeam hs _
  · exact h

theorem canonical_preemptUntil (r : Nat) (t : TeamRef) :
    ∀ (vs : List TeamRef) {s : State}, Canonical s → Canonical (s.preemptUntil r t vs)
  | [], _, h => h
  | v :: vs, s, h => by
    have h1 := canonical_preemptUnit h r v
    unfold State.preemptUntil
    dsimp only
    split
    · next he => exact canonical_tryPlace h1 he
    · exact canonical_preemptUntil r t vs h1

theorem canonical_placement {s : State} (h : Canonical s) (t : TeamRef) : Canonical (s.placement t) := by
  unfold State.placement
  split
  · next he => exact canonical_tryPlace h he
  · split
    · exact h
    · exact canonical_ite (canonical_preemptUntil _ _ _ h) h

theorem canonical_deficitPreempt {s : State} (h : Canonical s) (n d c : Nat) : Canonical (s.deficitPreempt n d c) := by
  unfold State.deficitPreempt
  split
  · split
    · exact h
    · split
      · next he => exact canonical_tryPlace h he
      · exact canonical_preemptUntil _ _ _ h
  · exact h

theorem canonical_getD {s : State} (h : Canonical s) {o : Option State} (ho : ∀ s', o = some s' → Canonical s') :
    Canonical (o.getD s) := by
  cases o with
  | none => exact h
  | some s' => exact ho s' rfl

theorem canonical_forcePreempt {s : State} (h : Canonical s) (t : TeamRef) : Canonical (s.forcePreempt t) := by
  unfold State.forcePreempt
  split
  · split
    · exact h
    · split
      · next he => exact canonical_tryPlace h he
      · split
        · exact h
        · extract_lets s1
          have h1 : Canonical s1 := canonical_foldl (fun _ _ hs => canonical_preemptUnit hs ..) _ h
          exact canonical_getD h1 fun _ => canonical_tryPlace h1
  · exact h

/-! ### Launch queues (R269 to R272) -/

theorem canonical_accept {s : State} (h : Canonical s) (l : Launch) (g : Option GangSched) : Canonical (s.accept l g) := by
  unfold State.accept
  extract_lets isGang s1 runs s2
  have h1 : Canonical s1 := by
    dsimp only [s1]
    split
    · exact h
    · exact canonical_ite h (canonical_modNode h ..)
  have h2 : Canonical s2 := canonical_spreadRegion (canonical_same h1 rfl rfl) l.node l.region
  exact canonical_orKeep h2 l fun _ => canonical_seqWrite h2

theorem canonical_seqNotice {s : State} (h : Canonical s) (n r : Nat) (x : Except (Nat × Nat × Bool) Nat) :
    Canonical (s.seqNotice n r x) := by
  unfold State.seqNotice
  split
  · exact canonical_worldNotice h ..
  · exact h

theorem canonical_reject {s : State} (h : Canonical s) (n c a : Nat) (r : LaunchRec) (segs : SegTable) (region : Region) (st : Nat) :
    Canonical (s.reject n c a r segs region st) := by
  unfold State.reject
  extract_lets rcb s0 w s1
  have h0 : Canonical s0 := canonical_foldl (fun _ _ hs => canonical_seqNotice hs ..) _ h
  have h1 : Canonical s1 := by
    dsimp only [s1, w]
    split
    · exact canonical_wrPhys h0 ..
    · exact canonical_seqNotice h0 ..
  exact canonical_publish h1 ..

theorem canonical_launchTake {s : State} (h : Canonical s) (n c : Nat) : Canonical (s.launchTake n c) := by
  unfold State.launchTake
  split
  · exact h
  · extract_lets s1 s2
    have h1 : Canonical s1 := by
      dsimp only [s1]
      split
      · exact canonical_wrPhys h ..
      · exact h
    have h2 : Canonical s2 := canonical_same h1 rfl rfl
    split
    · exact canonical_accept h2 ..
    · exact canonical_reject h2 ..

/-! ### The fabric (R356 to R370) -/

theorem canonical_answerTo {s : State} (h : Canonical s) (p : Packet) (f : Pend → Pend) : Canonical (s.answerTo p f) := by
  unfold State.answerTo
  split
  · exact h
  · exact canonical_same h rfl rfl

theorem canonical_answerHost {s : State} (h : Canonical s) (p : Packet) (op : RemoteOp) (v : Nat) (po w : Bool) :
    Canonical (s.answerHost p op v po w) := by
  unfold State.answerHost
  split
  · exact h
  · exact canonical_same h rfl rfl

theorem canonical_answerOp {s : State} (h : Canonical s) (p : Packet) (op : RemoteOp) (v : Nat) (po w : Bool) :
    Canonical (s.answerOp p op v po w) := by
  unfold State.answerOp
  split
  · exact canonical_answerHost h ..
  · split
    · exact canonical_answerTo h ..
    · exact canonical_answerTo h ..
    · exact canonical_answerTo h ..
    · exact h

theorem canonical_refuse {s : State} (h : Canonical s) (p : Packet) (op : RemoteOp) (c d : Nat) :
    Canonical (s.refuse p op c d) := by
  unfold State.refuse
  extract_lets s1
  have h1 : Canonical s1 := canonical_ite (canonical_worldNotice h ..) h
  split
  · exact canonical_publish h1 ..
  · exact canonical_publish h1 ..
  · exact canonical_answerOp h1 ..

theorem canonical_markPoison {s : State} (h : Canonical s) (k n : Nat) : Canonical (s.markPoison k n) := canonical_same h rfl rfl

theorem canonical_respond {s : State} (h : Canonical s) (p : Packet) (op : RemoteOp) (v : Nat) (po : Bool) :
    Canonical (s.respond p op v po) :=
  canonical_ite (canonical_answerOp h ..) (canonical_answerOp h ..)

/-- A request performed at its target keeps the form (R361, R362). -/
theorem canonical_perform {s : State} (h : Canonical s) (p : Packet) (op : RemoteOp) : Canonical (s.perform p op) := by
  unfold State.perform
  split
  · exact canonical_refuse h ..
  · next k _ =>
    have h1 := canonical_guardPhys h k op.size
    dsimp only
    split
    · exact canonical_respond h1 ..
    · exact canonical_wrPhys h1 ..
    · exact canonical_markPoison (canonical_wrPhys h1 ..) ..
    · exact canonical_wrPhys h1 ..
    · exact canonical_ite (canonical_answerOp h1 ..) (canonical_respond (canonical_atomAt h1 ..) ..)
    · split
      · exact canonical_answerOp h1 ..
      · split
        · exact canonical_refuse h1 ..
        · exact canonical_ite (canonical_answerOp h1 ..) (canonical_respond (canonical_ringOp h1 ..) ..)

theorem canonical_losePacket {s : State} (h : Canonical s) (p : Packet) : Canonical (s.losePacket p) := by
  unfold State.losePacket
  split
  · exact h
  · exact canonical_answerOp h ..

theorem canonical_afterPacket {s : State} (h : Canonical s) (p : Packet) : Canonical (s.afterPacket p) := by
  unfold State.afterPacket
  split
  · exact h
  · exact canonical_checkRetire h _

theorem canonical_reachTarget {s : State} (h : Canonical s) (p : Packet) : Canonical (s.reachTarget p) := by
  unfold State.reachTarget
  split
  · exact h
  · exact canonical_ite (canonical_losePacket (canonical_dropPacket h _) _) (canonical_perform (canonical_dropPacket h _) ..)

theorem canonical_remoteAccess {s : State} (h : Canonical s) (r : RemoteReq) : Canonical (s.remoteAccess r) := by
  unfold State.remoteAccess
  split
  · unfold State.remotePacket
    split
    · exact h
    · exact canonical_ite h (canonical_afterPacket (canonical_foldl (fun _ _ hs => canonical_reachTarget hs _) _ h) _)
  · exact canonical_ite h (canonical_send h _)

theorem canonical_failStream {s : State} (h : Canonical s) (st : FabStream) : Canonical (s.failStream st) := by
  unfold State.failStream
  split
  · exact h
  · extract_lets lost parties s1 s2 s3
    have h1 : Canonical s1 := canonical_same h rfl rfl
    have h2 : Canonical s2 := canonical_foldl (fun _ _ hs => canonical_losePacket hs _) _ h1
    have h3 : Canonical s3 := canonical_foldl (fun _ _ hs => canonical_publish hs ..) _ h2
    exact canonical_foldl (fun _ _ hs => canonical_afterPacket hs _) _ (canonical_bump h3 ..)

theorem canonical_expire {s : State} (h : Canonical s) (n : Nat) : Canonical (s.expire n) := by
  unfold State.expire
  split
  · exact h
  · exact canonical_ite (canonical_failStream (canonical_bump h ..) _) h

theorem canonical_sendTimeout {s : State} (h : Canonical s) (n d x : Nat) : Canonical (s.sendTimeout n d x) := by
  unfold State.sendTimeout
  split
  · exact h
  · exact canonical_ite h (canonical_modNode (canonical_sendFront h ..) ..)

/-! ### Delivery of tokens (R367, R368) -/

theorem canonical_tokenRefused {s : State} (h : Canonical s) (t : Token) (n : Nat) : Canonical (s.tokenRefused t n) :=
  canonical_publish (canonical_bump h ..) ..

theorem canonical_tokenFault {s : State} (h : Canonical s) (t : Token) (n c d : Nat) : Canonical (s.tokenFault t n c d) :=
  canonical_tokenRefused (canonical_ite (canonical_worldNotice h ..) h) ..

theorem canonical_tokenTooBig {s : State} (h : Canonical s) (t : Token) (n : Nat) : Canonical (s.tokenTooBig t n) := by
  unfold State.tokenTooBig
  extract_lets
  split
  · exact canonical_bump h ..
  · exact canonical_publish (canonical_bump h ..) ..

/-- The state that delivering a token leaves is canonical, if it leaves one. -/
def DeliveredCanonical : Delivered → Prop
  | .done s => Canonical s
  | .full => True

theorem deliveredCanonical_deliverToken {s : State} (h : Canonical s) (n : Nat) (t : Token) :
    DeliveredCanonical (s.deliverToken n t) := by
  unfold State.deliverToken
  extract_lets key
  split
  · exact canonical_tokenFault h ..
  · split
    · exact canonical_tokenFault h ..
    · dsimp only
      split
      · exact canonical_tokenTooBig h ..
      · split
        · exact canonical_tokenFault h ..
        · split
          · trivial
          · exact canonical_ringPub (canonical_wrPhys (canonical_ringRsv h ..) ..) ..

theorem canonical_deliverAll (n : Nat) : ∀ (ts : List Token) {s : State}, Canonical s → Canonical (s.deliverAll n ts).1
  | [], _, h => h
  | t :: ts, s, h => by
    have ht := deliveredCanonical_deliverToken h n t
    unfold State.deliverAll
    split
    · exact h
    · next he =>
      rw [he] at ht
      exact canonical_deliverAll n ts ht

theorem canonical_setBlocked {s : State} (h : Canonical s) (n d x : Nat) (b : Bool) :
    Canonical (s.setBlocked n d x b) := canonical_modNode h ..

theorem canonical_acceptGen {s : State} (h : Canonical s) (n c g : Nat) : Canonical (s.acceptGen n c g).1 := by
  unfold State.acceptGen
  split
  · exact h
  · extract_lets
    split
    · exact canonical_bump h ..
    · split
      · exact h
      · exact canonical_modNode h ..

theorem canonical_assemble {s : State} (h : Canonical s) (st : FabStream) (ts : List Token) : Canonical (s.assemble st ts).1 := by
  unfold State.assemble
  extract_lets
  split
  · exact h
  · split
    · exact canonical_modNode h ..
    · exact canonical_modNode h ..

theorem canonical_receive {s : State} (h : Canonical s) (n : Nat) : Canonical (s.receive n) := by
  unfold State.receive
  split
  · exact h
  · extract_lets st a b r s1
    have ha : Canonical a.1 := canonical_acceptGen (canonical_dropPacket h _) ..
    have hr : Canonical r.1 := canonical_deliverAll _ _ (canonical_assemble ha ..)
    have h1 : Canonical s1 := canonical_setBlocked hr ..
    split
    · exact h
    · split
      · exact canonical_dropPacket h _
      · split
        · exact h
        · split
          · exact canonical_modNode ha ..
          · split
            · exact hr
            · exact canonical_same h1 rfl rfl

theorem canonical_retryDelivery {s : State} (h : Canonical s) (i : Nat) : Canonical (s.retryDelivery i) := by
  unfold State.retryDelivery
  split
  · exact h
  · extract_lets r
    have hr : Canonical r.1 := canonical_deliverAll _ _ h
    split
    · exact h
    · split
      · refine canonical_pumpQueue (canonical_setBlocked ?_ ..) ..
        exact canonical_same hr rfl rfl
      · exact canonical_same hr rfl rfl

/-! ### Fault records (R339) -/

/-- What putting a record in a ring answers keeps the form: the record may be lost, and the ring may be full. -/
def RecordCanonical : Option (State × Bool) → Prop
  | none => True
  | some q => Canonical q.1

theorem recordCanonical_some {s : State} (h : Canonical s) (b : Bool) : RecordCanonical (some (s, b)) := h

theorem RecordCanonical.of_some {o : Option (State × Bool)} {q : State × Bool} (h : RecordCanonical o) (he : o = some q) :
    Canonical q.1 := by
  rwa [he] at h

theorem recordCanonical_recordPut {s : State} (h : Canonical s) (n ring : Nat) (r : Record) :
    RecordCanonical (s.recordPut n ring r) := by
  unfold State.recordPut
  extract_lets res
  split
  · trivial
  · split
    · trivial
    · extract_lets slog slot q
      split
      · exact recordCanonical_some h _
      · split
        · trivial
        · refine recordCanonical_some ?_ _
          exact canonical_ringPub (canonical_wrPhys (canonical_ringRsv h ..) ..) ..

theorem canonical_placeRecord {s : State} (h : Canonical s) (n f : Nat) : Canonical (s.placeRecord n f) := by
  unfold State.placeRecord
  split
  · exact h
  · split
    · exact h
    · dsimp only
      split
      · exact canonical_resetPublished (canonical_modNode (canonical_bump h ..) ..) _
      · split
        · exact canonical_resetPublished (canonical_modNode (canonical_bump h ..) ..) _
        · next he =>
          have hr := (recordCanonical_recordPut h ..).of_some he
          exact canonical_ite (canonical_resetPublished (canonical_modNode hr ..) _) h

/-! ### Barriers of a launch (R204, R369) -/

theorem canonical_barrierArrival {s : State} (h : Canonical s) (i : Nat) : Canonical (s.barrierArrival i) := by
  unfold State.barrierArrival
  split
  · exact h
  · extract_lets s1 b n ts others
    have h1 : Canonical s1 := canonical_same h rfl rfl
    split
    · exact h
    · split
      · exact canonical_failStream (canonical_bump h1 ..) _
      · split
        · exact h1
        · split
          · exact canonical_bump h1 ..
          · split
            · exact canonical_same h1 rfl rfl
            · exact canonical_same h1 rfl rfl

theorem canonical_releaseAt {s : State} (h : Canonical s) (b : HwBarrier) (m : Team) (off : Nat) :
    Canonical (s.releaseAt b m off) := by
  unfold State.releaseAt
  extract_lets st
  split
  · exact h
  · split
    · exact canonical_failStream (canonical_bump h ..) _
    · exact canonical_ite (canonical_bump h ..) (canonical_setBarWord h ..)

theorem canonical_barrierRelease {s : State} (h : Canonical s) (i : Nat) : Canonical (s.barrierRelease i) := by
  unfold State.barrierRelease
  split
  · exact h
  · split
    · exact h
    · split
      · exact canonical_same h rfl rfl
      · extract_lets s1
        have h1 : Canonical s1 := canonical_ite (canonical_same h rfl rfl) (canonical_same h rfl rfl)
        split
        · exact h1
        · exact canonical_releaseAt h1 ..

/-! ### Waves that wait, and gangs (R150, R152, R289, R350 to R352) -/

theorem canonical_boost {s : State} (h : Canonical s) (r : WaveRef) : Canonical (s.boost r) := by
  unfold State.boost
  split
  · exact h
  · exact canonical_ite (canonical_modWave h ..) h

theorem canonical_yieldExpire {s : State} (h : Canonical s) (r : WaveRef) : Canonical (s.yieldExpire r) := by
  unfold State.yieldExpire
  split
  · exact h
  · exact canonical_ite (canonical_modWave h ..) h

theorem canonical_rotate {s : State} (h : Canonical s) (r : WaveRef) : Canonical (s.rotate r) := by
  unfold State.rotate
  split
  · exact canonical_ite h (canonical_modWave h ..)
  · exact h

theorem canonical_budgetExpire {s : State} (h : Canonical s) (n r : Nat) : Canonical (s.budgetExpire n r) := by
  unfold State.budgetExpire
  split
  · exact h
  · split
    · exact h
    · extract_lets
      split
      · exact h
      · split
        · exact canonical_ite h (canonical_publish (canonical_modCtx h ..) ..)
        · exact canonical_ite h (canonical_publish (canonical_modSave (canonical_preemptCtx h ..) ..) ..)

theorem canonical_releaseGang {s : State} (h : Canonical s) (n g : Nat) : Canonical (s.releaseGang n g) := by
  unfold State.releaseGang
  extract_lets s1
  have h1 : Canonical s1 := canonical_same h rfl rfl
  exact canonical_foldl (fun _ _ hs => canonical_startTeam hs _) _ h1

theorem canonical_loadGang {s : State} (h : Canonical s) (n g : Nat) : Canonical (s.loadGang n g) := by
  refine canonical_foldl (fun s l hs => ?_) _ h
  exact canonical_getD hs fun _ => canonical_placeAll _ _ _ hs

theorem canonical_unloadGang {s : State} (h : Canonical s) (n g : Nat) : Canonical (s.unloadGang n g) := by
  refine canonical_teams h rfl fun m hm => ?_
  obtain ⟨u, hu, rfl⟩ := List.mem_map.mp hm
  refine ⟨u, hu, ?_⟩
  split
  · exact ⟨rfl, rfl⟩
  · exact ⟨rfl, rfl⟩

theorem canonical_modGang {s : State} (h : Canonical s) (n : Nat) (f : GangNode → GangNode) :
    Canonical (s.modGang n f) := canonical_modNode h ..

theorem canonical_sliceBoundary {s : State} (h : Canonical s) (n : Nat) : Canonical (s.sliceBoundary n) := by
  unfold State.sliceBoundary
  split
  · exact h
  · split
    · exact canonical_modGang h ..
    · exact canonical_ite h (canonical_modGang (canonical_loadGang (canonical_newImage (canonical_saveLaunches h _) ..) ..) ..)

theorem canonical_rootArrive {s : State} (h : Canonical s) (r : GangRoot) (n : Nat) :
    Canonical (s.rootArrive r n) := canonical_same h rfl rfl

theorem canonical_gangArrive {s : State} (h : Canonical s) (n g : Nat) : Canonical (s.gangArrive n g) := by
  unfold State.gangArrive
  split
  · exact h
  · extract_lets fresh sent
    have hs : Canonical sent := canonical_modGang h ..
    split
    · exact canonical_rootArrive hs ..
    · split
      · exact canonical_ite (canonical_bump hs ..) (canonical_rootArrive hs ..)
      · split
        · exact canonical_ite (canonical_rootArrive hs ..) h
        · exact canonical_bump hs ..

theorem canonical_gangAbort {s : State} (h : Canonical s) : Canonical s.gangAbort := by
  unfold State.gangAbort
  split
  · exact h
  · split
    · exact canonical_same h rfl rfl
    · exact h

theorem canonical_gangLate {s : State} (h : Canonical s) (n g : Nat) (l : Option Launch) : Canonical (s.gangLate n g l) := by
  cases l with
  | none => exact canonical_publish h ..
  | some l => exact canonical_publish h ..

theorem canonical_gangDecide {s : State} (h : Canonical s) (n : Nat) : Canonical (s.gangDecide n) := by
  unfold State.gangDecide
  split
  · split
    · exact h
    · split
      · exact h
      · extract_lets s2 s2' s3
        have h2 : Canonical s2 := canonical_modGang h ..
        have h3 : Canonical s3 := by
          dsimp only [s3]
          split
          · exact canonical_unloadGang h2 ..
          · exact canonical_releaseGang (canonical_unloadGang h2 ..) ..
        exact canonical_ite (canonical_releaseGang h2 ..) (canonical_gangLate h3 ..)
  · exact h

/-! ### Boot and reset (R356, R378 to R380) -/

theorem canonical_tryBoot {s : State} (h : Canonical s) (n : Nat) : Canonical (s.tryBoot n) := by
  unfold State.tryBoot
  extract_lets
  split
  · exact h
  · exact canonical_ite (canonical_modNode h ..) h

theorem canonical_clearNode {s : State} (h : Canonical s) (n : Nat) : Canonical (s.clearNode n) :=
  canonical_filterTeams (p := fun t => t.node != n) h rfl rfl

/-! ### Management, the debugger and the loader (R346 to R355, R363, R374, R381) -/

theorem canonical_manage {s : State} (h : Canonical s) (m : Mgmt) (c : Nat) (early : Bool) {f : State → Node → Answer}
    (hf : ∀ d, Canonical (f s d).s) : Canonical (s.manage m c early f) := by
  have hr (a : Answer) (ha : Canonical a.s) : Canonical (State.reply a m c) := canonical_same ha rfl rfl
  unfold State.manage
  split
  · exact h
  · split
    · split
      · exact canonical_bump h ..
      · refine hr _ ?_
        split
        · exact hf _
        · exact h
    · exact canonical_ite (hr _ (hf _)) (canonical_bump h ..)

theorem canonical_withMode {s : State} (h : Canonical s) (m : Mgmt) (b : Nat) {f : Unit → Answer} (hf : Canonical (f ()).s) :
    Canonical (s.withMode m b f).s := by
  unfold State.withMode
  split
  · exact h
  · exact h
  · exact hf

theorem canonical_peerSet {s : State} (h : Canonical s) (n c lo hi : Nat) : Canonical (s.peerSet n c lo hi).s := by
  unfold State.peerSet
  split
  · exact h
  · extract_lets p s1
    have h1 : Canonical s1 := canonical_modNode h ..
    split
    · exact h1
    · split
      · exact canonical_modCtx h1 ..
      · exact canonical_same h1 rfl rfl

theorem canonical_fdomSet {s : State} (h : Canonical s) (n d r : Nat) : Canonical (s.fdomSet n d r).s := by
  unfold State.fdomSet
  split
  · exact h
  · exact canonical_modNode h ..

theorem canonical_routeSet {s : State} (h : Canonical s) (m : Mgmt) (d c : Nat) (r : RouteArg) :
    Canonical (s.routeSet m d c r).s := by
  unfold State.routeSet
  split
  · exact h
  · split
    · split
      · exact h
      · exact canonical_modNode h ..
    · split
      · exact h
      · exact canonical_withMode h m 18 (canonical_modNode h ..)

theorem canonical_gangSched {s : State} (h : Canonical s) (m : Mgmt) (bs : List Byte) : Canonical (s.gangSched m bs).s := by
  unfold State.gangSched
  refine canonical_withMode h m 17 ?_
  split
  · exact h
  · exact canonical_modGang h ..

theorem canonical_queueReset {s : State} (h : Canonical s) (m : Mgmt) (q : StreamRef) : Canonical (s.queueReset m q).s := by
  unfold State.queueReset
  refine canonical_withMode h m 19 ?_
  split
  · exact canonical_resetStream h q
  · exact h

theorem canonical_dropSave {s : State} (h : Canonical s) (n : Nat) : Canonical (s.dropSave n) := canonical_same h rfl rfl

theorem canonical_resumeFrame {s : State} (h : Canonical s) (w : Wave) (n : Nat) (f : Frame) : Canonical (s.resumeFrame w n f) := by
  have h1 := canonical_dropSave h n
  unfold State.resumeFrame
  dsimp only
  split
  · split
    · exact canonical_takeTrap (canonical_setWave h1 _) ..
    · split
      · split
        · exact canonical_takeTrap (canonical_setWave h1 _) ..
        · next he => exact canonical_setWave (canonical_resumeGroup h1 he) _
      · exact canonical_setWave h1 _
  · exact h1

theorem canonical_endFrame {s : State} (h : Canonical s) (w : Wave) (n : Nat) : Canonical (s.endFrame w n) :=
  canonical_endIfDone (canonical_setWave (canonical_dropSave h n) _) _

theorem canonical_releaseCtx {s : State} (h : Canonical s) (n c : Nat) : Canonical (s.releaseCtx n c) := canonical_same h rfl rfl

theorem canonical_holdGangs {s : State} (h : Canonical s) (n : Nat) : Canonical (s.holdGangs n) := by
  unfold State.holdGangs
  split
  · exact h
  · exact canonical_same h rfl rfl

theorem canonical_ctxResume {s : State} (h : Canonical s) (n c : Nat) : Canonical (s.ctxResume n c).s := by
  unfold State.ctxResume
  split
  · exact h
  · split
    · exact h
    · exact canonical_modCtx (canonical_holdGangs (canonical_releaseCtx (canonical_dropSave h _) ..) _) ..

theorem canonical_ctxDestroy {s : State} (h : Canonical s) (n c : Nat) : Canonical (s.ctxDestroy n c).s := by
  unfold State.ctxDestroy
  split
  · exact h
  · extract_lets mine ofStream s1 s2
    have h2 : Canonical s2 := canonical_filterTeams (p := fun t => !mine t.ref) h rfl rfl
    exact canonical_modNode h2 ..

theorem canonical_memAccess {s : State} (h : Canonical s) (m : Mgmt) (d : Node) (a n : Nat) (data : Option (List Byte)) :
    Canonical (s.memAccess m d a n data).s := by
  unfold State.memAccess
  extract_lets
  split
  · exact h
  · split
    · exact h
    · split
      · exact canonical_worldNotice h ..
      · split
        · exact h
        · exact canonical_ite (canonical_tryBoot (canonical_wrPhys h ..) _) (canonical_wrPhys h ..)

theorem canonical_stopWave {s : State} (h : Canonical s) (r : WaveRef) : Canonical (s.stopWave r) := by
  unfold State.stopWave
  split
  · exact h
  · exact canonical_setWave (canonical_dropLoads h r) _

theorem canonical_debug {s : State} (h : Canonical s) (m : Mgmt) {f : State → Answer} (hf : Canonical (f s).s) :
    Canonical (s.debug m f) :=
  canonical_manage h m 0x0A false fun _ => canonical_withMode h m 21 hf

theorem canonical_debugStop {s : State} (h : Canonical s) (m : Mgmt) (rs : List WaveRef) : Canonical (s.debugStop m rs) := by
  unfold State.debugStop
  split
  · exact canonical_same h rfl rfl
  · refine canonical_debug h m ?_
    split
    · exact canonical_foldl (fun _ _ hs => canonical_stopWave hs _) rs h
    · exact h

theorem canonical_unstopWave {s : State} (h : Canonical s) (r : WaveRef) : Canonical (s.unstopWave r) := by
  unfold State.unstopWave
  split
  · split
    · exact h
    · exact canonical_ite (canonical_resumeWave (canonical_setWave h _) ..) (canonical_setWave h _)
  · exact h

theorem canonical_setEntries {s : State} (h : Canonical s) (w : Wave) (es : List Pend) : Canonical (s.setEntries w es) := by
  unfold State.setEntries
  split
  · exact canonical_modSave h ..
  · exact canonical_setWave h _

theorem canonical_setMtDone {s : State} (h : Canonical s) {w : Wave} {v : Nat} {s' : State} :
    s.setMtDone w v = some s' → Canonical s' := by
  unfold State.setMtDone
  extract_lets
  split
  · rintro ⟨⟩
  · intro he
    obtain ⟨t, -, rfl⟩ := Option.map_eq_some_iff.mp he
    split
    · exact canonical_modCore h ..
    · refine canonical_modTeam h _ ?_
      exact fun _ hm => hm

theorem canonical_setCsr {s : State} (h : Canonical s) {w : Wave} {n l v : Nat} {s' : State} :
    s.setCsr w n l v = some s' → Canonical s' := by
  unfold State.setCsr
  split
  · exact canonical_setMtDone h
  · intro he
    obtain ⟨u, -, rfl⟩ := Option.map_eq_some_iff.mp he
    exact canonical_setWave h u

/-- A write of the debugger to any of its items keeps the form (R355). -/
theorem canonical_debugWrite {s : State} (h : Canonical s) {i : DebugItem} {v : Nat} {s' : State} :
    s.debugWrite i v = some s' → Canonical s' := by
  have one {c : Prop} [Decidable c] {u : State} (hu : Canonical u) : (if c then some u else none) = some s' → Canonical s' := by
    split
    · rintro ⟨⟩; exact hu
    · rintro ⟨⟩
  cases i with
  | vreg | kreg | xreg | preds =>
    intro he
    obtain ⟨w, -, he⟩ := Option.bind_eq_some_iff.mp he
    exact one (canonical_setWave h _) he
  | csr r n lane =>
    intro he
    obtain ⟨w, -, he⟩ := Option.bind_eq_some_iff.mp he
    split at he
    · exact canonical_setCsr h he
    · cases he
  | replay r e lane word =>
    intro he
    obtain ⟨w, -, he⟩ := Option.bind_eq_some_iff.mp he
    obtain ⟨t, -, he⟩ := Option.bind_eq_some_iff.mp he
    obtain ⟨l, -, he⟩ := Option.bind_eq_some_iff.mp he
    exact one (canonical_setEntries h ..) he
  | scratch t off =>
    intro he
    obtain ⟨m, -, he⟩ := Option.bind_eq_some_iff.mp he
    obtain ⟨l, -, he⟩ := Option.bind_eq_some_iff.mp he
    exact one (canonical_writeAt h ..) he
  | acm t word =>
    intro he
    obtain ⟨m, -, he⟩ := Option.bind_eq_some_iff.mp he
    obtain ⟨l, -, he⟩ := Option.bind_eq_some_iff.mp he
    exact one (canonical_acmWrite h ..) he

theorem canonical_spdm {s : State} (h : Canonical s) (m : Mgmt) (msg : List Byte) (f : Node → SpdmRes) :
    Canonical (s.spdm m msg f) := by
  refine canonical_manage h m 0x0C false fun d => ?_
  extract_lets
  split
  · exact h
  · exact canonical_modNode h ..

theorem canonical_writeSections (n : Nat) (t : SegTable) : ∀ (xs : List (Section × Nat)) {s : State}, Canonical s →
    Canonical (s.writeSections n t xs)
  | [], _, h => h
  | _ :: xs, _, h => canonical_writeSections n t xs (canonical_ite (canonical_wrPhys h ..) h)

theorem canonical_loadReply {s : State} (h : Canonical s) (n st : Nat) : Canonical (s.loadReply n st) := canonical_same h rfl rfl

theorem canonical_loaderPlace {s : State} (h : Canonical s) (q : LoadReq) : Canonical (s.loaderPlace q) := by
  unfold State.loaderPlace
  split
  · exact canonical_loadReply h ..
  · extract_lets
    split
    · exact canonical_loadReply h ..
    · extract_lets text s1 old
      have h0 : Canonical { s with freeCtr := s.freeCtr + 1 } := canonical_same h rfl rfl
      have h1 : Canonical s1 := canonical_writeSections _ _ _ h0
      split
      · exact canonical_same h rfl rfl
      · refine canonical_loadReply ?_ ..
        exact canonical_same h1 rfl rfl

end Sys2Proof.Proofs.MemoryData
end

/-! ## Instructions, events and the step keep the canonical form (log 1) -/

section
namespace Sys2Proof.Proofs.MemoryData
open Sys2Proof Sys2Proof.Machine Sys2Proof.Laws Sys2Proof.Safety

/-- An outcome that goes on goes on from a canonical state. -/
def OutcomeCanonical (o : Host.Outcome State Fault Refusal) : Prop := ∀ s, o = .next s → Canonical s

theorem outcomeCanonical_settle {s : State} (h : Canonical s) : OutcomeCanonical (settle s) := by
  intro t ht
  obtain ⟨-, rfl⟩ := settle_next.mp ht
  exact h

theorem outcomeCanonical_after {o : Host.Outcome State Fault Refusal} (ho : OutcomeCanonical o) : OutcomeCanonical (after o) := by
  intro t ht
  obtain ⟨s, hs, rfl⟩ := after_next.mp ht
  exact canonical_tick (ho s hs)

/-! ### Shapes of instructions -/

theorem outcomeCanonical_issue {wave : Env → Effect} {span : SpanEnv → SpanRes} (hw : BodyKeeps wave) (hs : SpanKeeps span) {s : State}
    (h : Canonical s) (x : Option Ex) (word : Word) : OutcomeCanonical (settle (issue wave span x word s)) :=
  outcomeCanonical_settle (canonical_issue hw hs h x word)

theorem outcomeCanonical_runLx {f : LxIn → LxOut} (hf : LxKeeps f) {s : State} (h : Canonical s) (x : Option Ex) (word : Word) :
    OutcomeCanonical (settle (runLx f x word s)) := outcomeCanonical_issue (keeps_lxWave noRank hf) keeps_waveOnly h x word

theorem outcomeCanonical_runSwc {f : State → Team → Nat → Nat → Nat → State × SwcReply} (hf : ServiceKeeps f) {s : State} (h : Canonical s)
    (x : Option Ex) (word : Word) : OutcomeCanonical (settle (runSwc f x word s)) :=
  outcomeCanonical_issue (keeps_swcWave hf) keeps_waveOnly h x word

theorem keeps_svcVersion : ServiceKeeps svcVersion := fun _ _ _ _ _ h => h

/-! ### Instructions and events with a choice of their own -/

theorem outcomeCanonical_execHalt {s : State} (h : Canonical s) (x : Option Ex) (i : R7) : OutcomeCanonical (execHalt x i s) := by
  have h1 := canonical_issue keeps_haltWave keeps_waveOnly h x (wordOf (.halt x i))
  refine outcomeCanonical_settle ?_
  split
  · exact canonical_ite (canonical_haltCtx h1 ..) h1
  · exact h1

theorem outcomeCanonical_execWaveResume {s : State} (h : Canonical s) (m : Mgmt) (r : WaveRef) :
    OutcomeCanonical (execWaveResume m r s) := by
  refine outcomeCanonical_settle (canonical_manage h m 6 false fun d => ?_)
  split
  · exact h
  · exact canonical_resumeFrame h ..

theorem outcomeCanonical_execWaveEnd {s : State} (h : Canonical s) (m : Mgmt) (r : WaveRef) :
    OutcomeCanonical (execWaveEnd m r s) := by
  refine outcomeCanonical_settle (canonical_manage h m 7 false fun d => ?_)
  split
  · exact h
  · exact canonical_endFrame h ..

theorem outcomeCanonical_execDebugRead {s : State} (h : Canonical s) (m : Mgmt) (i : DebugItem) :
    OutcomeCanonical (execDebugRead m i s) := by
  refine outcomeCanonical_settle (canonical_debug h m ?_)
  split
  · exact h
  · exact h

theorem outcomeCanonical_execDebugWrite {s : State} (h : Canonical s) (m : Mgmt) (i : DebugItem) (v : Nat) :
    OutcomeCanonical (execDebugWrite m i v s) := by
  refine outcomeCanonical_settle (canonical_debug h m ?_)
  split
  · exact h
  · next he => exact canonical_debugWrite h (Option.ite_none_right_eq_some.mp he).2

theorem outcomeCanonical_execDebugResume {s : State} (h : Canonical s) (m : Mgmt) (rs : List WaveRef) :
    OutcomeCanonical (execDebugResume m rs s) := by
  refine outcomeCanonical_settle (canonical_debug h m ?_)
  split
  · exact canonical_foldl (fun _ _ hs => canonical_unstopWave hs _) rs h
  · exact h

/-! ### Instructions, events and steps -/

/-- Every instruction and every event keeps the form. -/
theorem outcomeCanonical_exec {s : State} (h : Canonical s) (i : Instr) : OutcomeCanonical (exec i s) := by
  cases i with
  | iadd | isub | imul | imulh | imad | iaddc | isubb | imin | imax | iabs | ineg | and | or | xor | andn | shl | shr | sar
  | rol | popc | clz | brev | bfx | bfi | lea | bpick | fadd | fsub | fmul | ffma | fmin | fmax | fclass | fcpys | hadd2
  | hmul2 | hfma2 | hmax2 | cvt | frnd | sel | ldi | ldiHi => exact outcomeCanonical_issue (keeps_aluWave _) (keeps_aluSpan _) h _ _
  | frcp | frsq | fsqrt | fexp2 | flog2 | fsin | fcos | ftanh =>
    exact outcomeCanonical_issue (keeps_lxWave _ (keeps_sfuLx _)) (keeps_aluSpan _) h _ _
  | cvtq => exact outcomeCanonical_issue (keeps_cvtqWave _ _ _) keeps_waveOnly h _ _
  | icmp | fcmp => exact outcomeCanonical_issue (keeps_cmpWave _) (keeps_cmpSpan _) h _ _
  | pset => exact outcomeCanonical_issue (keeps_psetWave _) (keeps_psetSpan _) h _ _
  | pmovGet => exact outcomeCanonical_issue keeps_pmovGetWave keeps_waveOnly h _ _
  | pmovSet => exact outcomeCanonical_issue keeps_pmovSetWave keeps_waveOnly h _ _
  | mov => exact outcomeCanonical_issue keeps_movWave keeps_movSpan h _ _
  | movk => exact outcomeCanonical_issue keeps_movkWave keeps_waveOnly h _ _
  | shfl => exact outcomeCanonical_runLx keeps_shflLx h _ _
  | shflx => exact outcomeCanonical_runLx keeps_shflxLx h _ _
  | vote => exact outcomeCanonical_runLx keeps_voteLx h _ _
  | redux => exact outcomeCanonical_runLx keeps_reduxLx h _ _
  | scan => exact outcomeCanonical_runLx keeps_scanLx h _ _
  | rbal => exact outcomeCanonical_runLx keeps_rbalLx h _ _
  | bin => exact outcomeCanonical_runLx keeps_binLx h _ _
  | mrg => exact outcomeCanonical_runLx keeps_mrgLx h _ _
  | sortk => exact outcomeCanonical_runLx keeps_sortkLx h _ _
  | bra | call => exact outcomeCanonical_issue (keeps_braWave _) (keeps_braSpan _) h _ _
  | brx | ret => exact outcomeCanonical_issue keeps_brxWave keeps_brxSpan h _ _
  | nop => exact outcomeCanonical_issue keeps_nopWave keeps_nopSpan h _ _
  | join => exact outcomeCanonical_issue keeps_joinWave keeps_joinSpan h _ _
  | exit => exact outcomeCanonical_settle (canonical_afterExit (canonical_issue keeps_exitWave keeps_exitSpan h ..) ..)
  | yield => exact outcomeCanonical_issue keeps_yieldWave keeps_nopSpan h _ _
  | trap | bkpt => exact outcomeCanonical_issue (keeps_codeTrap _) keeps_waveOnly h _ _
  | form => exact outcomeCanonical_issue keeps_formWave keeps_formSpan h _ _
  | matl => exact outcomeCanonical_issue keeps_matlWave keeps_waveOnly h _ _
  | unif => exact outcomeCanonical_issue keeps_unifWave keeps_unifSpan h _ _
  | wbase => exact outcomeCanonical_issue keeps_wbaseWave keeps_waveOnly h _ _
  | wquota => exact outcomeCanonical_issue keeps_wquotaWave keeps_waveOnly h _ _
  | work => exact outcomeCanonical_issue (keeps_lxWave _ keeps_workLx) keeps_workSpan h _ _
  | idx => exact outcomeCanonical_issue keeps_idxWave keeps_waveOnly h _ _
  | ldg | lds | lda => exact outcomeCanonical_issue (keeps_lxWave _ (keeps_loadLx _)) (keeps_loadSpan _) h _ _
  | stg | stc => exact outcomeCanonical_runLx (keeps_storeLx _) h _ _
  | sts | sta => exact outcomeCanonical_issue (keeps_lxWave _ (keeps_storeLx _)) (keeps_storeSpan _) h _ _
  | ldc => exact outcomeCanonical_runLx (keeps_loadLx _) h _ _
  | ldt => exact outcomeCanonical_issue (keeps_lxWave _ keeps_ldtLx) keeps_waveOnly h _ _
  | stt => exact outcomeCanonical_issue (keeps_lxWave _ keeps_sttLx) keeps_waveOnly h _ _
  | ldu => exact outcomeCanonical_issue (keeps_lxWave _ keeps_lduLx) (keeps_loadSpan _) h _ _
  | stw => exact outcomeCanonical_runLx keeps_stwLx h _ _
  | stwb => exact outcomeCanonical_runLx keeps_stwbLx h _ _
  | pref => exact outcomeCanonical_runLx keeps_prefLx h _ _
  | atomg | atoms | atomc | redg => exact outcomeCanonical_runLx (keeps_atomLx _ _) h _ _
  | rgrsv | rgpub | rgtake | rgfree => exact outcomeCanonical_runLx (keeps_ringLx _) h _ _
  | txbegin => exact outcomeCanonical_issue keeps_txbeginWave keeps_waveOnly h _ _
  | orelse => exact outcomeCanonical_issue keeps_orelseWave keeps_waveOnly h _ _
  | txend => exact outcomeCanonical_issue keeps_txendWave keeps_waveOnly h _ _
  | retry => exact outcomeCanonical_issue keeps_retryWave keeps_waveOnly h _ _
  | orend => exact outcomeCanonical_issue keeps_orendWave keeps_waveOnly h _ _
  | txabort => exact outcomeCanonical_issue keeps_txabortWave keeps_waveOnly h _ _
  | txstat => exact outcomeCanonical_issue keeps_txstatWave keeps_waveOnly h _ _
  | acq | rel => exact outcomeCanonical_issue (keeps_seqWave _) keeps_waveOnly h _ _
  | fence => exact outcomeCanonical_issue keeps_fenceWave keeps_waveOnly h _ _
  | arrive => exact outcomeCanonical_issue keeps_arriveWave keeps_waveOnly h _ _
  | bind => exact outcomeCanonical_issue keeps_bindWave keeps_waveOnly h _ _
  | barinit => exact outcomeCanonical_issue keeps_barinitWave keeps_waveOnly h _ _
  | rgdef => exact outcomeCanonical_issue keeps_rgdefWave keeps_waveOnly h _ _
  | rkinit => exact outcomeCanonical_issue keeps_rkinitWave keeps_waveOnly h _ _
  | rkthr => exact outcomeCanonical_issue keeps_rkthrWave keeps_waveOnly h _ _
  | pthr => exact outcomeCanonical_issue keeps_pthrWave keeps_waveOnly h _ _
  | rkpush => exact outcomeCanonical_runLx keeps_rkpushLx h _ _
  | rkmerge => exact outcomeCanonical_issue keeps_rkmergeWave keeps_waveOnly h _ _
  | rkread => exact outcomeCanonical_issue keeps_rkreadWave keeps_waveOnly h _ _
  | copy | copyx | gath | scatx | mma | mmab | mmas | attn | attnfin | fold | disp | axedit | axsync | launch =>
    exact outcomeCanonical_issue keeps_cxWave keeps_waveOnly h _ _
  | waitf => exact outcomeCanonical_issue keeps_waitfWave keeps_waveOnly h _ _
  | qfence => exact outcomeCanonical_issue keeps_qfenceWave keeps_waveOnly h _ _
  | csrr => exact outcomeCanonical_issue keeps_csrrWave keeps_csrrSpan h _ _
  | csrw => exact outcomeCanonical_issue keeps_nopWave keeps_waveOnly h _ _
  | csrwSstat => exact outcomeCanonical_issue keeps_sstatWave keeps_waveOnly h _ _
  | csrwBnd => exact outcomeCanonical_issue keeps_bndWave keeps_waveOnly h _ _
  | tret => exact outcomeCanonical_settle (canonical_afterExit (canonical_issue keeps_tretWave keeps_waveOnly h ..) ..)
  | replay => exact outcomeCanonical_issue keeps_replayWave keeps_waveOnly h _ _
  | rqdrop => exact outcomeCanonical_issue keeps_rqdropWave keeps_waveOnly h _ _
  | halt => exact outcomeCanonical_execHalt h _ _
  | version => exact outcomeCanonical_runSwc keeps_svcVersion h _ _
  | regionSet => exact outcomeCanonical_runSwc keeps_svcRegionSet h _ _
  | regionGet => exact outcomeCanonical_runSwc keeps_svcRegionGet h _ _
  | sfdomSet => exact outcomeCanonical_runSwc keeps_svcSfdomSet h _ _
  | measure => exact outcomeCanonical_runSwc keeps_svcMeasure h _ _
  | extend => exact outcomeCanonical_runSwc keeps_svcExtend h _ _
  | random => exact outcomeCanonical_runSwc keeps_svcRandom h _ _
  | powerRead => exact outcomeCanonical_runSwc keeps_svcPower h _ _
  | time => exact outcomeCanonical_issue keeps_timeWave keeps_timeSpan h _ _
  | unassignedMajor | reservedFnValue | reservedOperandValue | exMisuse => exact outcomeCanonical_settle (canonical_raiseWord h ..)
  | lxComplete => exact outcomeCanonical_settle (canonical_lxComplete h ..)
  | launchTake => exact outcomeCanonical_settle (canonical_launchTake h ..)
  | teamPlacement => exact outcomeCanonical_settle (canonical_placement h _)
  | deficitPreempt => exact outcomeCanonical_settle (canonical_deficitPreempt h ..)
  | forceprePreempt => exact outcomeCanonical_settle (canonical_forcePreempt h _)
  | waveBoost => exact outcomeCanonical_settle (canonical_boost h _)
  | yieldExpiry => exact outcomeCanonical_settle (canonical_yieldExpire h _)
  | fallbackRotation => exact outcomeCanonical_settle (canonical_rotate h _)
  | waitingBudgetExpiry => exact outcomeCanonical_settle (canonical_budgetExpire h ..)
  | engineCommandStart => exact outcomeCanonical_settle (canonical_engineStart h _)
  | engineCommandComplete => exact outcomeCanonical_settle (canonical_engineComplete h _)
  | shootDown => exact outcomeCanonical_settle (canonical_shootArrive h _)
  | shootDownAcknowledge => exact outcomeCanonical_settle (canonical_shootAck h _)
  | faultRecord => exact outcomeCanonical_settle (canonical_placeRecord h ..)
  | remoteAccess => exact outcomeCanonical_settle (canonical_remoteAccess h _)
  | fabricStreamFail => exact outcomeCanonical_settle (canonical_failStream h _)
  | packetLifetimeExpiry => exact outcomeCanonical_settle (canonical_expire h _)
  | hwBarrierArrival => exact outcomeCanonical_settle (canonical_barrierArrival h _)
  | hwBarrierRelease => exact outcomeCanonical_settle (canonical_barrierRelease h _)
  | sendQueueTimeout => exact outcomeCanonical_settle (canonical_sendTimeout h ..)
  | dispatchPacketReceive => exact outcomeCanonical_settle (canonical_receive h _)
  | deliveryRetry => exact outcomeCanonical_settle (canonical_retryDelivery h _)
  | generationRetireWait => exact outcomeCanonical_settle (canonical_retireWait h _)
  | gangSliceBoundary => exact outcomeCanonical_settle (canonical_sliceBoundary h _)
  | gangBarrierArrival => exact outcomeCanonical_settle (canonical_gangArrive h ..)
  | gangAbort => exact outcomeCanonical_settle (canonical_gangAbort h)
  | gangDecision => exact outcomeCanonical_settle (canonical_gangDecide h _)
  | peerSet => exact outcomeCanonical_settle (canonical_manage h _ 1 false fun _ => canonical_peerSet h ..)
  | fdomSet => exact outcomeCanonical_settle (canonical_manage h _ 2 false fun _ => canonical_fdomSet h ..)
  | routeSet => exact outcomeCanonical_settle (canonical_manage h _ 3 false fun _ => canonical_routeSet h ..)
  | gangSched => exact outcomeCanonical_settle (canonical_manage h _ 4 false fun _ => canonical_gangSched h ..)
  | queueReset => exact outcomeCanonical_settle (canonical_manage h _ 5 false fun _ => canonical_queueReset h ..)
  | waveResume => exact outcomeCanonical_execWaveResume h _ _
  | waveEnd => exact outcomeCanonical_execWaveEnd h _ _
  | ctxResume => exact outcomeCanonical_settle (canonical_manage h _ 8 false fun _ => canonical_ctxResume h ..)
  | ctxDestroy => exact outcomeCanonical_settle (canonical_manage h _ 9 false fun _ => canonical_ctxDestroy h ..)
  | debugStop => exact outcomeCanonical_settle (canonical_debugStop h ..)
  | debugRead => exact outcomeCanonical_execDebugRead h _ _
  | debugWrite => exact outcomeCanonical_execDebugWrite h _ _ _
  | debugResume => exact outcomeCanonical_execDebugResume h _ _
  | counters => exact outcomeCanonical_settle (canonical_manage h _ 0x0B false fun _ => h)
  | enable => exact outcomeCanonical_settle (canonical_manage h _ 0x0D true fun _ => h)
  | mem => exact outcomeCanonical_settle (canonical_manage h _ 0x0E true fun _ => canonical_memAccess h ..)
  | getVersion | getCapabilities | negotiateAlgorithms | getDigests | getCertificate | challenge | getMeasurements
  | unsupportedRequest => exact outcomeCanonical_settle (canonical_spdm h ..)
  | deviceReset => exact outcomeCanonical_settle (canonical_tryBoot (canonical_clearNode h _) _)
  | loaderPlace => exact outcomeCanonical_settle (canonical_loaderPlace h _)
  | wakeWithoutCause => exact outcomeCanonical_settle (canonical_same h rfl rfl)
  | swcUnknownService => exact outcomeCanonical_runSwc (fun _ _ _ _ _ hs => hs) h _ _
  | unknownManagementCode => exact outcomeCanonical_settle (canonical_manage h _ _ false fun _ => h)

/-- The choice of who acts touches the rotation alone (log 2). -/
theorem canonical_choose {s : State} (h : Canonical s) : Canonical s.choose.1 := by
  unfold State.choose
  split
  · exact canonical_same h rfl rfl
  · split
    · exact canonical_same h rfl rfl
    · exact canonical_same h rfl rfl

theorem outcomeCanonical_step {s : State} (h : Canonical s) : OutcomeCanonical (step s) := by
  have h1 := canonical_choose h
  unfold step
  split
  · next hc =>
    rw [hc] at h1
    exact outcomeCanonical_after (outcomeCanonical_exec h1 _)
  · next s1 p hc =>
    rw [hc] at h1
    split
    · have h2 : Canonical { s1 with cur := p } := canonical_same h1 rfl rfl
      exact outcomeCanonical_after (outcomeCanonical_exec (canonical_guardPhys h2 ..) _)
    · exact outcomeCanonical_after (outcomeCanonical_settle (canonical_fetchTrap h1 ..))
    · exact outcomeCanonical_after (outcomeCanonical_settle h1)
  · next hc =>
    rw [hc] at h1
    exact outcomeCanonical_after (outcomeCanonical_settle h1)

/-- Settles O52, as an invariant of every instruction, every event and the passing of time. -/
theorem memoryStaysCanonical : Obligations.MemoryStaysCanonical := by
  intro s s' h hs
  exact outcomeCanonical_step h s' hs

end Sys2Proof.Proofs.MemoryData
end

/-! ## Family 02: number formats

What every instruction of lanes shares: how a wave goes on. -/

section
namespace Sys2Proof.Proofs.NumberFormats
open Sys2Proof Sys2Proof.Machine Sys2Proof.Laws Sys2Proof.Safety Sys2Proof.Claims

/-! ### Lists over the lanes -/

/-- An element of a list over the lanes is its lane's. -/
theorem getD_map_lanes {α : Type} (f : Nat → α) (d : α) {l : Nat} (hl : l < 32) : (lanes.map f).getD l d = f l := by
  have hn : (lanes.map f)[l]? = some (f l) := by
    rw [List.getElem?_map, lanes_eq, List.getElem?_range' (by simpa using hl)]
    simp
  rw [List.getD_eq_getElem?_getD, hn, Option.getD_some]

/-- A mask that is not empty has a first lane, which it holds. -/
theorem head_maskLanes_mem {m : Mask} (h : m ≠ 0) : m.getLsbD ((maskLanes m).headD 0) = true := by
  cases e : maskLanes m with
  | nil =>
    refine absurd (BitVec.eq_of_getLsbD_eq fun l hl => ?_) h
    have hm : l ∉ maskLanes m := by rw [e]; exact List.not_mem_nil
    simpa using hm
  | cons a ls => exact mem_maskLanes.mp (by rw [e]; simp)

/-! ### A wave that goes on (R59, R60, R68, R152)

Whatever an instruction computes in its registers and predicates, its issue leaves the same beside. -/

/-- An issue leaves of another wave all but the mark of YIELD. -/
theorem passIssue_eq (v : Wave) (r : WaveRef) (b : Bool) : ∃ y, v.passIssue r b = { v with yielded := y } := by
  unfold Wave.passIssue
  split
  · exact ⟨v.yielded, rfl⟩
  · split
    · exact ⟨v.yielded, rfl⟩
    · exact ⟨_, rfl⟩

theorem passIssue_ref (v : Wave) (r : WaveRef) (b : Bool) : (v.passIssue r b).ref = v.ref := by
  obtain ⟨y, hy⟩ := passIssue_eq v r b
  rw [hy]

theorem otherWave_passIssue (v : Wave) (r q : WaveRef) (b : Bool) : otherWave q (v.passIssue r b) = otherWave q v := by
  obtain ⟨y, hy⟩ := passIssue_eq v r b
  rw [hy]; rfl

theorem otherWave_replace (w v : Wave) : otherWave w.ref (if v.ref == w.ref then w else v) = otherWave w.ref v := by
  unfold otherWave
  by_cases h : v.ref = w.ref <;> simp [h]

@[simp] theorem geo_noteIssue (s : State) (w v : Wave) (t : Team) : (noteIssue s w t).geo v = s.geo v := rfl

/-- The issuing wave is still found after its issue has been noted. -/
theorem wave?_noteIssue_isSome {s : State} {w : Wave} (t : Team) (h : s.wave? w.ref = some w) :
    ((noteIssue s w t).wave? w.ref).isSome = true := by
  obtain ⟨hr, hm⟩ := List.find?_some h, List.mem_of_find?_eq_some h
  rw [State.wave?, List.find?_isSome]
  exact ⟨_, List.mem_map_of_mem hm, by rwa [passIssue_ref]⟩

/-- A wave that takes the issuing wave's place is the one change that an issue makes in the machine. -/
theorem onlyWave_setWave_noteIssue {s : State} {w v : Wave} (t : Team) (hw : s.wave? w.ref = some w) (hv : v.ref = w.ref) :
    OnlyWave s ((noteIssue s w t).setWave v) w v := by
  refine ⟨rfl, ?_, ?_, fun _ => rfl⟩
  · obtain ⟨u, hu⟩ := Option.isSome_iff_exists.mp (wave?_noteIssue_isSome t hw)
    rw [wave?_setWave, if_pos hv, hu, Option.map_some]
  · show List.map _ (List.map _ (List.map _ s.waves)) = _
    rw [List.map_map, List.map_map]
    refine List.map_congr_left fun u _ => ?_
    show otherWave w.ref (if _ then v else _) = _
    rw [← hv, otherWave_replace, otherWave_passIssue]

/-- A wave of which an instruction has changed registers and predicates alone. -/
def OnlyRegs (w v : Wave) : Prop := v = { w with v := v.v, x := v.x, k := v.k, preds := v.preds }

theorem onlyRegs_withView (w : Wave) (u : View) : OnlyRegs w (w.withView u) := rfl

/-- The group that has issued stands at the next instruction, every other item where it stood. -/
theorem pcOf_goneOn (s : State) (w v : Wave) (x : Option Ex) (before : Nat) {l : Nat} (hl : l < 32) :
    (goneOn s w v x false before).pcOf l = if w.exec.getLsbD l then nextPc w x else v.pcOf l :=
  getD_map_lanes (fun l => if w.exec.getLsbD l then nextPc w x else v.pcOf l) 0 hl

/-- Such a wave goes on as R59, R60 and R68 say. -/
theorem goesOn_goneOn {s : State} {w v : Wave} (x : Option Ex) (t : Team) (h : OnlyRegs w v) :
    GoesOn s x w (goneOn (noteIssue s w t) w v x false s.nextNum) := by
  rw [OnlyRegs] at h
  refine ⟨?_, fun l hl => ?_, ?_⟩
  · rw [WaveFrame, goneOn, h]; rfl
  · rw [pcOf_goneOn _ _ _ _ _ (mem_lanes.mp hl), h]; rfl
  · rw [h]
    simp only [goneOn, countWindows, Wave.setPc, counted, decide_eq_true_eq, Bool.false_eq_true, if_false]

/-- An instruction whose body changes only registers and predicates, and traps no item, leaves those as its body does, and all else as
going on does. -/
theorem issue_goesOn {body : Env → Effect} {x : Option Ex} {word : Word} {s : State} {w v : Wave} {t : Team} {l : Launch}
    (span : SpanEnv → SpanRes) (hi : Issues s x word w t l) (hc : Clean s x word w)
    (hb : body ⟨noteIssue s w t, w, t, l, x, word, w.active x⟩ = .done (noteIssue s w t) v [] false) (hv : OnlyRegs w v) :
    ∃ s' w', settle (issue body span x word s) = .next s' ∧ OnlyWave s s' w w' ∧ GoesOn s x w w' ∧ w'.v = v.v ∧ w'.x = v.x ∧ w'.k = v.k ∧
      w'.preds = v.preds := by
  obtain ⟨hs, hcur, hw, ht, hl, hchk, htx, hr, hbp⟩ := hi
  obtain ⟨ha, hq, hp, -⟩ := hc
  have he : issue body span x word s = (noteIssue s w t).setWave (goneOn (noteIssue s w t) w v x false s.nextNum) := by
    unfold issue
    rw [hcur]
    exact issueWave_done hw ht hl hchk htx hr hbp ha hq hp hb
  refine ⟨_, _, ?_, onlyWave_setWave_noteIssue t hw ?_, goesOn_goneOn x t hv, rfl, rfl, rfl, rfl⟩
  · rw [he]
    exact settle_next.mpr ⟨hs, rfl⟩
  · show v.ref = w.ref
    rw [hv]

end Sys2Proof.Proofs.NumberFormats
end

/-! ## Operands of lane instructions -/

section
namespace Sys2Proof.Proofs.NumberFormats
open Sys2Proof Sys2Proof.Machine Sys2Proof.Laws Sys2Proof.Safety Sys2Proof.Claims

/-! ### What the model reads in an operand field (R10, R15, R19, R81) -/

/-- The model's two's complement is that of bit vectors. -/
theorem toSigned_eq_toInt (n : Nat) : toSigned 32 n = (BitVec.ofNat 32 n).toInt := by
  rw [BitVec.toInt_eq_toNat_cond, BitVec.toNat_ofNat]
  rfl

theorem ofInt_eq_toNat (n : Nat) (e : Int) : ofInt n e = (BitVec.ofInt n e).toNat := by
  rw [BitVec.toNat_ofInt]; rfl

/-- A form holds a 32-bit value in each lane. -/
theorem form_at_lt (f : Form) (ix : Sel → Nat → Nat) (l : Nat) : f.at ix l < 2 ^ 32 := by
  cases f with
  | u b => exact b.isLt
  | a b s sel => exact Nat.mod_lt _ (by decide)
  | alo b s sel => exact Nat.mod_lt _ (by decide)
  | ahi b s sel =>
    have : (b.toNat + s.toNat * ix sel l) % 2 ^ 64 < 2 ^ 64 := Nat.mod_lt _ (by decide)
    show _ / 2 ^ 32 < 2 ^ 32
    omega
  | n wide b d =>
    show ofInt 32 _ < 2 ^ 32
    rw [ofInt_eq_toNat]
    exact BitVec.isLt _
  | m ls => exact BitVec.isLt _

/-- A source read through a form holds that form's values. -/
theorem srcOfForm_at (f : Form) (ix : Sel → Nat → Nat) {l : Nat} (hl : l < 32) : (srcOfForm f ix).at ix l = f.at ix l := by
  cases f with
  | u b => rfl
  | a b s sel => rfl
  | alo b s sel =>
    show (b.toNat % 2 ^ 32 + s.toNat % 2 ^ 32 * ix sel l) % 2 ^ 32 = (b.toNat + s.toNat * ix sel l) % 2 ^ 32
    rw [Nat.add_mod, Nat.mod_mul_mod, Nat.mod_mod, ← Nat.add_mod]
  | ahi b s sel => exact getD_map_lanes (Form.at (.ahi b s sel) ix) 0 hl
  | n wide b d => exact getD_map_lanes (Form.at (.n wide b d) ix) 0 hl
  | m ls => exact getD_map_lanes (Form.at (.m ls) ix) 0 hl

/-- A field number reads in a lane what R10 to R19 say. -/
theorem view_src_at (s : State) (w : Wave) (c : Nat) {l : Nat} (hl : l < 32) :
    (w.view.src (s.geo w).index 1 c).at (s.geo w).index l = laneVal s w 1 c l := by
  unfold View.src laneVal
  by_cases hv : isV c = true
  · have hc : c < 88 := by simpa [isV] using hv
    simp [hv, View.reg, hc, srcOfForm_at _ _ hl, Wave.view]
  · by_cases hx : isX c = true
    · have hc : ¬ c < 88 := by simpa [isV] using hv
      simp [hv, hx, View.reg, hc, srcOfForm_at _ _ hl, Wave.view]
    · by_cases hk : isK c = true
      · simp [hv, hx, hk, Src.at, Wave.view]
      · simp only [hv, hx, hk, Bool.or_self, Bool.false_eq_true, if_false]
        split <;> simp_all [Src.at, Wave.view, Geo.index]

/-- The index register of a register array. -/
theorem view_reg_arrayIdx (w : Wave) (x : Option Ex) : w.view.reg (arrayIdx x) = w.x.getD (exXi x) {} := by
  unfold View.reg arrayIdx
  rw [if_neg (by omega), Nat.add_sub_cancel_left]
  rfl

/-- The number of a register array's element lies within the bounds, and is the index register's value plus the field's number (R15). -/
theorem arrayLane_ok {w : Wave} {x : Option Ex} {ix : Sel → Nat → Nat} {n c l j : Nat} (h : arrayLane w x ix n c l = .ok j) :
    j = ((BitVec.ofNat 32 ((w.x.getD (exXi x) {}).form.at ix l)).toInt + (c : Int)).toNat ∧ j < w.bndHi := by
  unfold arrayLane at h
  rw [view_reg_arrayIdx, toSigned_eq_toInt] at h
  simp only [Bool.or_eq_true, decide_eq_true_eq] at h
  split at h
  · cases h
  · split at h
    · cases h
    · split at h
      · cases h
      · obtain rfl := Except.ok.inj h
        exact ⟨rfl, by omega⟩

/-- The field that `arrayLanes` looks at is the one that the EX selects. -/
theorem selected_field {x : Option Ex} {f : Field} (hf : exXo x = f.xo) :
    (if exXo x == 1 then Field.d else if exXo x == 2 then .a else .b) = f := by
  rw [hf]; cases f <;> rfl

/-- The field numbers of a register array, lane by lane. -/
theorem arrayLanes_getD {i : OpInfo} {w : Wave} {x : Option Ex} {word : Word} {act : Mask} {ix : Sel → Nat → Nat} {f : Field}
    (hf : exXo x = f.xo) {l : Nat} (hl : l < 32) :
    (arrayLanes i w x word act ix).2.getD l 0 = match arrayLane w x ix (i.field f).regs (f.of word) l with
      | .error _ => 0
      | .ok c => c := by
  simp only [arrayLanes, selected_field hf, List.map_map]
  exact (getD_map_lanes _ 0 hl).trans rfl

/-- Where no item traps at its operands, each acting lane's register-array element exists. -/
theorem arrayLane_of_clean {s : State} {x : Option Ex} {word : Word} {w : Wave} {f : Field} (hc : Clean s x word w) (hf : exXo x = f.xo)
    {l : Nat} (hl : (w.active x).getLsbD l = true) :
    ∃ j, arrayLane w x (s.geo w).index ((wordInfo x word).field f).regs (f.of word) l = .ok j := by
  obtain ⟨-, -, hp, -⟩ := hc
  have hx : (exXo x == 0) = false := by rw [hf]; cases f <;> rfl
  unfold preTraps at hp
  simp only [hx, Bool.false_eq_true, if_false] at hp
  have h1 := (List.append_eq_nil_iff.mp hp).1
  simp only [arrayLanes, selected_field hf] at h1
  cases ha : arrayLane w x (s.geo w).index ((wordInfo x word).field f).regs (f.of word) l with
  | ok j => exact ⟨j, rfl⟩
  | error d =>
    have hm := List.filterMap_eq_nil_iff.mp h1 (l, .error d)
      (List.mem_map.mpr ⟨l, mem_lanes.mpr (BitVec.lt_of_getLsbD hl), by rw [ha]⟩)
    simp [hl] at hm

/-- Each acting lane's register-array number, as the model reads it, is the field's number there. -/
theorem arrayLanes_fieldAt {s : State} {x : Option Ex} {word : Word} {w : Wave} {f : Field} (act : Mask) (hc : Clean s x word w)
    (hf : exXo x = f.xo) {l : Nat} (hl : (w.active x).getLsbD l = true) :
    (arrayLanes (wordInfo x word) w x word act (s.geo w).index).2.getD l 0 = fieldAt s x word w f l := by
  obtain ⟨j, hj⟩ := arrayLane_of_clean hc hf hl
  have h0 : f.xo ≠ 0 := by cases f <;> decide
  rw [arrayLanes_getD hf (BitVec.lt_of_getLsbD hl), hj, Safety.fieldAt]
  simp only [hf, bne_iff_ne.mpr h0, BEq.rfl, Bool.and_self, if_true]
  exact (arrayLane_ok hj).1

/-- An operand of one register reads in each acting lane what R10 to R19, R15 and R81 say. -/
theorem src_at {s s0 : State} {x : Option Ex} {word : Word} {w : Wave} {t : Team} {l : Launch} {f : Field} (n : Nat)
    (hs : s0.geo w = s.geo w) (hc : Clean s x word w) {lane : Nat} (hl : (w.active x).getLsbD lane = true) :
    ((⟨s0, w, t, l, x, word, w.active x⟩ : Env).src (wordInfo x word) f 1 n).at (s.geo w).index lane = operand s x word w f 1 n lane := by
  have hl32 := BitVec.lt_of_getLsbD hl
  unfold Env.src operand
  simp only [Env.ix, hs]
  by_cases hb : (f == .b && exMode1 x && (wordInfo x word).immB) = true
  · simp only [hb, if_true]
    exact ofInt_eq_toNat _ _
  · simp only [hb, Bool.false_eq_true, if_false]
    by_cases hf : exXo x = f.xo
    · have h0 : f.xo ≠ 0 := by cases f <;> decide
      simp only [hf, BEq.rfl, bne_iff_ne.mpr h0, Bool.and_self, if_true]
      split
      · next b hu =>
        have hhead := head_maskLanes_mem hc.1
        have hsame : fieldAt s x word w f ((maskLanes (w.active x)).headD 0) = fieldAt s x word w f lane := by
          rw [view_reg_arrayIdx] at hu
          simp only [Safety.fieldAt, hu]
          rfl
        rw [arrayLanes_fieldAt _ hc hf hhead, view_src_at _ _ _ hl32, hsame]
      · rw [Src.at, getD_map_lanes _ _ hl32, arrayLanes_fieldAt _ hc hf hl, view_src_at _ _ _ hl32]
    · have hn : (exXo x == f.xo) = false := by simpa using hf
      simp only [hn, Safety.fieldAt, Bool.and_false, Bool.false_and, Bool.false_eq_true, if_false]
      exact view_src_at _ _ _ hl32

end Sys2Proof.Proofs.NumberFormats
end

/-! ## Lanes written whatever their items -/

section
namespace Sys2Proof.Proofs.NumberFormats
open Sys2Proof Sys2Proof.Machine Sys2Proof.Laws Sys2Proof.Safety Sys2Proof.Claims

/-! ### Lanes of a register that are written whatever their items (R112, R126) -/

/-- The lanes of a mask hold the values written, without marks, and every other lane what it held. -/
theorem lanePart_putLanes (r : Reg) (m : Mask) (vs : List Nat) (ix : Sel → Nat → Nat) {l : Nat} (hl : l < 32) :
    lanePart ix (r.putLanes m vs ix) l = if m.getLsbD l then (vs.getD l 0 % 2 ^ 32, false, false) else lanePart ix r l := by
  have hv : (r.putLanes m vs ix).form.at ix l = (if m.getLsbD l then vs.getD l 0 else r.form.at ix l) % 2 ^ 32 := by
    show ((lanes.map (fun j => BitVec.ofNat 32 (if m.getLsbD j then vs.getD j 0 else r.form.at ix j))).getD l 0).toNat = _
    rw [getD_map_lanes _ _ hl, BitVec.toNat_ofNat]
  have hp : (r.putLanes m vs ix).poison.getLsbD l = (r.poison.getLsbD l && !m.getLsbD l) := by
    simp [Reg.putLanes, hl]
  have hw : (r.putLanes m vs ix).world.getLsbD l = (r.world.getLsbD l && !m.getLsbD l) := by
    simp [Reg.putLanes, hl]
  rw [lanePart, lanePart, hv, hp, hw]
  by_cases h : m.getLsbD l = true
  · simp [h]
  · simp only [h, Bool.false_eq_true, if_false, Nat.mod_eq_of_lt (form_at_lt r.form ix l), Bool.not_false, Bool.and_true]

/-- One register of a file holds `val` in the lanes of `on` that name it, is as before where none names it, and in every lane that does
not name it. -/
def Holds (ix : Sel → Nat → Nat) (on : Nat → Bool) (here : Nat → Bool) (val : Nat → Nat) (old new : Reg) : Prop :=
  ((∀ l < 32, (on l && here l) = false) → new = old) ∧
  ∀ l < 32, lanePart ix new l = if on l && here l then (val l % 2 ^ 32, false, false) else lanePart ix old l

/-- Registers in which the lanes of `on` have been written, each at its own number. -/
structure LanesWritten (s : State) (w : Wave) (on : Nat → Bool) (c val : Nat → Nat) (u : View) : Prop where
  wb : u.wb = w.wb
  k : u.k = w.k
  v : ∀ i, Holds (s.geo w).index on (fun l => vPlace w (c l) 1 i) val (w.v.getD i {}) (u.v.getD i {})
  x : ∀ i, Holds (s.geo w).index on (fun l => xPlace (c l) 1 i) val (w.x.getD i {}) (u.x.getD i {})

theorem holds_refl (ix : Sel → Nat → Nat) (here : Nat → Bool) (val : Nat → Nat) (r : Reg) : Holds ix (fun _ => false) here val r r :=
  ⟨fun _ => rfl, fun l _ => by simp⟩

/-- The registers of a wave, with no lane written. -/
theorem lanesWritten_none (s : State) (w : Wave) (c val : Nat → Nat) : LanesWritten s w (fun _ => false) c val w.view :=
  ⟨rfl, rfl, fun _ => holds_refl _ _ _ _, fun _ => holds_refl _ _ _ _⟩

section
variable {ix : Sel → Nat → Nat} {on here : Nat → Bool} {val : Nat → Nat} {m : Mask} {old new : Reg}

/-- Further lanes that do not name the register leave it. -/
theorem Holds.skip (h : Holds ix on here val old new) (hm : ∀ l, m.getLsbD l = true → here l = false) :
    Holds ix (fun l => on l || m.getLsbD l) here val old new := by
  have he : ∀ l, ((on l || m.getLsbD l) && here l) = (on l && here l) := fun l => by
    cases hml : m.getLsbD l
    · simp
    · simp [hm l hml]
  unfold Holds
  simp only [he]
  exact h

/-- Further lanes that all name the register are written in it. -/
theorem Holds.put (h : Holds ix on here val old new) {vs : List Nat} (hvs : ∀ l < 32, vs.getD l 0 = val l)
    (hne : ∃ l < 32, m.getLsbD l = true) (hm : ∀ l, m.getLsbD l = true → here l = true) :
    Holds ix (fun l => on l || m.getLsbD l) here val old (new.putLanes m vs ix) := by
  refine ⟨fun hnone => ?_, fun l hl => ?_⟩
  · obtain ⟨l, hl, hml⟩ := hne
    have := hnone l hl
    simp [hml, hm l hml] at this
  · dsimp only
    rw [lanePart_putLanes _ _ _ _ hl, hvs l hl]
    rcases Bool.eq_false_or_eq_true (m.getLsbD l) with hml | hml
    · simp only [hml, Bool.or_true, hm l hml, Bool.and_self, if_true]
    · simp only [hml, Bool.or_false, Bool.false_eq_true, if_false, h.2 l hl]

end

/-- A change of a vector register is one of the register that the number names, past the window base (R13). -/
theorem modReg_isV {u : View} {c : Nat} (f : Reg → Reg) (hc : isV c = true) : u.modReg c f = { u with v := updFile {} u.v (u.wb + c) f } := by
  rw [View.modReg, if_pos (by simpa [isV] using hc)]

/-- A change of an index register. -/
theorem modReg_isX {u : View} {c : Nat} (f : Reg → Reg) (hc : isX c = true) : u.modReg c f = { u with x := updFile {} u.x (c - 112) f } := by
  have h : 112 ≤ c ∧ c < 116 := by simpa [isX] using hc
  rw [View.modReg, if_neg (by omega), if_pos hc]

theorem vPlace_one (w : Wave) (c i : Nat) : vPlace w c 1 i = (isV c && decide (i = w.wb + c)) := by
  unfold vPlace
  cases isV c
  · rfl
  · simp only [Bool.true_and, ← Bool.decide_and, decide_eq_decide]; omega

theorem xPlace_one (c i : Nat) : xPlace c 1 i = (isX c && decide (i = c - 112)) := by
  unfold xPlace
  cases isX c
  · rfl
  · simp only [Bool.true_and, ← Bool.decide_and, decide_eq_decide]; omega

theorem isX_of_isV {c : Nat} (h : isV c = true) : isX c = false := by
  simp only [isV, isX, decide_eq_true_eq, Bool.and_eq_false_iff, decide_eq_false_iff_not] at *; omega

theorem isV_of_isX {c : Nat} (h : isX c = true) : isV c = false := by
  simp only [isV, isX, Bool.and_eq_true, decide_eq_true_eq, decide_eq_false_iff_not] at *; omega

section
variable {s : State} {w : Wave} {on : Nat → Bool} {c val : Nat → Nat} {u : View} {m : Mask}

/-- Further lanes whose results are discarded (z, R10) change no register. -/
theorem LanesWritten.skip (h : LanesWritten s w on c val u) (hm : ∀ l, m.getLsbD l = true → c l = 116) :
    LanesWritten s w (fun l => on l || m.getLsbD l) c val u :=
  ⟨h.wb, h.k, fun i => (h.v i).skip fun l hl => by rw [hm l hl]; rfl, fun i => (h.x i).skip fun l hl => by rw [hm l hl]; rfl⟩

/-- Further lanes of one register number are written in that register, and in no other. -/
theorem LanesWritten.put (h : LanesWritten s w on c val u) {vs : List Nat} (hvs : ∀ l < 32, vs.getD l 0 = val l) {n : Nat}
    (hn : isV n = true ∨ isX n = true) (hne : ∃ l < 32, m.getLsbD l = true) (hm : ∀ l, m.getLsbD l = true → c l = n) :
    LanesWritten s w (fun l => on l || m.getLsbD l) c val (u.modReg n (fun q => q.putLanes m vs (s.geo w).index)) := by
  rcases hn with hn | hn
  · rw [modReg_isV _ hn]
    refine ⟨h.wb, h.k, fun i => ?_, fun i => (h.x i).skip fun l hl => ?_⟩
    · rw [getD_updFile, h.wb]
      split
      · next hi => subst hi; exact (h.v _).put hvs hne fun l hl => by rw [hm l hl, vPlace_one, hn]; simp
      · next hi => exact (h.v i).skip fun l hl => by rw [hm l hl, vPlace_one, hn]; simpa using hi
    · rw [hm l hl, xPlace_one, isX_of_isV hn]; rfl
  · rw [modReg_isX _ hn]
    refine ⟨h.wb, h.k, fun i => (h.v i).skip fun l hl => ?_, fun i => ?_⟩
    · rw [hm l hl, vPlace_one, isV_of_isX hn]; rfl
    · rw [getD_updFile]
      split
      · next hi => subst hi; exact (h.x _).put hvs hne fun l hl => by rw [hm l hl, xPlace_one, hn]; simp
      · next hi => exact (h.x i).skip fun l hl => by rw [hm l hl, xPlace_one, hn]; simpa using hi

/-- A lane of a vector register after the writes. -/
theorem LanesWritten.lane_v (h : LanesWritten s w on c val u) {l : Nat} (hl : l < 32) (i : Nat) : lanePart (s.geo w).index (u.v.getD i {}) l =
    if on l && vPlace w (c l) 1 i then (val l % 2 ^ 32, false, false) else lanePart (s.geo w).index (w.v.getD i {}) l := (h.v i).2 l hl

/-- A lane of an index register after the writes. -/
theorem LanesWritten.lane_x (h : LanesWritten s w on c val u) {l : Nat} (hl : l < 32) (i : Nat) : lanePart (s.geo w).index (u.x.getD i {}) l =
    if on l && xPlace (c l) 1 i then (val l % 2 ^ 32, false, false) else lanePart (s.geo w).index (w.x.getD i {}) l := (h.x i).2 l hl

/-- Registers whose lanes have been written hold their results as R21 and R340 say: in those lanes, and nowhere else. -/
theorem LanesWritten.lanesHold (h : LanesWritten s w m.getLsbD c val u) {v : Wave} (hr : v.ref = w.ref) (hb : v.wb = w.wb) (hv : v.v = u.v)
    (hx : v.x = u.x) (hk : v.k = u.k) (hc : ∀ l, m.getLsbD l = true → isV (c l) = true ∨ isX (c l) = true ∨ c l = 116) :
    LanesHold s w v m 1 c val := by
  have hg : s.geo v = s.geo w := by unfold State.geo; rw [hr]
  have hvl : ∀ l i, m.getLsbD l = true → vPlace w (c l) 1 i = true →
      lanePart (s.geo w).index (v.v.getD i {}) l = (val l % 2 ^ 32, false, false) := fun l i hl hp => by
    rw [hv, h.lane_v (BitVec.lt_of_getLsbD hl), hl, hp]; rfl
  have hxl : ∀ l i, m.getLsbD l = true → xPlace (c l) 1 i = true →
      lanePart (s.geo w).index (v.x.getD i {}) l = (val l % 2 ^ 32, false, false) := fun l i hl hp => by
    rw [hx, h.lane_x (BitVec.lt_of_getLsbD hl), hl, hp]; rfl
  refine ⟨fun l hl hne => ?_, fun l hl i hp => ?_, fun l hl i hp => ?_, fun i hi => ?_, fun i hi => ?_, fun i _ => ?_,
    fun i l hl hp => ?_, fun i l hl hp => ?_⟩
  · rw [ite_self, Nat.mul_one]
    have hlm := mem_maskLanes.mp hl
    rcases hc l hlm with h1 | h1 | h1
    · have := hvl l (w.wb + c l) hlm (by rw [vPlace_one, h1]; simp)
      simp only [laneVal, h1, if_true, hg, hb]
      exact congrArg Prod.fst this
    · have := hxl l (c l - 112) hlm (by rw [xPlace_one, h1]; simp)
      simp only [laneVal, isV_of_isX h1, h1, if_true, hg, Bool.false_eq_true, if_false]
      exact congrArg Prod.fst this
    · exact absurd h1 hne
  · exact congrArg Prod.snd (hvl l i (mem_maskLanes.mp hl) hp)
  · exact congrArg Prod.snd (hxl l i (mem_maskLanes.mp hl) hp)
  · rw [hv]
    refine (h.v i).1 fun l _ => ?_
    cases hl : m.getLsbD l
    · rfl
    · exact hi l (mem_maskLanes.mpr hl)
  · rw [hx]
    refine (h.x i).1 fun l _ => ?_
    cases hl : m.getLsbD l
    · rfl
    · exact hi l (mem_maskLanes.mpr hl)
  · rw [hk, h.k]
  · rw [hv, h.lane_v (BitVec.lt_of_getLsbD (mem_maskLanes.mp hl)), hp]; rfl
  · rw [hx, h.lane_x (BitVec.lt_of_getLsbD (mem_maskLanes.mp hl)), hp]; rfl

end

end Sys2Proof.Proofs.NumberFormats
end

/-! ## CVTQ and scales (R41, R51, R52, R126) -/

section
namespace Sys2Proof.Proofs.NumberFormats
open Sys2Proof Sys2Proof.Machine Sys2Proof.Laws Sys2Proof.Safety Sys2Proof.Claims

/-! ### CVTQ (R51, R52, R126) -/

/-- CVTQ gives its instruction this meaning. -/
theorem exec_cvtq (x : Option Ex) (e sat : Bool) (r : Rm) (d a k : R7) (s : State) : exec (.cvtq x e sat r d a k) s =
    settle (issue (cvtqWave k.toNat e r) waveOnly x (wordOf (.cvtq x e sat r d a k)) s) := rfl

section
variable (x : Option Ex) (e sat : Bool) (r : Rm) (d a k : R7)

theorem wordOf_cvtq : wordOf (.cvtq x e sat r d a k) = mkWord 0x35 (b2n e * 8 + b2n sat * 4 + r.code) d.toNat a.toNat k.toNat := by
  cases x <;> rfl

theorem maj_cvtq : (wordOf (.cvtq x e sat r d a k)).maj = 0x35 := by
  rw [wordOf_cvtq, maj_mkWord (by decide) (hp_lt e sat r) d.isLt a.isLt k.isLt]

/-- The destination field of CVTQ is a vector or index register or z (R10, R11, R113). -/
theorem wordInfo_cvtq_d : (wordInfo x (wordOf (.cvtq x e sat r d a k))).d = .dst 1 false := by
  rw [wordInfo, maj_cvtq]; rfl

end

/-- A wave's word that passes its checks passes those of the word. -/
theorem checkWord_of_waveCheck {w : Wave} {x : Option Ex} {word : Word} (h : waveCheck w x word = none) : checkWord x word = none := by
  unfold waveCheck at h
  split at h
  · cases h
  · split at h
    · cases h
    · exact h

/-- In a word that passes its checks, the d field is legal for its class (check 3 of R385), unless it names a register array. -/
theorem dField_ok {x : Option Ex} {word : Word} (h : checkWord x word = none) (hb : isBx word.maj = false) :
    Machine.fieldOk x 1 (wordInfo x word).d word.d7 = true := by
  cases hd : Machine.fieldOk x 1 (wordInfo x word).d word.d7 with
  | true => rfl
  | false =>
    simp only [checkWord, hb, hd, Bool.false_eq_true, if_false, Bool.not_false, if_true] at h
    split at h <;> cases h

/-- A destination of one register that is no k-register is a vector or index register, or z. -/
theorem dst_cases {c : Nat} (h : (FieldClass.dst 1 false).ok c = true) : isV c = true ∨ isX c = true ∨ c = 116 := by
  simp only [FieldClass.ok, isV, isX, isK, Bool.and_eq_true, decide_eq_true_eq, Bool.or_eq_true, Bool.not_eq_true', Bool.and_eq_false_iff,
    decide_eq_false_iff_not, Bool.false_or] at *
  omega

/-- The lanes of a 16-lane half as a mask. -/
theorem getLsbD_half {l j : Nat} (hl : l < 32) (hj : j < 32) :
    (if l < 16 then 0xFFFF else 0xFFFF0000 : Mask).getLsbD j = decide (j / 16 = l / 16) := by
  have h0 : ∀ j : Fin 32, (0xFFFF : Mask).getLsbD j = decide ((j : Nat) / 16 = 0) := by decide
  have h1 : ∀ j : Fin 32, (0xFFFF0000 : Mask).getLsbD j = decide ((j : Nat) / 16 = 1) := by decide
  split
  · rw [h0 ⟨j, hj⟩, show l / 16 = 0 by omega]
  · rw [h1 ⟨j, hj⟩, show l / 16 = 1 by omega]

/-- The model's lanes of the groups that hold an acting item are those of R126. -/
theorem groupLanes_eq_quantised (act : Mask) : groupLanes act = quantised act := by
  refine BitVec.eq_of_getLsbD_eq fun l hl => ?_
  rw [groupLanes, quantised, getLsbD_maskOf, getLsbD_maskOf, Bool.eq_iff_iff]
  simp only [hl, decide_true, Bool.true_and, bne_iff_ne, List.any_eq_true, mem_lanes, Bool.and_eq_true, beq_iff_eq]
  constructor
  · intro hne
    have hm := head_maskLanes_mem hne
    have hj := BitVec.lt_of_getLsbD hm
    rw [BitVec.getLsbD_and, getLsbD_half hl hj, Bool.and_eq_true, decide_eq_true_eq] at hm
    exact ⟨_, hj, hm⟩
  · rintro ⟨j, hj, ha, hg⟩ h0
    have : (act &&& if l < 16 then 0xFFFF else 0xFFFF0000).getLsbD j = true := by
      rw [BitVec.getLsbD_and, getLsbD_half hl hj, ha, hg]; simp
    rw [h0] at this
    simp at this

/-- The 16 values of a group that CVTQ quantises: those of its acting items, and +0 for the others (R126). -/
def groupVals (act : Mask) (src : Nat → Nat) (g : Nat) : List Nat :=
  (List.range 16).map (fun m => if act.getLsbD (16 * g + m) then src (16 * g + m) else 0)

theorem groupVals_congr {act : Mask} {f g : Nat → Nat} (h : ∀ l, act.getLsbD l = true → f l = g l) (n : Nat) :
    groupVals act f n = groupVals act g n := by
  refine List.map_congr_left fun m _ => ?_
  split
  · next hm => exact h _ hm
  · rfl

/-- What CVTQ writes in a lane (R126). -/
def cvtqVal (t : Nat) (esc : Bool) (r : Rm) (act : Mask) (src : Nat → Nat) (l : Nat) : Nat :=
  cvtqLane t (l % 16) (cvtqGroup t esc r (groupVals act src (l / 16)))

/-- Each lane of the model's result is that of its group. -/
theorem cvtqAll_getD (t : Nat) (esc : Bool) (r : Rm) (src : Nat → Nat) (act : Mask) {l : Nat} (hl : l < 32) :
    (cvtqAll t esc r src act).getD l 0 = cvtqVal t esc r act src l := by
  refine (getD_map_lanes (fun l => cvtqLane t (l % 16) (if l < 16 then cvtqGroup t esc r (groupVals act src 0) else
    cvtqGroup t esc r (groupVals act src 1))) 0 hl).trans ?_
  rw [cvtqVal]
  by_cases h : l < 16
  · rw [if_pos h, show l / 16 = 0 by omega]
  · rw [if_neg h, show l / 16 = 1 by omega]

/-! ### The registers that CVTQ leaves -/

/-- The registers after one lane has been written in its element of a register array, if it has one (R15). -/
def putElement (w : Wave) (x : Option Ex) (word : Word) (ix : Sel → Nat → Nat) (vs : List Nat) (u : View) (l : Nat) : View :=
  match arrayLane w x ix 1 word.d7 l with
  | .ok c => u.modReg c (fun q => q.putLanes (maskOf (fun j => j == l)) vs ix)
  | .error _ => u

/-- The registers after CVTQ has written the lanes of a mask, each at its own number. -/
def cvtqView (w : Wave) (x : Option Ex) (word : Word) (ix : Sel → Nat → Nat) (m : Mask) (vs : List Nat) : View :=
  if exXo x == 1 then (maskLanes m).foldl (putElement w x word ix vs) w.view
  else if word.d7 == 116 then w.view else w.view.modReg word.d7 (fun q => q.putLanes m vs ix)

/-- CVTQ traps no item, and changes registers alone. -/
theorem cvtqWave_eq (t : Nat) (esc : Bool) (r : Rm) (e : Env) : cvtqWave t esc r e =
    e.ok (e.w.withView (cvtqView e.w e.x e.word e.ix (groupLanes e.act)
      (cvtqAll t esc r ((e.src (wordInfo e.x e.word) .a 1 32).at e.ix) e.act))) := by
  unfold cvtqWave cvtqView
  simp only [apply_ite e.ok, apply_ite e.w.withView]
  rfl

section
variable {s : State} {w : Wave} {x : Option Ex} {word : Word} {val : Nat → Nat} {vs : List Nat}

/-- Under XO, a lane's result goes to its element of the register array. -/
theorem destOrZ_element (hx : exXo x = 1) {l c : Nat} (h : arrayLane w x (s.geo w).index 1 word.d7 l = .ok c) : destOrZ s x word w l = c := by
  unfold destOrZ
  simp only [h, hx, BEq.rfl, if_true]

/-- A lane that has no element discards its result. -/
theorem destOrZ_none (hx : exXo x = 1) {l d : Nat} (h : arrayLane w x (s.geo w).index 1 word.d7 l = .error d) :
    destOrZ s x word w l = 116 := by
  unfold destOrZ
  simp only [h, hx, BEq.rfl, if_true]

/-- Without XO on d, a lane's result goes to the field's register. -/
theorem destOrZ_field (hx : exXo x ≠ 1) (l : Nat) : destOrZ s x word w l = word.d7 := by
  unfold destOrZ
  split <;> simp [hx]

/-- An element of a register array is a vector register (R15, R29). -/
theorem isV_element {ix : Sel → Nat → Nat} (hb : w.bndHi ≤ 88) {l c : Nat} (h : arrayLane w x ix 1 word.d7 l = .ok c) : isV c = true := by
  obtain ⟨-, hlt⟩ := arrayLane_ok h
  exact decide_eq_true (by omega)

/-- Under XO, a lane is written in its element of the register array, or nowhere where it has none (R15). -/
theorem lanesWritten_putElement (hx : exXo x = 1) (hb : w.bndHi ≤ 88) (hvs : ∀ l < 32, vs.getD l 0 = val l) {on : Nat → Bool} {u : View}
    {a : Nat} (ha : a < 32) (h : LanesWritten s w on (destOrZ s x word w) val u) :
    LanesWritten s w (fun l => on l || l == a) (destOrZ s x word w) val (putElement w x word (s.geo w).index vs u a) := by
  have hm : ∀ l, (maskOf (fun j => j == a)).getLsbD l = (l == a) := fun l => by
    rw [getLsbD_maskOf]
    by_cases hla : l = a <;> simp [hla, ha]
  unfold putElement
  generalize maskOf (fun j => j == a) = m at hm ⊢
  have heq : ∀ l, m.getLsbD l = true → l = a := fun l hl => by rwa [hm, beq_iff_eq] at hl
  have hon : (fun l => on l || m.getLsbD l) = fun l => on l || l == a := funext fun l => by rw [hm]
  split
  · next c hc =>
    exact hon ▸ h.put hvs (.inl (isV_element hb hc)) ⟨a, ha, by rw [hm, BEq.rfl]⟩ fun l hl => by rw [heq l hl, destOrZ_element hx hc]
  · next d hc => exact hon ▸ h.skip fun l hl => by rw [heq l hl, destOrZ_none hx hc]

/-- Under XO, lanes are written one after the other. -/
theorem lanesWritten_array (hx : exXo x = 1) (hb : w.bndHi ≤ 88) (hvs : ∀ l < 32, vs.getD l 0 = val l) :
    ∀ (ls : List Nat) (on : Nat → Bool) (u : View), (∀ l ∈ ls, l < 32) → LanesWritten s w on (destOrZ s x word w) val u →
      LanesWritten s w (fun l => on l || ls.contains l) (destOrZ s x word w) val (ls.foldl (putElement w x word (s.geo w).index vs) u)
  | [], on, u, _, h => by simpa using h
  | a :: ls, on, u, hls, h => by
    have hstep := lanesWritten_putElement hx hb hvs (hls a (by simp)) h
    have ih := lanesWritten_array hx hb hvs ls _ _ (fun l hl => hls l (by simp [hl])) hstep
    simpa only [Bool.or_assoc, List.contains_cons, List.foldl_cons] using ih

/-- A lane's destination is a vector or index register, or z. -/
theorem destOrZ_cases (hb : w.bndHi ≤ 88) (hd : Machine.fieldOk x 1 (.dst 1 false) word.d7 = true) (l : Nat) :
    isV (destOrZ s x word w l) = true ∨ isX (destOrZ s x word w l) = true ∨ destOrZ s x word w l = 116 := by
  by_cases hx : exXo x = 1
  · cases hc : arrayLane w x (s.geo w).index 1 word.d7 l with
    | ok c => exact .inl (by rw [destOrZ_element hx hc, isV_element hb hc])
    | error d => exact .inr (.inr (destOrZ_none hx hc))
  · rw [destOrZ_field hx]
    exact dst_cases (by simpa [Machine.fieldOk, hx] using hd)

/-- CVTQ writes each lane of its mask at its destination, and no other lane of any register. -/
theorem lanesWritten_cvtqView {m : Mask} (hm : m ≠ 0) (hb : w.bndHi ≤ 88) (hd : Machine.fieldOk x 1 (.dst 1 false) word.d7 = true)
    (hvs : ∀ l < 32, vs.getD l 0 = val l) :
    LanesWritten s w m.getLsbD (destOrZ s x word w) val (cvtqView w x word (s.geo w).index m vs) := by
  have h0 := lanesWritten_none s w (destOrZ s x word w) val
  unfold cvtqView
  by_cases hx : exXo x = 1
  · rw [if_pos (by simpa using hx)]
    have h := lanesWritten_array (word := word) hx hb hvs (maskLanes m) _ _ (fun l hl => BitVec.lt_of_getLsbD (mem_maskLanes.mp hl)) h0
    have he : (fun l => false || (maskLanes m).contains l) = m.getLsbD := by
      funext l
      rw [Bool.false_or, Bool.eq_iff_iff, List.contains_iff_mem, mem_maskLanes]
    rwa [he] at h
  · have hc := destOrZ_field (s := s) (w := w) (word := word) hx
    rw [if_neg (by simpa using hx)]
    split
    · next h116 =>
      simpa using h0.skip (m := m) fun l _ => (hc l).trans (by simpa using h116)
    · next h116 =>
      have hreg : isV word.d7 = true ∨ isX word.d7 = true := by
        rcases dst_cases (by simpa [Machine.fieldOk, hx] using hd) with h | h | h
        · exact .inl h
        · exact .inr h
        · exact absurd (by simpa using h) h116
      have hne : ∃ l < 32, m.getLsbD l = true := ⟨_, BitVec.lt_of_getLsbD (head_maskLanes_mem hm), head_maskLanes_mem hm⟩
      simpa using h0.put hvs hreg hne fun l _ => hc l

end

/-- A group with an acting item is quantised. -/
theorem quantised_ne_zero {act : Mask} (h : act ≠ 0) : quantised act ≠ 0 := by
  intro hq
  have hm := head_maskLanes_mem h
  have hl := BitVec.lt_of_getLsbD hm
  have : (quantised act).getLsbD ((maskLanes act).headD 0) = true := by
    rw [quantised, getLsbD_maskOf, Bool.and_eq_true, decide_eq_true_eq, List.any_eq_true]
    exact ⟨hl, _, mem_lanes.mpr hl, by rw [hm]; simp⟩
  rw [hq] at this
  simp at this

/-- The lanes that CVTQ's body computes are those of R126, of the operand that R10 to R19 give. -/
theorem cvtqAll_src {s : State} {x : Option Ex} {word : Word} {w : Wave} (t : Team) (l : Launch) (n : Nat) (esc : Bool) (r : Rm)
    (hc : Clean s x word w) {lane : Nat} (hl : lane < 32) :
    (cvtqAll n esc r (((⟨noteIssue s w t, w, t, l, x, word, w.active x⟩ : Env).src (wordInfo x word) .a 1 32).at (s.geo w).index)
      (w.active x)).getD lane 0 = cvtqVal n esc r (w.active x) (operand s x word w .a 1 32) lane := by
  rw [cvtqAll_getD _ _ _ _ _ hl, cvtqVal, cvtqVal, groupVals_congr fun j hj => src_at 32 (geo_noteIssue s w w t) hc hj]

/-- Settles O4: what CVTQ's body writes, lane by lane, is what R126 says, and its issue leaves all else as going on does. -/
theorem cvtqQuantisesGroups : Obligations.CvtqQuantisesGroups := by
  rintro x e sat r d a k s w t l ⟨-, hi, hc⟩
  have ⟨_, _, _, _, _, hchk, _⟩ := hi
  have ⟨hact, _, _, hbnd⟩ := hc
  have hd : Machine.fieldOk x 1 (.dst 1 false) (wordOf (.cvtq x e sat r d a k)).d7 = true := by
    rw [← wordInfo_cvtq_d x e sat r d a k]
    exact dField_ok (checkWord_of_waveCheck hchk) (by rw [maj_cvtq]; rfl)
  have hm : groupLanes (w.active x) ≠ 0 := groupLanes_eq_quantised (w.active x) ▸ quantised_ne_zero hact
  have hw := lanesWritten_cvtqView (s := s) hm hbnd hd fun lane hl => cvtqAll_src t l k.toNat e r hc hl
  obtain ⟨s', w', hs', hone, hgo, hv, hx, hk, hp⟩ := issue_goesOn waveOnly hi hc (cvtqWave_eq k.toNat e r _) (onlyRegs_withView w _)
  have ⟨hframe, _⟩ := hgo
  refine ⟨s', w', (exec_cvtq x e sat r d a k s).trans hs', hone, hgo, hp, ?_⟩
  rw [← groupLanes_eq_quantised]
  exact hw.lanesHold (by rw [hframe]) (by rw [hframe]) hv hx hk fun lane _ => destOrZ_cases hbnd hd lane

/-! ### E8M0 scales (R41) -/

/-- A scale code below 0xFF stands for the exponent that R41 gives. -/
theorem scaleExp_of_lt {e : Nat} (h : e < 255) : scaleExp e = some ((e : Int) - 127) := by
  have he : e % 256 = e := by omega
  have hne : (e == 255) = false := beq_eq_false_iff_ne.mpr (by omega)
  rw [scaleExp, he, hne]
  rfl

/-- The scale code 0xFF is NaN. -/
theorem scaleExp_nan : scaleExp 255 = none := rfl

/-- Settles O58: the two cases of a scale code, and what an element of a scaled block is in each. -/
theorem e8m0ScalesArePowersOfTwo : Obligations.E8m0ScalesArePowersOfTwo := by
  refine ⟨fun e => scaleExp_of_lt, scaleExp_nan, fun f c e s m k he hc => ?_, fun f c z => ⟨?_, ?_⟩⟩
  · rw [xb8Val, scaleExp_of_lt he, hc]; rfl
  · rw [xb8Val, scaleExp_nan]
  · rw [xb4Val, scaleExp_nan]

end Sys2Proof.Proofs.NumberFormats
end

/-! ## Matrix and attention commands (R236 to R253; log 32) -/

section
namespace Sys2Proof.Proofs.NumberFormats
open Sys2Proof Sys2Proof.Machine Sys2Proof.Laws Sys2Proof.Safety Sys2Proof.Claims

/-! ### An ATTNFIN that overwrites the segment table that checks it (R172, R251, R361)

`FinPost` takes the checks of every window byte that an ATTNFIN writes from the state in which it starts. A window's bytes may lie at
another node, where R361 checks each access against the segment table that stands in that node's memory. An ATTNFIN whose first tile lies
on that table invalidates it, and its second tile is refused, though it could be written when the command started. The counterexample is
such a command: one row of two BF16 slices, all zero since l = 0, through a window of 256 bytes at the start of node 1's table. -/

/-- The attention stream of the command's team. -/
def tableStream : StreamRef := .team ⟨1, 0⟩ .attn

/-- An EX that names member 1 of its family (R84). -/
def exMemberOne : Ex := ⟨false, 0, BitVec.ofNat 21 (2 ^ 13)⟩

/-- An ATTNFIN with DEST 1 of one row and two slices in BF16, to scratchpad 0x200 (R251). -/
def tableFin : Cmd :=
  { seq := 1, wave := some ⟨⟨1, 0⟩, 0⟩, word := wordOf (.attnfin exMemberOne 3 88 92), exw := exMemberOne.word, ops := [0, 0x1D01, 0x200]
    mask := 1, b0 := [], b1 := [], done := .flag 3, state := .queued, pred := none, progress := 0, pins := [], join := none }

/-- Its team: scratchpad 0x200 to 0x2FF is a window on node 1, segment 0, offset 0x2000 (R171). -/
def tableTeam : Team := { probeTeam 0 1 with windows := [some ⟨BitVec.ofNat 64 (2 ^ 56 + 0x2000), 0x200, 256⟩] }

/-- Node 1, which grants its segments to context 0 under the RCB at 0x1000 (R360). -/
def grantingNode : Node := { Node.reset 1 with booted := true, peers := [⟨0, 0x1000, true, 0xFFFF, 0xFFFF⟩] }

/-- A machine in which the command may start. In node 1's memory, the RCB names the segment table at 0x2000, whose entry 0 is valid, readable
and writable, with base 0 and limit 0x3000 (R266, R293). -/
def tableState : State :=
  { State.reset with
    mem := [(physKey 1 0x1031, 0x20), (physKey 1 0x2009, 0x30), (physKey 1 0x200F, 0x0B)]
    nodes := [{ Node.reset 0 with booted := true }, grantingNode]
    launches := [probeLaunch 0 1], teams := [tableTeam], waves := [probeWave 1 0], cores := [probeCore 0]
    streams := [⟨tableStream, 1, [tableFin], false, none, []⟩], nextNum := 2 }

/-- The state meets the premise of the ATTNFIN clause. -/
theorem finPre_tableState : FinPre tableState tableStream tableFin tableTeam (probeLaunch 0 1) := by decide +kernel

/-- When the command starts, both its tiles can be written, so the statement gives it status 0. -/
theorem status226_tableState : status226 (moves251 tableState tableTeam tableFin) = (0, 0) := by decide +kernel

/-- Once the first tile is written, the second one's bytes fail the segment check at node 1 (R361, R362), and the command stands started with
status REMOTE (R226). -/
theorem streams_engineStart_tableState : (tableState.engineStart tableStream).streams =
    (withCmd tableState tableStream tableFin { tableFin with state := .started stRemote }).streams := by decide +kernel

/-- The two statuses give different streams. -/
theorem streams_remote_ne_done : (withCmd tableState tableStream tableFin { tableFin with state := .started stRemote }).streams ≠
    (withCmd tableState tableStream tableFin { tableFin with state := .started 0 }).streams := by decide +kernel

/-- Refutes O60: in `tableState` the ATTNFIN ends with status REMOTE, where the statement says 0, because its first tile overwrites the
segment table through which its second is checked. -/
theorem not_matrixAndAttentionCommandsCompute : ¬ Obligations.MatrixAndAttentionCommandsCompute := by
  rintro ⟨-, -, hfin, -⟩
  obtain ⟨s', hs', hpost⟩ := hfin _ _ _ _ _ finPre_tableState
  obtain ⟨-, hstart⟩ := settle_next.mp (show settle (tableState.engineStart tableStream) = .next s' from hs')
  obtain ⟨-, -, -, -, -, -, -, hstreams⟩ := hpost
  rw [status226_tableState, ← hstart, streams_engineStart_tableState] at hstreams
  exact streams_remote_ne_done hstreams

end Sys2Proof.Proofs.NumberFormats
end

/-! ## Management requests that read a node (R104, R363, R370, R374, R381) -/

section
namespace Sys2Proof.Proofs.AssemblyObjects
open Sys2Proof Sys2Proof.Machine Sys2Proof.Laws Sys2Proof.Safety Sys2Proof.Claims

/-! ### Runs of bytes as locations (R6) -/

/-- A run of bytes begins with its first byte. -/
theorem globBytes_succ (k n : Nat) : globBytes k (n + 1) = .glob k :: globBytes (k + 1) n := by
  rw [globBytes, List.range_succ_eq_map, List.map_cons, List.map_map]
  exact congrArg (_ :: ·) (List.map_congr_left fun j _ => congrArg Loc.glob (by omega))

/-- A run of memory is read byte by byte. -/
theorem globBytes_map_peek (s : State) : ∀ (n k : Nat), (globBytes k n).map s.peek = s.mem.readN k n
  | 0, _ => rfl
  | n + 1, k => by
    rw [globBytes_succ, List.map_cons, globBytes_map_peek s n (k + 1)]
    rfl

/-- Bytes put at a run of memory are those that a write of the run gives. -/
theorem put_globBytes_glob (a : Nat) : ∀ (bs : List Byte) (f : Bytes) (m : Memory) (k : Nat), (∀ c, f (.glob c) = m.read c) →
    Bytes.put f (globBytes k bs.length) bs (.glob a) = (m.writeN k bs).read a
  | [], _, _, _, h => h a
  | b :: bs, f, m, k, h => by
    rw [List.length_cons, globBytes_succ]
    refine put_globBytes_glob a bs _ (m.write k b) (k + 1) fun c => ?_
    simp only [Loc.glob.injEq, h, read_write]

/-- Bytes put at a run of memory leave every scratchpad. -/
theorem put_globBytes_scr (t : TeamRef) (o : Nat) : ∀ (bs : List Byte) (f : Bytes) (k : Nat),
    Bytes.put f (globBytes k bs.length) bs (.scr t o) = f (.scr t o)
  | [], _, _ => rfl
  | b :: bs, f, k => by
    rw [List.length_cons, globBytes_succ]
    exact put_globBytes_scr t o bs (fun c => if c = .glob k then b else f c) (k + 1)

/-! ### A write of physical memory (R188, R195, R340) -/

@[simp] theorem watchless_wakeUp (w : Wave) : watchless w.wakeUp = watchless w := by
  unfold Wave.wakeUp
  split <;> rfl

@[simp] theorem watchless_abortTx (w : Wave) (c : Nat) : watchless (w.abortTx c) = watchless w := by
  unfold Wave.abortTx
  split <;> rfl

/-- Touching a line changes of a wave only what a write of a line that it watches may. -/
theorem touch_watchless (s : State) (l : Loc) (b : Option WaveRef) : (s.touch l b).waves.map watchless = s.waves.map watchless := by
  simp only [State.touch, List.map_map]
  refine List.map_congr_left fun w _ => ?_
  rw [Function.comp_apply]
  split
  · exact watchless_wakeUp w
  · split
    · rfl
    · split
      · exact watchless_abortTx w 1
      · rfl

/-- Touching lines leaves all but the waves that watch them and the deliveries that wait for them. -/
theorem touchAll_frame (b : Option WaveRef) : ∀ (ls : List Loc) (s : State),
    s.touchAll ls b = { s with waves := (s.touchAll ls b).waves, deliveries := (s.touchAll ls b).deliveries } ∧
    (s.touchAll ls b).waves.map watchless = s.waves.map watchless
  | [], _ => ⟨rfl, rfl⟩
  | l :: ls, s => by
    obtain ⟨hframe, hwaves⟩ := touchAll_frame b ls (s.touch l b)
    refine ⟨?_, hwaves.trans (touch_watchless s l b)⟩
    show (s.touch l b).touchAll ls b = _
    rw [hframe]
    rfl

/-- A write inside a node's memory changes bytes and their poison, and what watches them. -/
theorem wrPhys_frame {s : State} {k : Nat} {bs : List Byte} (b : Option WaveRef) (h : k % 2 ^ 52 + bs.length ≤ physBytes) :
    s.wrPhys k bs b = { s with waves := (s.wrPhys k bs b).waves, deliveries := (s.wrPhys k bs b).deliveries
                               mem := s.mem.writeN k bs, poison := (s.wrPhys k bs b).poison } ∧
    (s.wrPhys k bs b).waves.map watchless = s.waves.map watchless := by
  have hstore : s.store k bs = { s with mem := s.mem.writeN k bs } := by rw [State.store, guardPhys_inside h]
  obtain ⟨hframe, hwaves⟩ := touchAll_frame b (linesOf (.glob k) bs.length) ((s.store k bs).unpoison k bs.length)
  rw [hstore] at hframe hwaves
  unfold State.wrPhys
  rw [hstore]
  exact ⟨by rw [hframe]; rfl, hwaves⟩

/-- The bytes after a write inside a node's memory: those written at their run, and every other as before. -/
theorem wrPhys_bytesNow {s : State} {k : Nat} {bs : List Byte} (b : Option WaveRef) (h : k % 2 ^ 52 + bs.length ≤ physBytes) :
    BytesNow s (s.wrPhys k bs b) (Bytes.put s.peek (globBytes k bs.length) bs) := by
  obtain ⟨hframe, hwaves⟩ := wrPhys_frame b h
  have hmem : (s.wrPhys k bs b).mem = s.mem.writeN k bs := by rw [hframe]
  have hteams : (s.wrPhys k bs b).teams = s.teams := by rw [hframe]
  refine ⟨by rw [hteams], hwaves, fun o => ?_⟩
  cases o with
  | glob a => exact (congrArg (·.read a) hmem).trans (put_globBytes_glob a bs s.peek s.mem k fun _ => rfl).symm
  | scr t o =>
    rw [put_globBytes_scr]
    simp only [State.peek, State.team?, hteams]

/-! ### Who is answered (R363) -/

theorem counted370_eq (s : State) (n i : Nat) : counted370 s n i = (s.bump n i).nodes := by
  simp only [counted370, State.bump, modNode_nodes, beq_iff_eq]

theorem withRecord_eq (s : State) (n f : Nat) (r : Record) : withRecord s n f r = (s.publish n f r).nodes := by
  simp only [withRecord, State.publish, modNode_nodes, beq_iff_eq]

section
variable {s : State} {h : Mgmt} {d : Node}

/-- A booted node answers a management-enabled adapter, and counts a request of any other. -/
theorem manage_reached (hr : Reached s h d) (code : Nat) (early : Bool) (f : State → Node → Machine.Answer) :
    s.manage h code early f = answered363 s h d code ((f s d).s, (f s d).status, (f s d).data) := by
  obtain ⟨-, hnode, hbooted, -⟩ := hr
  unfold State.manage answered363
  rw [hnode, counted370_eq]
  simp only [hbooted, Bool.not_true, Bool.false_eq_true, if_false]
  rfl

/-- An answer whose state has met no fault is the next state. -/
theorem settle_answered (hs : s.stuck = none) (code : Nat) {a : State × Nat × List Byte} (ha : a.1.stuck = none) :
    settle (answered363 s h d code a) = .next (answered363 s h d code a) := by
  refine settle_next.mpr ⟨?_, rfl⟩
  unfold answered363
  split
  · exact ha
  · exact hs

/-- A request that reaches a node is answered as its meaning gives, if that meets no fault. -/
theorem settle_manage (hr : Reached s h d) (code : Nat) (early : Bool) {f : State → Node → Machine.Answer} (hf : (f s d).s.stuck = none) :
    settle (s.manage h code early f) = .next (answered363 s h d code ((f s d).s, (f s d).status, (f s d).data)) := by
  rw [manage_reached hr, settle_answered hr.1 code hf]

/-! ### MEM (R363, R374, R381) -/

/-- The notice of a failed world check at the node (R374). -/
theorem worldNotice_reached (hr : Reached s h d) (code rcb wh : Nat) :
    s.worldNotice d.num code rcb wh = { s with nodes := match d.sfdom with
      | none => counted370 s d.num 4
      | some f => withRecord s d.num f ⟨8, code, rcb, 0, wh, 0, 0, 0, 0, s.time⟩ } := by
  obtain ⟨-, hnode, -, hnum⟩ := hr
  have hsfdom : (s.node? d.num).bind (·.sfdom) = d.sfdom := by rw [hnum, hnode]; rfl
  unfold State.worldNotice
  rw [hsfdom]
  cases d.sfdom with
  | none => simp only [counted370_eq]; rfl
  | some f => simp only [withRecord_eq]; rfl

/-- MEM of a booted node, by the conditions of R363, R374 and R381. -/
theorem memAccess_reached (hr : Reached s h d) (addr len : Nat) (data : Option (List Byte)) : s.memAccess h d addr len data =
    if 192 < len ∨ physBytes < addr + len ∨ data.any (fun b => b.length != len) = true then badArg s
    else if d.booted = true ∧ Config.inSavePool d.fwDigest addr len = true then notPermitted s
    else if s.secureAt (2 ^ 52 * d.num + addr) len = true ∧ Config.adapterSecure d.fwDigest h.adapter = false then
      notPermitted (s.worldNotice d.num 7 h.rcb d.num)
    else match data with
      | none => ⟨s, 0, s.mem.readN (2 ^ 52 * d.num + addr) len⟩
      | some bs => .ok (s.wrPhys (2 ^ 52 * d.num + addr) bs none) := by
  obtain ⟨-, -, hbooted, -⟩ := hr
  have hwhere : whereWord d.num 0 0 0 0 0 = d.num := by simp [whereWord]
  simp only [State.memAccess, physKey, hwhere, hbooted, Nat.mul_comm d.num, Bool.or_eq_true, Bool.and_eq_true, decide_eq_true_eq,
    Bool.not_eq_true', Bool.not_true, Bool.false_and, Bool.false_eq_true, if_false, or_assoc] <;> rfl

/-- A range that MEM may reach lies inside its node's memory. -/
theorem memRange_inside {addr len : Nat} (n : Nat) (hlen : addr + len ≤ physBytes) : (2 ^ 52 * n + addr) % 2 ^ 52 + len ≤ physBytes := by
  have hbytes : physBytes < 2 ^ 52 := by decide
  rw [Nat.mul_add_mod, Nat.mod_eq_of_lt (by omega)]
  exact hlen

/-- What MEM answers, and that it meets no fault. -/
theorem memAnswer_memAccess (hr : Reached s h d) (addr len : Nat) (data : Option (List Byte)) :
    MemAnswer s h d addr len data (s.memAccess h d addr len data).s (s.memAccess h d addr len data).status
      (s.memAccess h d addr len data).data ∧ (s.memAccess h d addr len data).s.stuck = none := by
  have hs : s.stuck = none := hr.1
  rw [memAccess_reached hr, MemAnswer]
  by_cases hbad : 192 < len ∨ physBytes < addr + len ∨ data.any (fun b => b.length != len) = true
  · simp only [if_pos hbad]
    exact ⟨⟨rfl, rfl, rfl⟩, hs⟩
  by_cases hpool : d.booted = true ∧ Config.inSavePool d.fwDigest addr len = true
  · simp only [if_neg hbad, if_pos hpool]
    exact ⟨⟨rfl, rfl, rfl⟩, hs⟩
  by_cases hsecure : s.secureAt (2 ^ 52 * d.num + addr) len = true ∧ Config.adapterSecure d.fwDigest h.adapter = false
  · simp only [if_neg hbad, if_neg hpool, if_pos hsecure, worldNotice_reached hr]
    exact ⟨⟨rfl, rfl, rfl⟩, hs⟩
  simp only [if_neg hbad, if_neg hpool, if_neg hsecure]
  obtain ⟨-, hbytes, hdata⟩ : ¬ 192 < len ∧ ¬ physBytes < addr + len ∧ ¬ data.any (fun b => b.length != len) = true := by
    simpa only [not_or] using hbad
  cases data with
  | none =>
    rw [if_pos rfl, globBytes_map_peek]
    exact ⟨⟨rfl, rfl, rfl⟩, hs⟩
  | some bs =>
    obtain rfl : bs.length = len := by simpa using hdata
    have hin := memRange_inside d.num (Nat.le_of_not_lt hbytes)
    obtain ⟨hframe, -⟩ := wrPhys_frame (s := s) none hin
    have hnow := wrPhys_bytesNow (s := s) none hin
    rw [if_neg (Option.some_ne_none bs)]
    dsimp only [Machine.Answer.ok]
    refine ⟨⟨rfl, rfl, ?_, hnow⟩, ?_⟩
    · rw [hframe]
    · rw [hframe]
      exact hs

end

/-- Settles O44: what a booted node answers to COUNTERS, ENABLE and each case of MEM, of which a write is one of physical memory. -/
theorem managementRequestsReadTheNode : Obligations.ManagementRequestsReadTheNode := by
  intro s h d hr
  refine ⟨settle_manage hr 0x0B false hr.1, settle_manage hr 0x0D true hr.1, fun addr len data => ?_⟩
  obtain ⟨hanswer, hstuck⟩ := memAnswer_memAccess hr addr len data
  exact ⟨_, _, _, hanswer, settle_manage hr 0x0E true hstuck⟩

end Sys2Proof.Proofs.AssemblyObjects
end

/-! ## An object that fits the core budget but no die (R105, R108; log 43) -/

section
namespace Sys2Proof.Proofs.AssemblyObjects
open Sys2Proof Sys2Proof.Machine Sys2Proof.Laws Sys2Proof.Claims

/-! `ObjectsArePlacedWhole` asks of a load that every base from which its stage sets fit the die passes the checks. An object whose sets fit
from no base meets that, and the statement then says that it is placed, from such a base. The loader reports status 6 instead (R108). The
counterexample has one kernel, of two stage sets of 158 cores and 1 core: within the region's budget of 160 cores, but the second set starts
at the next multiple of 4, 160, and so ends at 161 (R105). -/

/-- The header of a section (R100). -/
def sectionHeader (ty off size align : Nat) : List Byte :=
  toBytes 4 0 ++ toBytes 4 ty ++ toBytes 8 off ++ toBytes 8 size ++ toBytes 8 align

/-- The record of a kernel of 32 items and 48 registers with the two stage sets (R102). -/
def wideRecord : List Byte :=
  toBytes 8 0 ++ toBytes 2 48 ++ toBytes 2 32 ++ toBytes 2 1 ++ toBytes 2 1 ++ toBytes 12 0 ++ toBytes 1 0 ++ toBytes 1 2 ++ toBytes 18 0 ++
    toBytes 4 158 ++ toBytes 4 1 ++ toBytes 72 0

/-- An object of text, that record, no symbols, and an empty name (R99). -/
def wideObject : List Byte :=
  [0x45, 0x5A, 0x4F, 0x00] ++ toBytes 2 1 ++ toBytes 2 64 ++ toBytes 2 4 ++ toBytes 2 32 ++ toBytes 4 0 ++ toBytes 8 64 ++ toBytes 2 3 ++
    toBytes 2 2 ++ toBytes 36 0 ++ sectionHeader 1 192 16 4 ++ sectionHeader 5 208 128 7 ++ sectionHeader 6 336 0 3 ++ sectionHeader 7 336 1 0 ++
    toBytes 16 0x9E000000 ++ wideRecord ++ [0]

/-- Its request for context 1 of node 0, with places for the text and the record. -/
def wideLoad : LoadReq := ⟨0, 0, 1, wideObject, [some 0x20000, some 0x22000, none, none]⟩

/-- The context, whose region has its RCB at 0x1000. -/
def wideCtx : Ctx := ⟨0, 1, 0x1000, [0, 0, 0, 0], none, [], [], 0⟩

/-- A machine with that context: the RCB is a root with 160 cores and a SLICE of 1,000, and names the segment table at 0x2000, whose entry 0
has every right and limit 2^40 (R266, R293). -/
def wideState : State :=
  { State.reset with
    mem := [(0x1008, 0xFF), (0x1009, 0x01), (0x1010, 160), (0x1020, 0xE8), (0x1021, 0x03), (0x1031, 0x20), (0x200D, 0x01), (0x200F, 0x0F)]
    nodes := [{ Node.reset 0 with booted := true }], ctxs := [wideCtx] }

/-- The segments of the context. -/
def wideSegs : SegTable := wideState.segTable 0 0x2000

/-- The state meets the premise of the loader's clauses, with a core budget of 160. -/
theorem loaderPre_wide : LoaderPre wideState wideLoad wideCtx wideSegs 160 := by decide +kernel

/-- No launch of the image is queued, running or pre-empted. -/
theorem imageBusy_wide : wideState.imageBusy 0 1 (text108 wideLoad wideSegs) = false := by decide +kernel

theorem sets105_wide : sets105 wideObject = [[158, 1]] := by decide +kernel

/-- The stage sets fit the die from no base. -/
theorem not_base105_wide (base : Nat) : ¬ Base105 wideLoad base := by
  rintro ⟨-, hfit⟩
  have hend : end105 [158, 1] = 161 := rfl
  have := hfit [158, 1] (by rw [show wideLoad.file = wideObject from rfl, sets105_wide]; exact List.mem_singleton_self _)
  omega

/-- The loader reports status 6. -/
theorem replies_loaderPlace_wide : (wideState.loaderPlace wideLoad).replies = [⟨0, 0, 0, 0, 6, []⟩] := by decide +kernel

/-- Refutes O49: no base meets the premises about bases of the clause on placing for `wideLoad`, so they hold, and the clause says that the
load is placed and reported with status 0, where the loader reports 6. -/
theorem not_objectsArePlacedWhole : ¬ Obligations.ObjectsArePlacedWhole := by
  rintro ⟨hplaced, -⟩
  obtain ⟨s1, base, -, -, hframe, hexec⟩ := hplaced wideState wideLoad wideCtx wideSegs 160 loaderPre_wide
    (fun base hb => absurd hb (not_base105_wide base)) imageBusy_wide (fun base hb => absurd hb (not_base105_wide base))
  obtain ⟨-, hreported⟩ := settle_next.mp (show settle (wideState.loaderPlace wideLoad) = .next (reported108 s1 0 0) from hexec)
  have hreplies : (wideState.loaderPlace wideLoad).replies = [⟨0, 0, 0, 0, 0, []⟩] := by
    rw [hreported, reported108, hframe]
    rfl
  exact absurd (replies_loaderPlace_wide.symm.trans hreplies) (by decide)

end Sys2Proof.Proofs.AssemblyObjects
end
